-- ==== Sys2Proof/Word.lean ====
section
/-! DEFINITION. The word types of the GX-480 (R7, R10) and the extension helpers of R108. -/

namespace Sys2Proof

/-- A byte (R10). -/
abbrev Byte := BitVec 8
/-- A 32-bit word: one lane's slice of a vector register (R10, R18). -/
abbrev Word := BitVec 32
/-- A double: the width of a group register (R10, R18). -/
abbrev DWord := BitVec 64
/-- A 56-bit virtual address (R78, R212). -/
abbrev Addr := BitVec 56
/-- One bit per lane of a group (R15). -/
abbrev Mask := BitVec 32

/-- `sext(x, w)` of R108, into `v` bits. -/
abbrev sext {w : Nat} (v : Nat) (x : BitVec w) : BitVec v := x.signExtend v
/-- `zext(x, w)` of R108, into `v` bits. -/
abbrev zext {w : Nat} (v : Nat) (x : BitVec w) : BitVec v := x.setWidth v

/-- Is lane `l` in the mask? -/
abbrev Mask.has (m : Mask) (l : Nat) : Bool := m.getLsbD l

/-- The lane indices in ascending order (R11). -/
abbrev lanes : List Nat := List.range 32

end Sys2Proof
end

