-- ==== Sys2Proof/Syntax.lean ====
section
/-! DEFINITION. The steps of the GX-480: one constructor for each row of the table. The first 219 are the instruction
words (R79 to R104): `s` is the stall count of bits [31:29], the other fields are the word's own, with group-register
fields six bits and predicate fields three bits wide. The others are the steps without a word: what the host, the engines,
the home slices, firmware and Lamplighter do, with the choice that R77 or a latency leaves to them as operands. -/

namespace Sys2Proof

inductive Instr where
  /-- Adds the elements of two vector registers in each active lane and rounds once under GMODE. (R187) -/
  | vadd (s : BitVec 3) (d a b : BitVec 7)
  /-- Subtracts the elements of vB from those of vA in each active lane and rounds once. (R187) -/
  | vsub (s : BitVec 3) (d a b : BitVec 7)
  /-- Multiplies elements in each active lane and rounds once. (R187) -/
  | vmul (s : BitVec 3) (d a b : BitVec 7)
  /-- Writes the high half of the exact integer product in each active lane. (R186) -/
  | vmulh (s : BitVec 3) (d a b : BitVec 7)
  /-- Computes x × y + z with one rounding in each active lane. (R187) -/
  | vfma (s : BitVec 3) (d a b : BitVec 7)
  /-- Computes x × y − z with one rounding in each active lane. (R187) -/
  | vfms (s : BitVec 3) (d a b : BitVec 7)
  /-- Computes z − x × y with one rounding in each active lane. (R187) -/
  | vfnma (s : BitVec 3) (d a b : BitVec 7)
  /-- Divides elements and returns the correctly rounded quotient in each active lane. (R190) -/
  | vdiv (s : BitVec 3) (d a b : BitVec 7)
  /-- Writes the lesser element in each active lane, ordering −0 below +0. (R188) -/
  | vmin (s : BitVec 3) (d a b : BitVec 7)
  /-- Writes the greater element in each active lane, ordering −0 below +0. (R188) -/
  | vmax (s : BitVec 3) (d a b : BitVec 7)
  /-- Writes the magnitude of each element in each active lane. (R188) -/
  | vabs (s : BitVec 3) (d a : BitVec 7)
  /-- Writes the negation of each element in each active lane. (R188) -/
  | vneg (s : BitVec 3) (d a : BitVec 7)
  /-- Writes the correctly rounded reciprocal of each element. (R190) -/
  | vrcp (s : BitVec 3) (d a : BitVec 7)
  /-- Writes the correctly rounded square root of each element. (R190) -/
  | vsqrt (s : BitVec 3) (d a : BitVec 7)
  /-- Writes the correctly rounded reciprocal square root of each element. (R190) -/
  | vrsq (s : BitVec 3) (d a : BitVec 7)
  /-- Writes the RNE f32 sum and its exact error into a register pair in each active lane. (R192) -/
  | vtwosum (s : BitVec 3) (d a b : BitVec 7)
  /-- Writes the correctly rounded power of two of each element. (R190) -/
  | vexp2 (s : BitVec 3) (d a : BitVec 7)
  /-- Writes the correctly rounded base-2 logarithm of each element. (R190) -/
  | vlog2 (s : BitVec 3) (d a : BitVec 7)
  /-- Computes the counter-based mixer of vA and vB in each active lane. (R197) -/
  | vmix (s : BitVec 3) (d a b : BitVec 7)
  /-- Selects vB where the lane predicate holds, keeping vD elsewhere. (R195) -/
  | vsel (s : BitVec 3) (d : BitVec 7) (a : BitVec 3) (b : BitVec 7)
  /-- Copies vA to vD in each active lane. (R195) -/
  | vmov (s : BitVec 3) (d a : BitVec 7)
  /-- Broadcasts the low word of a group register into each active lane. (R195) -/
  | vbc (s : BitVec 3) (d : BitVec 7) (a : BitVec 6)
  /-- Broadcasts the high word of a group register into each active lane. (R195) -/
  | vbcHi (s : BitVec 3) (d : BitVec 7) (a : BitVec 6)
  /-- Reads one lane's value of vA into a group register, or 0 if that lane is inactive. (R196) -/
  | vlane (s : BitVec 3) (d : BitVec 6) (a : BitVec 7) (b : BitVec 6)
  /-- Bitwise and of two vector registers. (R193) -/
  | vand (s : BitVec 3) (d a b : BitVec 7)
  /-- Bitwise or of two vector registers. (R193) -/
  | vor (s : BitVec 3) (d a b : BitVec 7)
  /-- Bitwise exclusive or of two vector registers. (R193) -/
  | vxor (s : BitVec 3) (d a b : BitVec 7)
  /-- Bitwise complement of a vector register. (R193) -/
  | vnot (s : BitVec 3) (d a : BitVec 7)
  /-- Shifts each lane left, giving 0 for counts of 32 or more. (R193) -/
  | vshl (s : BitVec 3) (d a b : BitVec 7)
  /-- Shifts each lane right logically. (R193) -/
  | vshr (s : BitVec 3) (d a b : BitVec 7)
  /-- Shifts each lane right arithmetically. (R193) -/
  | vsar (s : BitVec 3) (d a b : BitVec 7)
  /-- Counts leading zero bits in each lane. (R193) -/
  | vclz (s : BitVec 3) (d a : BitVec 7)
  /-- Counts one bits in each lane. (R193) -/
  | vpop (s : BitVec 3) (d a : BitVec 7)
  /-- Sets a lane predicate where element 0 of vA equals that of vB. (R194) -/
  | vcmpEq (s d : BitVec 3) (a b : BitVec 7)
  /-- Sets a lane predicate where the elements differ or either is NaN. (R194) -/
  | vcmpNe (s d : BitVec 3) (a b : BitVec 7)
  /-- Sets a lane predicate where vA is less than vB. (R194) -/
  | vcmpLt (s d : BitVec 3) (a b : BitVec 7)
  /-- Sets a lane predicate where vA is at most vB. (R194) -/
  | vcmpLe (s d : BitVec 3) (a b : BitVec 7)
  /-- Sets a lane predicate where vA is greater than vB. (R194) -/
  | vcmpGt (s d : BitVec 3) (a b : BitVec 7)
  /-- Sets a lane predicate where vA is at least vB. (R194) -/
  | vcmpGe (s d : BitVec 3) (a b : BitVec 7)
  /-- Sets a lane predicate where either floating element is a NaN. (R194) -/
  | vcmpUn (s d : BitVec 3) (a b : BitVec 7)
  /-- Converts elements from TYPE to f32. (R198) -/
  | vcvtF32 (s : BitVec 3) (d a : BitVec 7)
  /-- Converts elements from TYPE to bf16. (R198) -/
  | vcvtBf16 (s : BitVec 3) (d a : BitVec 7)
  /-- Converts elements from TYPE to f16. (R198) -/
  | vcvtF16 (s : BitVec 3) (d a : BitVec 7)
  /-- Converts elements from TYPE to e4m3. (R198) -/
  | vcvtE4m3 (s : BitVec 3) (d a : BitVec 7)
  /-- Converts elements from TYPE to e5m2. (R198) -/
  | vcvtE5m2 (s : BitVec 3) (d a : BitVec 7)
  /-- Converts elements from TYPE to i8. (R198) -/
  | vcvtI8 (s : BitVec 3) (d a : BitVec 7)
  /-- Converts elements from TYPE to n8. (R198) -/
  | vcvtN8 (s : BitVec 3) (d a : BitVec 7)
  /-- Converts elements from TYPE to i32. (R198) -/
  | vcvtI32 (s : BitVec 3) (d a : BitVec 7)
  /-- Converts elements from TYPE to n32. (R198) -/
  | vcvtN32 (s : BitVec 3) (d a : BitVec 7)
  /-- Converts elements from TYPE to i16. (R198) -/
  | vcvtI16 (s : BitVec 3) (d a : BitVec 7)
  /-- Converts elements from TYPE to n16. (R198) -/
  | vcvtN16 (s : BitVec 3) (d a : BitVec 7)
  /-- Joins the low halves of two registers into one packed register. (R201) -/
  | vpack (s : BitVec 3) (d a b : BitVec 7)
  /-- Splits a packed register into two zero-extended halves. (R201) -/
  | vunpk (s : BitVec 3) (d a : BitVec 7)
  /-- Permutes lanes by per-lane source indices. (R203) -/
  | vperm (s : BitVec 3) (d a b : BitVec 7)
  /-- Reads from lane L xor s in each active lane. (R204) -/
  | vbfly (s : BitVec 3) (d a : BitVec 7) (b : BitVec 6)
  /-- Rotates lanes by a group-register distance. (R204) -/
  | vrot (s : BitVec 3) (d a : BitVec 7) (b : BitVec 6)
  /-- Broadcasts one lane's value to every active lane. (R204) -/
  | vbcl (s : BitVec 3) (d a : BitVec 7) (b : BitVec 6)
  /-- Sums the 32 lanes in the fixed tree into a group register. (R205) -/
  | vredAdd (s : BitVec 3) (d : BitVec 6) (a : BitVec 7)
  /-- Reduces the lanes by minimum in the fixed tree. (R205) -/
  | vredMin (s : BitVec 3) (d : BitVec 6) (a : BitVec 7)
  /-- Reduces the lanes by maximum in the fixed tree. (R205) -/
  | vredMax (s : BitVec 3) (d : BitVec 6) (a : BitVec 7)
  /-- Ands two lane predicates in each active lane. (R137) -/
  | pand (s d a b : BitVec 3)
  /-- Ors two lane predicates in each active lane. (R137) -/
  | por (s d a b : BitVec 3)
  /-- Exclusive-ors two lane predicates in each active lane. (R137) -/
  | pxor (s d a b : BitVec 3)
  /-- Complements a lane predicate in each active lane. (R137) -/
  | pnot (s d a : BitVec 3)
  /-- Sets a group predicate if any active lane's predicate holds. (R139) -/
  | qany (s d a : BitVec 3)
  /-- Sets a group predicate if every active lane's predicate holds. (R139) -/
  | qall (s d a : BitVec 3)
  /-- Writes the mask of active lanes whose predicate holds into a group register. (R139) -/
  | pballot (s : BitVec 3) (d : BitVec 6) (a : BitVec 3)
  /-- Sets a lane predicate from the bits of a group register in active lanes. (R139) -/
  | pmask (s d : BitVec 3) (a : BitVec 6)
  /-- Loads one byte per active lane, zero-extended. (R269) -/
  | ldB8 (s : BitVec 3) (d : BitVec 7) (a : BitVec 6) (b : BitVec 7)
  /-- Loads two bytes per active lane, zero-extended. (R269) -/
  | ldB16 (s : BitVec 3) (d : BitVec 7) (a : BitVec 6) (b : BitVec 7)
  /-- Loads a word per active lane. (R269) -/
  | ldB32 (s : BitVec 3) (d : BitVec 7) (a : BitVec 6) (b : BitVec 7)
  /-- Loads eight bytes per active lane into a register pair. (R269) -/
  | ldB64 (s : BitVec 3) (d : BitVec 7) (a : BitVec 6) (b : BitVec 7)
  /-- Loads sixteen bytes per active lane into a register quad. (R269) -/
  | ldB128 (s : BitVec 3) (d : BitVec 7) (a : BitVec 6) (b : BitVec 7)
  /-- Loads a word at the coherence point and demotes the split. (R272) -/
  | ldPollB32 (s : BitVec 3) (d : BitVec 7) (a : BitVec 6) (b : BitVec 7)
  /-- Loads eight bytes at the coherence point and demotes the split. (R272) -/
  | ldPollB64 (s : BitVec 3) (d : BitVec 7) (a : BitVec 6) (b : BitVec 7)
  /-- Loads eight bytes into a group register once for the split. (R273) -/
  | gld (s : BitVec 3) (d a b : BitVec 6)
  /-- Stores one byte per active lane. (R271) -/
  | stB8 (s : BitVec 3) (d : BitVec 7) (a : BitVec 6) (b : BitVec 7)
  /-- Stores two bytes per active lane. (R271) -/
  | stB16 (s : BitVec 3) (d : BitVec 7) (a : BitVec 6) (b : BitVec 7)
  /-- Stores a word per active lane. (R271) -/
  | stB32 (s : BitVec 3) (d : BitVec 7) (a : BitVec 6) (b : BitVec 7)
  /-- Stores a register pair per active lane. (R271) -/
  | stB64 (s : BitVec 3) (d : BitVec 7) (a : BitVec 6) (b : BitVec 7)
  /-- Stores a register quad per active lane. (R271) -/
  | stB128 (s : BitVec 3) (d : BitVec 7) (a : BitVec 6) (b : BitVec 7)
  /-- Stores a group register once for the split. (R273) -/
  | gst (s : BitVec 3) (d a b : BitVec 6)
  /-- Reads eight bytes per lane at the home agent, bypassing the caches. (R274) -/
  | ldSys (s : BitVec 3) (d : BitVec 7) (a : BitVec 6) (b : BitVec 7)
  /-- Writes eight bytes per lane at the home agent, bypassing the caches. (R274) -/
  | stSys (s : BitVec 3) (d : BitVec 7) (a : BitVec 6) (b : BitVec 7)
  /-- Atomically adds each lane's operand at its address and returns the old value. (R279) -/
  | atomAdd (s : BitVec 3) (w : BitVec 1) (r : BitVec 3) (v a : BitVec 4) (b : BitVec 7)
  /-- Atomically subtracts each lane's operand and returns the old value. (R279) -/
  | atomSub (s : BitVec 3) (w : BitVec 1) (r : BitVec 3) (v a : BitVec 4) (b : BitVec 7)
  /-- Atomic signed minimum returning the old value. (R279) -/
  | atomMin (s : BitVec 3) (w : BitVec 1) (r : BitVec 3) (v a : BitVec 4) (b : BitVec 7)
  /-- Atomic signed maximum returning the old value. (R279) -/
  | atomMax (s : BitVec 3) (w : BitVec 1) (r : BitVec 3) (v a : BitVec 4) (b : BitVec 7)
  /-- Atomic unsigned minimum returning the old value. (R279) -/
  | atomMinn (s : BitVec 3) (w : BitVec 1) (r : BitVec 3) (v a : BitVec 4) (b : BitVec 7)
  /-- Atomic unsigned maximum returning the old value. (R279) -/
  | atomMaxn (s : BitVec 3) (w : BitVec 1) (r : BitVec 3) (v a : BitVec 4) (b : BitVec 7)
  /-- Atomic bitwise and returning the old value. (R279) -/
  | atomAnd (s : BitVec 3) (w : BitVec 1) (r : BitVec 3) (v a : BitVec 4) (b : BitVec 7)
  /-- Atomic bitwise or returning the old value. (R279) -/
  | atomOr (s : BitVec 3) (w : BitVec 1) (r : BitVec 3) (v a : BitVec 4) (b : BitVec 7)
  /-- Atomic bitwise exclusive or returning the old value. (R279) -/
  | atomXor (s : BitVec 3) (w : BitVec 1) (r : BitVec 3) (v a : BitVec 4) (b : BitVec 7)
  /-- Atomically exchanges each lane's operand with memory. (R279) -/
  | atomExch (s : BitVec 3) (w : BitVec 1) (r : BitVec 3) (v a : BitVec 4) (b : BitVec 7)
  /-- Atomic bitwise compare-and-swap of 32 or 64 bits, demoting the split on failure. (R280) -/
  | atomCas (s : BitVec 3) (w : BitVec 1) (r : BitVec 3) (v a : BitVec 4) (b : BitVec 7)
  /-- Atomic f32 add rounded once RNE at the home, returning the old word. (R281) -/
  | atomfFaddF32 (s r : BitVec 3) (v a : BitVec 4) (b : BitVec 7)
  /-- Atomic add of two bf16 elements, each rounded once RNE. (R281) -/
  | atomfFaddBf16x2 (s r : BitVec 3) (v a : BitVec 4) (b : BitVec 7)
  /-- Atomic f32 minimum returning the old word. (R281) -/
  | atomfFminF32 (s r : BitVec 3) (v a : BitVec 4) (b : BitVec 7)
  /-- Atomic f32 maximum returning the old word. (R281) -/
  | atomfFmaxF32 (s r : BitVec 3) (v a : BitVec 4) (b : BitVec 7)
  /-- Atomic 128-bit compare-and-swap per active lane, demoting the split on failure. (R283) -/
  | cas128 (s r : BitVec 3) (v a : BitVec 4) (b : BitVec 7)
  /-- No-return atomic add. (R284) -/
  | redAdd (s : BitVec 3) (w : BitVec 1) (r : BitVec 3) (v a : BitVec 4) (b : BitVec 7)
  /-- No-return atomic subtract. (R284) -/
  | redSub (s : BitVec 3) (w : BitVec 1) (r : BitVec 3) (v a : BitVec 4) (b : BitVec 7)
  /-- No-return atomic signed minimum. (R284) -/
  | redMin (s : BitVec 3) (w : BitVec 1) (r : BitVec 3) (v a : BitVec 4) (b : BitVec 7)
  /-- No-return atomic signed maximum. (R284) -/
  | redMax (s : BitVec 3) (w : BitVec 1) (r : BitVec 3) (v a : BitVec 4) (b : BitVec 7)
  /-- No-return atomic unsigned minimum. (R284) -/
  | redMinn (s : BitVec 3) (w : BitVec 1) (r : BitVec 3) (v a : BitVec 4) (b : BitVec 7)
  /-- No-return atomic unsigned maximum. (R284) -/
  | redMaxn (s : BitVec 3) (w : BitVec 1) (r : BitVec 3) (v a : BitVec 4) (b : BitVec 7)
  /-- No-return atomic bitwise and. (R284) -/
  | redAnd (s : BitVec 3) (w : BitVec 1) (r : BitVec 3) (v a : BitVec 4) (b : BitVec 7)
  /-- No-return atomic bitwise or. (R284) -/
  | redOr (s : BitVec 3) (w : BitVec 1) (r : BitVec 3) (v a : BitVec 4) (b : BitVec 7)
  /-- No-return atomic bitwise exclusive or. (R284) -/
  | redXor (s : BitVec 3) (w : BitVec 1) (r : BitVec 3) (v a : BitVec 4) (b : BitVec 7)
  /-- No-return atomic f32 add. (R284) -/
  | redFaddF32 (s r : BitVec 3) (v a : BitVec 4) (b : BitVec 7)
  /-- No-return atomic bf16x2 add. (R284) -/
  | redFaddBf16x2 (s r : BitVec 3) (v a : BitVec 4) (b : BitVec 7)
  /-- No-return atomic f32 minimum. (R284) -/
  | redFminF32 (s r : BitVec 3) (v a : BitVec 4) (b : BitVec 7)
  /-- No-return atomic f32 maximum. (R284) -/
  | redFmaxF32 (s r : BitVec 3) (v a : BitVec 4) (b : BitVec 7)
  /-- Queues on copy 1 a fill shade composed onto a range of tiles. (R291) -/
  | sfil (s : BitVec 3) (d a b : BitVec 6)
  /-- Queues on copy 1 a scale shade composed onto a range of tiles. (R291) -/
  | sscl (s : BitVec 3) (d a b : BitVec 6)
  /-- Queues on copy 1 an offset shade composed onto a range of tiles. (R291) -/
  | soff (s : BitVec 3) (d a b : BitVec 6)
  /-- Queues on copy 1 a clamp shade composed onto a range of tiles. (R291) -/
  | sclp (s : BitVec 3) (d a b : BitVec 6)
  /-- Queues on copy 1 a permutation shade composed onto a range of tiles. (R292) -/
  | spmt (s : BitVec 3) (d a b : BitVec 6)
  /-- Queues on copy 1 the materialisation of a range of tiles. (R293) -/
  | smat (s : BitVec 3) (d a : BitVec 6)
  /-- Reads a tile's 32-byte header into four group registers. (R294) -/
  | shdr (s : BitVec 3) (d a : BitVec 6)
  /-- Writes an 8 × 8 block to a plain and a transposed copy under both tiles' locks. (R297) -/
  | pst (s : BitVec 3) (d : BitVec 7) (a b : BitVec 6)
  /-- Queues a matrix multiply-accumulate per active quarter into an accumulator block. (R303) -/
  | mma (s c : BitVec 3) (f : BitVec 4) (a b : BitVec 7)
  /-- Scales each active lane's accumulator row by a factor. (R305) -/
  | mscale (s c : BitVec 3) (a : BitVec 7)
  /-- Sets an accumulator block to +0. (R306) -/
  | mzero (s c : BitVec 3)
  /-- Sets an accumulator block to +0 and opens it to peer adds. (R306) -/
  | mzeroOpen (s c : BitVec 3)
  /-- Drains an accumulator block into vector registers with one rounding. (R308) -/
  | mdrain (s : BitVec 3) (d : BitVec 7) (t : BitVec 4) (c : BitVec 3) (b : BitVec 6)
  /-- Drains an accumulator block to memory as a drain-context command. (R310) -/
  | mdrs (s : BitVec 3) (d : BitVec 6) (t : BitVec 4) (c : BitVec 3)
  /-- Sends an accumulator block to be added into a peer group's open block. (R312) -/
  | mdrp (s : BitVec 3) (d : BitVec 6) (c : BitVec 3)
  /-- Loads a 1 KiB codebook slot for the team. (R313) -/
  | mcbk (s : BitVec 3) (n : BitVec 2) (a b : BitVec 6)
  /-- Copies a group register. (R131) -/
  | gmov (s : BitVec 3) (d a : BitVec 6)
  /-- Adds two group registers modulo 2^64. (R131) -/
  | gadd (s : BitVec 3) (d a b : BitVec 6)
  /-- Subtracts two group registers modulo 2^64. (R131) -/
  | gsub (s : BitVec 3) (d a b : BitVec 6)
  /-- Writes the low 64 bits of a group-register product. (R131) -/
  | gmul (s : BitVec 3) (d a b : BitVec 6)
  /-- Writes the high 64 bits of the signed product. (R131) -/
  | gmulh (s : BitVec 3) (d a b : BitVec 6)
  /-- Bitwise and of group registers. (R131) -/
  | gand (s : BitVec 3) (d a b : BitVec 6)
  /-- Bitwise or of group registers. (R131) -/
  | gor (s : BitVec 3) (d a b : BitVec 6)
  /-- Bitwise exclusive or of group registers. (R131) -/
  | gxor (s : BitVec 3) (d a b : BitVec 6)
  /-- Shifts a group register left. (R131) -/
  | gshl (s : BitVec 3) (d a b : BitVec 6)
  /-- Shifts a group register right logically. (R131) -/
  | gshr (s : BitVec 3) (d a b : BitVec 6)
  /-- Shifts a group register right arithmetically. (R131) -/
  | gsar (s : BitVec 3) (d a b : BitVec 6)
  /-- Signed minimum of group registers. (R131) -/
  | gmin (s : BitVec 3) (d a b : BitVec 6)
  /-- Signed maximum of group registers. (R131) -/
  | gmax (s : BitVec 3) (d a b : BitVec 6)
  /-- Unsigned minimum of group registers. (R131) -/
  | gminn (s : BitVec 3) (d a b : BitVec 6)
  /-- Unsigned maximum of group registers. (R131) -/
  | gmaxn (s : BitVec 3) (d a b : BitVec 6)
  /-- Writes gB or keeps gD according to a group predicate. (R132) -/
  | gsel (s : BitVec 3) (d : BitVec 6) (a : BitVec 3) (b : BitVec 6)
  /-- Counts leading zero bits of a group register. (R131) -/
  | gclz (s : BitVec 3) (d a : BitVec 6)
  /-- Counts one bits of a group register. (R131) -/
  | gpop (s : BitVec 3) (d a : BitVec 6)
  /-- Sets a group predicate on bitwise equality. (R133) -/
  | gcmpEq (s d : BitVec 3) (a b : BitVec 6)
  /-- Sets a group predicate on inequality. (R133) -/
  | gcmpNe (s d : BitVec 3) (a b : BitVec 6)
  /-- Sets a group predicate on signed less-than. (R133) -/
  | gcmpLt (s d : BitVec 3) (a b : BitVec 6)
  /-- Sets a group predicate on signed less-or-equal. (R133) -/
  | gcmpLe (s d : BitVec 3) (a b : BitVec 6)
  /-- Sets a group predicate on unsigned less-than. (R133) -/
  | gcmpLtn (s d : BitVec 3) (a b : BitVec 6)
  /-- Sets a group predicate on unsigned less-or-equal. (R133) -/
  | gcmpLen (s d : BitVec 3) (a b : BitVec 6)
  /-- Ands two group predicates. (R138) -/
  | qand (s d a b : BitVec 3)
  /-- Ors two group predicates. (R138) -/
  | qor (s d a b : BitVec 3)
  /-- Exclusive-ors two group predicates. (R138) -/
  | qxor (s d a b : BitVec 3)
  /-- Complements a group predicate. (R138) -/
  | qnot (s d a : BitVec 3)
  /-- Writes GMODE from a group register. (R135) -/
  | smode (s : BitVec 3) (a : BitVec 6)
  /-- Reads GMODE into a group register. (R135) -/
  | gmode (s : BitVec 3) (d : BitVec 6)
  /-- Loads a sign-extended 17-bit immediate into a group register. (R134) -/
  | gldi (s : BitVec 3) (d : BitVec 6) (k : BitVec 17)
  /-- Shifts a group register left 16 and inserts a 16-bit immediate. (R134) -/
  | gldh (s : BitVec 3) (d : BitVec 6) (k : BitVec 16)
  /-- Adds a sign-extended immediate to a group register. (R134) -/
  | gaddi (s : BitVec 3) (d : BitVec 6) (k : BitVec 17)
  /-- Sets GMODE from an immediate and returns the old GMODE. (R135) -/
  | smodi (s : BitVec 3) (d : BitVec 6) (z : BitVec 1) (k : BitVec 15)
  /-- Branches the whole split unconditionally. (R140) -/
  | br (s : BitVec 3) (f : BitVec 21)
  /-- Branches the whole split if a group predicate holds. (R140) -/
  | brq (s c : BitVec 3) (f : BitVec 21)
  /-- Pushes a return entry on the split's stack and jumps. (R144) -/
  | call (s : BitVec 3) (f : BitVec 20)
  /-- Sets the split's reconvergence point. (R142) -/
  | rcv (s : BitVec 3) (f : BitVec 20)
  /-- Divergent branch on a lane predicate that divides or serialises the split. (R115) -/
  | brd (s c : BitVec 3) (f : BitVec 21)
  /-- Queues a linear copy on a copy context. (R320) -/
  | cpy (s q : BitVec 3) (c : BitVec 1) (g : BitVec 6)
  /-- Queues a tensor copy described by a shape record. (R321) -/
  | cpyt (s q : BitVec 3) (c : BitVec 1) (g : BitVec 6)
  /-- Queues an index-list block copy into scratch. (R322) -/
  | cpyx (s q : BitVec 3) (c : BitVec 1) (g : BitVec 6) (v : BitVec 7)
  /-- Queues a multicast copy to several destinations. (R323) -/
  | cpym (s q : BitVec 3) (c : BitVec 1) (g : BitVec 6)
  /-- Queues a reducing copy combined into every destination. (R324) -/
  | cpyr (s q : BitVec 3) (c : BitVec 1) (g : BitVec 6)
  /-- Reads an engine context's timeline counter. (R325) -/
  | tlr (s : BitVec 3) (g : BitVec 6) (x : BitVec 2)
  /-- Waits until a timeline counter reaches a value and acquires the commands' writes. (R326) -/
  | tlw (s : BitVec 3) (g : BitVec 6) (x : BitVec 2)
  /-- Posts an all-reduce on the collective context. (R329) -/
  | collAr (s q : BitVec 3) (g : BitVec 6)
  /-- Posts a reduce-scatter on the collective context. (R329) -/
  | collRs (s q : BitVec 3) (g : BitVec 6)
  /-- Posts an all-gather on the collective context. (R329) -/
  | collAg (s q : BitVec 3) (g : BitVec 6)
  /-- Posts a sparse reduction of index-value pairs. (R330) -/
  | csred (s q : BitVec 3) (g : BitVec 6) (v : BitVec 7)
  /-- Sets the team's collective bucket priority for later commands. (R332) -/
  | cprio (s : BitVec 3) (g : BitVec 6)
  /-- Acquire, release or both at a scope for the split. (R398) -/
  | fence (s : BitVec 3) (k : BitVec 2) (e : BitVec 3)
  /-- Acquiring 8-byte load at group scope. (R401) -/
  | ldaGrp (s : BitVec 3) (d a b : BitVec 6)
  /-- Acquiring 8-byte load at team scope. (R401) -/
  | ldaTeam (s : BitVec 3) (d a b : BitVec 6)
  /-- Acquiring 8-byte load at cluster scope, with wick test. (R401) -/
  | ldaClu (s : BitVec 3) (d a b : BitVec 6)
  /-- Acquiring 8-byte load at die scope. (R401) -/
  | ldaDie (s : BitVec 3) (d a b : BitVec 6)
  /-- Acquiring 8-byte load at device scope. (R401) -/
  | ldaDev (s : BitVec 3) (d a b : BitVec 6)
  /-- Acquiring 8-byte load at system scope. (R401) -/
  | ldaSys (s : BitVec 3) (d a b : BitVec 6)
  /-- Drains and invalidates a victim core's L1 and acquires at device scope. (R404) -/
  | acqr (s : BitVec 3) (g h : BitVec 6)
  /-- Releasing 8-byte store at group scope. (R401) -/
  | stlGrp (s : BitVec 3) (d a b : BitVec 6)
  /-- Releasing 8-byte store at team scope. (R401) -/
  | stlTeam (s : BitVec 3) (d a b : BitVec 6)
  /-- Releasing 8-byte store at cluster scope, recording the wick. (R401) -/
  | stlClu (s : BitVec 3) (d a b : BitVec 6)
  /-- Releasing 8-byte store at die scope. (R401) -/
  | stlDie (s : BitVec 3) (d a b : BitVec 6)
  /-- Releasing 8-byte store at device scope. (R401) -/
  | stlDev (s : BitVec 3) (d a b : BitVec 6)
  /-- Releasing 8-byte store at system scope, eager. (R401) -/
  | stlSys (s : BitVec 3) (d a b : BitVec 6)
  /-- Arrives at a barrier and waits for the phase. (R406) -/
  | bar (s : BitVec 3) (l : BitVec 2) (n : BitVec 4)
  /-- Arrives at a barrier without waiting, setting the target phase. (R408) -/
  | bara (s : BitVec 3) (l : BitVec 2) (n : BitVec 4)
  /-- Waits for the member's target phase and acquires. (R409) -/
  | barw (s : BitVec 3) (l : BitVec 2) (n : BitVec 4)
  /-- Sets a team barrier's count mode or returns it to membership mode. (R410) -/
  | barc (s : BitVec 3) (n : BitVec 4) (g : BitVec 6)
  /-- Sets or clears a tile's READY mark, releasing its payload. (R413) -/
  | trdy (s : BitVec 3) (g : BitVec 6)
  /-- Waits for a tile's READY mark and acquires its payload. (R414) -/
  | twt (s : BitVec 3) (g : BitVec 6)
  /-- Sends a snuff token to the command processor. (R415) -/
  | snuff (s : BitVec 3) (g : BitVec 6)
  /-- Reads the group's logical clock. (R417) -/
  | dclk (s : BitVec 3) (g : BitVec 6)
  /-- Stops the group until the serial phase in deterministic mode. (R418) -/
  | dsync (s : BitVec 3)
  /-- Reads the group's replica signature. (R420) -/
  | rsig (s : BitVec 3) (g : BitVec 6)
  /-- Makes a forced replica compare and checkpoint. (R421) -/
  | rchk (s : BitVec 3)
  /-- Does nothing beyond its stall count. (R146) -/
  | nop (s : BitVec 3)
  /-- Ends the split's lanes, popping one stack entry if any remains. (R145) -/
  | exit (s : BitVec 3)
  /-- Pops a call entry and returns. (R144) -/
  | ret (s : BitVec 3)
  /-- Jumps to the address in a group register. (R144) -/
  | jmpg (s : BitVec 3) (g : BitVec 6)
  /-- Demotes the split so that its siblings issue first. (R146) -/
  | pdem (s : BitVec 3)
  /-- Resets the safe-point distance and stops if a stop request is pending. (R147) -/
  | safe (s : BitVec 3) (i : BitVec 12)
  /-- Raises the software trap with a number. (R156) -/
  | trap (s : BitVec 3) (n : BitVec 8)
  /-- Returns from a handler to TRAPPC and unfreezes siblings. (R157) -/
  | tret (s : BitVec 3)
  /-- Reads a special register into a vector or group register. (R158) -/
  | rdsp (s : BitVec 3) (d : BitVec 7) (r : BitVec 6)
  /-- Writes TRAPPC inside a handler. (R159) -/
  | wrsp (s : BitVec 3) (d : BitVec 7) (r : BitVec 6)
  /-- Places one thread per active lane into the core's bins. (R150) -/
  | spawn (s : BitVec 3) (k : BitVec 4) (f : BitVec 15)
  /-- Starts a group from every non-empty bin of the team. (R151) -/
  | bflush (s : BitVec 3)
  /-- Releases and submits a launch record to the grid's queue. (R153) -/
  | launch (s : BitVec 3) (g : BitVec 6)
  /-- Sets the group's role. (R155) -/
  | role (s : BitVec 3) (r : BitVec 2)
  /-- Host write of a queue's QCTL that enables, disables or reconfigures it. (R43) -/
  | qctlWrite (q : Nat) (v : BitVec 32)
  /-- Host write of a queue's ring base, discarded while the queue is enabled. (R42) -/
  | qbaseWrite (q : Nat) (v : BitVec 64)
  /-- Host doorbell write that advances a queue's tail or is discarded. (R43) -/
  | qtailDoorbell (q : Nat) (v : BitVec 32)
  /-- Host write-1-to-clear of QSTAT bits; clearing RING retries the ring read. (R477) -/
  | qstatClear (q : Nat) (v : BitVec 32)
  /-- Host write to a BAR0 register without its own row, such as ASIDTAB. (R459) -/
  | registerWrite (off : Nat) (v : BitVec 64)
  /-- The command processor checks a kernel image that software loads: its address, and from bit 64 on its length. (R28) -/
  | imageLoad (asid place : Nat)
  /-- The command processor reads and numbers the next launch record of a queue. (R44) -/
  | recordRead
  /-- Among ready launches the command processor takes the one of highest effective priority. (R53) -/
  | launchArbitration
  /-- A launch's age reaches 64 and its effective priority rises by one. (R54) -/
  | launchAgeRise (grid : Nat)
  /-- Makes a grid's pages resident, flips ownership and installs translations. (R56) -/
  | leaseInstall (grid : Nat)
  /-- Firmware admits a cluster onto a rectangle of cores once room and tile gates allow. (R60) -/
  | clusterAdmit (grid : Nat) (places : List Nat)
  /-- Firmware requests a cluster to stop at its next safe points. (R444) -/
  | preemptRequest (cluster : Nat) (park : Bool)
  /-- A cluster that has not stood within 2^20 cycles has its stop request withdrawn. (R444) -/
  | preemptWithdraw (cluster : Nat)
  /-- A standing cluster drains, writes back, saves its context and frees its cores. (R446) -/
  | clusterPreempt (cluster area : Nat)
  /-- A standing cluster's live registers and scratch are written to the park area. (R65) -/
  | clusterPark (cluster area : Nat)
  /-- A parked cluster is restored on the same cores. (R66) -/
  | clusterUnpark (cluster : Nat)
  /-- A pre-empted cluster is restored from its save area on any rectangle. (R446) -/
  | clusterResume (cluster place : Nat)
  /-- A bin's timer reaches 0 and the bin starts a group of its threads. (R71) -/
  | binTimerExpiry (core bin : Nat)
  /-- A bin's waiting group starts when a team group exits or room frees. (R69) -/
  | binGroupStart (core bin : Nat)
  /-- A spawn waiting for a bin resumes placing threads when a bin frees. (R70) -/
  | spawnResume (group slot : Nat)
  /-- A cluster ends once its teams and engine commands are done and frees its cores. (R455) -/
  | clusterEnd (cluster : Nat)
  /-- A grid retires: commit, write-out, lease release, completion record and QDONE. (R456) -/
  | gridRetire (grid : Nat)
  /-- A memory test fails after issue; later instructions are cancelled and the trap is delivered. (R439) -/
  | deferredFault (group slot : Nat) (tseq : BitVec 32) (cls : Nat) (adda addb : BitVec 56)
  /-- A non-finite trap reaches the command processor, which ends the grid and snuffs its token. (R449) -/
  | nonFiniteTrap (group : Nat)
  /-- A split's distance count reaches 4,096 and raises the safe-point-distance trap. (R443) -/
  | safePointDistance (group slot : Nat)
  /-- A ready split's age reaches 192 and it becomes urgent. (R112) -/
  | splitUrgent (group slot : Nat)
  /-- A load, atomic or other variable-latency result returns and clears the scoreboard. (R89) -/
  | variableLatencyResult (group : Nat) (tseq : BitVec 32)
  /-- A rejected line request is retried by the load/store unit. (R220) -/
  | mshrRetry (core idx : Nat)
  /-- A request's age reaches 64 and it may take a reserved miss-status entry. (R220) -/
  | mshrAged (core idx : Nat)
  /-- The matrix engine accepts the next queued matrix command and applies it. (R253) -/
  | matrixEngineAccept (core : Nat)
  /-- A held engine command's guard resolves and it starts or is discarded. (R128) -/
  | guardResolve (team ctx : Nat)
  /-- An engine command at its queue head starts and takes range-scoreboard entries. (R239) -/
  | engineCommandStart (team ctx : Nat)
  /-- An engine command completes, advancing the timeline and counting barrier arrivals. (R239) -/
  | engineCommandComplete (team ctx num : Nat)
  /-- At a 64 KiB chunk boundary a lower-value transfer suspends the running one. (R260) -/
  | collectiveChunkBoundary (die : Nat)
  /-- An element sent by mdrp arrives and is added into the target block. (R255) -/
  | peerAdd (idx : Nat)
  /-- A fill request for a load reaches a line's home directory. (R360) -/
  | read (agent line : Nat)
  /-- A fill or upgrade request for a store reaches a line's home directory. (R360) -/
  | own (agent line : Nat) (mask : BitVec 128) (bytes : BitVec 1024)
  /-- A write performed at the home slice invalidates holders and is performed. (R360) -/
  | homeWrite (line : Nat) (mask : BitVec 128) (bytes : BitVec 1024)
  /-- A P holder accesses bytes outside its claim at the home. (R363) -/
  | claimAccess (agent line : Nat) (mask : BitVec 128)
  /-- A forward from the home reaches the E or M holder. (R361) -/
  | fwd (line : Nat)
  /-- The holder's data reaches the requester. (R361) -/
  | fwdData (line : Nat)
  /-- Written-back data reaches the home and clears BUSY. (R361) -/
  | wbData (line : Nat)
  /-- An invalidation reaches a holder of a line. (R360) -/
  | inv (agent line : Nat)
  /-- A holder's acknowledgement or clean notice reaches the home. (R360) -/
  | invAck (agent line : Nat)
  /-- A back-invalidation reaches an agent, which invalidates or writes back. (R365) -/
  | binv (agent line : Nat)
  /-- A wick demand reaches a core, which writes back lines tagged at or before the epoch. (R348) -/
  | demand (line : Nat)
  /-- A demand's acknowledgement reaches the home, which sets DR. (R348) -/
  | demandAck (line : Nat)
  /-- The epoch counter passes a multiple of 2^18 and the core writes back its tagged lines. (R347) -/
  | epochWriteback (core : Nat)
  /-- An L1 drops a tiled-page line held for 65,535 mesh cycles. (R231) -/
  | tiledLineDrop (core line : Nat)
  /-- A host access faults on an unleased device-owned page and the page flips to the host. (R218) -/
  | pageFlipToHost (asid va : Nat)
  /-- A hardware error during a paired store marks both tiles torn. (R236) -/
  | pairTorn (group va vb : Nat)
  /-- A host SnpData is answered from the die L2s with data, leaving S. (R367) -/
  | snpData (line : Nat)
  /-- A host SnpInv is answered with data if dirty and invalidates. (R367) -/
  | snpInv (line : Nat)
  /-- A host SnpCur is answered with current data without change. (R367) -/
  | snpCur (line : Nat)
  /-- A host CXL.mem read of device memory is served at the home slice. (R367) -/
  | memRd (pa : Nat)
  /-- A host CXL.mem write of device memory is served at the home slice. (R367) -/
  | memWr (pa : Nat) (mask : BitVec 128) (bytes : BitVec 1024)
  /-- A host PCIe AtomicOp to device memory is performed at the home slice. (R458) -/
  | hostAtomicop (op pa bytes x y : Nat)
  /-- A host read or write through the BAR2 window is served at the home slice. (R458) -/
  | hostBar2Access (isWrite : Bool) (pa bytes x : Nat)
  /-- The completion of a device AtomicOp to host memory returns. (R472) -/
  | atomicopCompletion (group : Nat) (tseq : BitVec 32) (ok : Bool)
  /-- A partner's signature arrives over the replica wires and the compare is decided. (R381) -/
  | replicaSig (group : Nat)
  /-- A replica waits 2^24 cycles for partner signatures and counts a mismatch. (R382) -/
  | compareTimeout (group : Nat)
  /-- Replica operands for an exactly-once operation arrive and the leader performs it. (R386) -/
  | rendezvousOperands (group : Nat)
  /-- A replica waits 2^24 cycles at a rendezvous and counts a mismatch. (R386) -/
  | rendezvousTimeout (group : Nat)
  /-- A follower waits 2^24 cycles for a forwarded lda value and counts a mismatch. (R403) -/
  | ldaForwardTimeout (group : Nat)
  /-- A leader's write-back notice turns a follower's shadow line clean. (R377) -/
  | replicaNotice (core line : Nat)
  /-- A group's logical clock reaches the end of its period and the group stops. (R393) -/
  | periodEnd (group : Nat)
  /-- With every group stopped or waiting, buffers commit and PERIOD advances. (R393) -/
  | serialPhase (grid : Nat)
  /-- Before its next admission the command processor cancels every launch with the token. (R415) -/
  | snuffCancel (token : BitVec 32)
  /-- Lamplighter finds a die failed, ends its grids, poisons requests and sets wicks. (R369) -/
  | dieFailure (die : Nat)
  /-- A peer module becomes unreachable and accesses to it complete poisoned. (R462) -/
  | peerUnreachable (peer : Nat)
  /-- A page frame is retired after ECC errors and logged. (R466) -/
  | pageRetire (pa errors : Nat)
  /-- A sensor crosses its limit and Lamplighter steps the clock or shuts down. (R463) -/
  | sensorLimit (sensor die : Nat)
  /-- Coolant flow below rating for 2 s causes a shutdown. (R463) -/
  | coolantFlowTimeout
  /-- Reset starts bring-up from the active firmware slot. (R468) -/
  | reset
  /-- Training of dies and stacks completes and the service level changes. (R468) -/
  | dieTrainingComplete (trained : BitVec 4)
  /-- A firmware bundle is checked and written into the inactive slot as pending. (R467) -/
  | firmwareUpdate (signed : Bool) (version : Nat)
  /-- A pending slot fails to reach reduced service within 60 s and Lamplighter resets from the other slot. (R467) -/
  | firmwareFallback
  /-- A word that matches no allocated encoding, such as a reserved major, is decoded and raises the precise illegal-instruction trap. (R105) -/
  | illegalInstruction (w : BitVec 32)
  /-- An instruction fetch for a split's program counter returns its word, or faults with a lease violation when no code page holds the address. (R141) -/
  | instructionFetch (group slot : Nat)
  /-- The home's Data response reaches the requesting agent, which takes the line in the granted state and completes its fill or merge. (R360) -/
  | data (agent line : Nat)
  /-- A forwarded rendezvous result, lda value or held-write performed report from the leader arrives at a follower over the replica wires. (R386) -/
  | replicaResult (group : Nat)
  deriving DecidableEq, Repr

end Sys2Proof
end

