-- ==== Sys2Proof/WellFormed.lean ====
section
/-! DEFINITION. Which instructions some word can hold: the limits that R81 to R105 and the entries put on the fields of a
word, apart from the kernel's `.regs` count (R81), which `Instr.inRegs` of Operands.lean tests when a word is issued. -/

namespace Sys2Proof

/-- Alignment of the operand block of an integer atomic (R100). -/
def atomAligned (w : BitVec 1) (v : BitVec 4) : Bool := w == 0 || v.toNat % 2 == 0
/-- Alignment of the operand block of a compare-and-swap (R100). -/
def casAligned (w : BitVec 1) (v : BitVec 4) : Bool := if w == 0 then v.toNat % 2 == 0 else v.toNat % 4 == 0
/-- The target types of a drain (R301). -/
def drainType (t : BitVec 4) : Bool := decide (t.toNat ≤ 5) || t.toNat == 8
/-- The barrier numbers of each level (R104). -/
def barrierNumber (l : BitVec 2) (n : BitVec 4) : Bool :=
  match l.toNat with
  | 0 => n.toNat == 0
  | 1 => true
  | 2 => decide (n.toNat ≤ 7)
  | _ => decide (n.toNat ≤ 3)
/-- The special-register numbers that R21 assigns. -/
def spAssigned (r : BitVec 6) : Bool := decide (r.toNat ≤ 0x0D) || (decide (0x10 ≤ r.toNat) && decide (r.toNat ≤ 0x15))
/-- LANE and QUARTER are read into a vector register (R21). -/
def spVector (r : BitVec 6) : Bool := decide (r.toNat ≤ 1)

/-- Does some word hold this instruction? The steps without a word are well formed as they stand. -/
def Instr.wf : Instr → Bool
  | .vadd s d a b => !(s == 0 && d == 0 && a == 0 && b == 0)
  | .vsub _ _ _ _ => true
  | .vmul _ _ _ _ => true
  | .vmulh _ _ _ _ => true
  | .vfma _ _ _ _ => true
  | .vfms _ _ _ _ => true
  | .vfnma _ _ _ _ => true
  | .vdiv _ _ _ _ => true
  | .vmin _ _ _ _ => true
  | .vmax _ _ _ _ => true
  | .vabs _ _ _ => true
  | .vneg _ _ _ => true
  | .vrcp _ _ _ => true
  | .vsqrt _ _ _ => true
  | .vrsq _ _ _ => true
  | .vtwosum _ d _ _ => d.toNat + 1 < 128
  | .vexp2 _ _ _ => true
  | .vlog2 _ _ _ => true
  | .vmix _ _ _ _ => true
  | .vsel _ _ _ _ => true
  | .vmov _ _ _ => true
  | .vbc _ _ _ => true
  | .vbcHi _ _ _ => true
  | .vlane _ _ _ _ => true
  | .vand _ _ _ _ => true
  | .vor _ _ _ _ => true
  | .vxor _ _ _ _ => true
  | .vnot _ _ _ => true
  | .vshl _ _ _ _ => true
  | .vshr _ _ _ _ => true
  | .vsar _ _ _ _ => true
  | .vclz _ _ _ => true
  | .vpop _ _ _ => true
  | .vcmpEq _ _ _ _ => true
  | .vcmpNe _ _ _ _ => true
  | .vcmpLt _ _ _ _ => true
  | .vcmpLe _ _ _ _ => true
  | .vcmpGt _ _ _ _ => true
  | .vcmpGe _ _ _ _ => true
  | .vcmpUn _ _ _ _ => true
  | .vcvtF32 _ _ _ => true
  | .vcvtBf16 _ _ _ => true
  | .vcvtF16 _ _ _ => true
  | .vcvtE4m3 _ _ _ => true
  | .vcvtE5m2 _ _ _ => true
  | .vcvtI8 _ _ _ => true
  | .vcvtN8 _ _ _ => true
  | .vcvtI32 _ _ _ => true
  | .vcvtN32 _ _ _ => true
  | .vcvtI16 _ _ _ => true
  | .vcvtN16 _ _ _ => true
  | .vpack _ _ _ _ => true
  | .vunpk _ d _ => d.toNat + 1 < 128
  | .vperm _ _ _ _ => true
  | .vbfly _ _ _ _ => true
  | .vrot _ _ _ _ => true
  | .vbcl _ _ _ _ => true
  | .vredAdd _ _ _ => true
  | .vredMin _ _ _ => true
  | .vredMax _ _ _ => true
  | .pand _ _ _ _ => true
  | .por _ _ _ _ => true
  | .pxor _ _ _ _ => true
  | .pnot _ _ _ => true
  | .qany _ _ _ => true
  | .qall _ _ _ => true
  | .pballot _ _ _ => true
  | .pmask _ _ _ => true
  | .ldB8 _ _ _ _ => true
  | .ldB16 _ _ _ _ => true
  | .ldB32 _ _ _ _ => true
  | .ldB64 _ d _ _ => d.toNat % 2 == 0
  | .ldB128 _ d _ _ => d.toNat % 4 == 0
  | .ldPollB32 _ _ _ _ => true
  | .ldPollB64 _ d _ _ => d.toNat % 2 == 0
  | .gld _ _ _ _ => true
  | .stB8 _ _ _ _ => true
  | .stB16 _ _ _ _ => true
  | .stB32 _ _ _ _ => true
  | .stB64 _ d _ _ => d.toNat % 2 == 0
  | .stB128 _ d _ _ => d.toNat % 4 == 0
  | .gst _ _ _ _ => true
  | .ldSys _ d _ _ => d.toNat % 2 == 0
  | .stSys _ d _ _ => d.toNat % 2 == 0
  | .atomAdd _ w r v _ _ => r.toNat != 7 && atomAligned w v
  | .atomSub _ w r v _ _ => r.toNat != 7 && atomAligned w v
  | .atomMin _ w r v _ _ => r.toNat != 7 && atomAligned w v
  | .atomMax _ w r v _ _ => r.toNat != 7 && atomAligned w v
  | .atomMinn _ w r v _ _ => r.toNat != 7 && atomAligned w v
  | .atomMaxn _ w r v _ _ => r.toNat != 7 && atomAligned w v
  | .atomAnd _ w r v _ _ => r.toNat != 7 && atomAligned w v
  | .atomOr _ w r v _ _ => r.toNat != 7 && atomAligned w v
  | .atomXor _ w r v _ _ => r.toNat != 7 && atomAligned w v
  | .atomExch _ w r v _ _ => r.toNat != 7 && atomAligned w v
  | .atomCas _ w r v _ _ => r.toNat != 7 && casAligned w v
  | .atomfFaddF32 _ r _ _ _ => r.toNat != 7
  | .atomfFaddBf16x2 _ r _ _ _ => r.toNat != 7
  | .atomfFminF32 _ r _ _ _ => r.toNat != 7
  | .atomfFmaxF32 _ r _ _ _ => r.toNat != 7
  | .cas128 _ r v _ _ => r.toNat != 7 && v.toNat % 8 == 0
  | .redAdd _ w r v _ _ => r.toNat % 2 == 0 && atomAligned w v
  | .redSub _ w r v _ _ => r.toNat % 2 == 0 && atomAligned w v
  | .redMin _ w r v _ _ => r.toNat % 2 == 0 && atomAligned w v
  | .redMax _ w r v _ _ => r.toNat % 2 == 0 && atomAligned w v
  | .redMinn _ w r v _ _ => r.toNat % 2 == 0 && atomAligned w v
  | .redMaxn _ w r v _ _ => r.toNat % 2 == 0 && atomAligned w v
  | .redAnd _ w r v _ _ => r.toNat % 2 == 0 && atomAligned w v
  | .redOr _ w r v _ _ => r.toNat % 2 == 0 && atomAligned w v
  | .redXor _ w r v _ _ => r.toNat % 2 == 0 && atomAligned w v
  | .redFaddF32 _ r _ _ _ => r.toNat % 2 == 0
  | .redFaddBf16x2 _ r _ _ _ => r.toNat % 2 == 0
  | .redFminF32 _ r _ _ _ => r.toNat % 2 == 0
  | .redFmaxF32 _ r _ _ _ => r.toNat % 2 == 0
  | .sfil _ _ _ _ => true
  | .sscl _ _ _ _ => true
  | .soff _ _ _ _ => true
  | .sclp _ _ _ _ => true
  | .spmt _ _ _ b => b.toNat < 63
  | .smat _ _ _ => true
  | .shdr _ d _ => d.toNat < 61
  | .pst _ _ _ b => b.toNat < 63
  | .mma _ _ _ _ _ => true
  | .mscale _ _ _ => true
  | .mzero _ _ => true
  | .mzeroOpen _ _ => true
  | .mdrain _ d t _ b => drainType t && d.toNat % 8 == 0 && b.toNat < 63
  | .mdrs _ d t _ => drainType t && d.toNat < 61
  | .mdrp _ _ _ => true
  | .mcbk _ _ _ _ => true
  | .gmov _ _ _ => true
  | .gadd _ _ _ _ => true
  | .gsub _ _ _ _ => true
  | .gmul _ _ _ _ => true
  | .gmulh _ _ _ _ => true
  | .gand _ _ _ _ => true
  | .gor _ _ _ _ => true
  | .gxor _ _ _ _ => true
  | .gshl _ _ _ _ => true
  | .gshr _ _ _ _ => true
  | .gsar _ _ _ _ => true
  | .gmin _ _ _ _ => true
  | .gmax _ _ _ _ => true
  | .gminn _ _ _ _ => true
  | .gmaxn _ _ _ _ => true
  | .gsel _ _ _ _ => true
  | .gclz _ _ _ => true
  | .gpop _ _ _ => true
  | .gcmpEq _ _ _ _ => true
  | .gcmpNe _ _ _ _ => true
  | .gcmpLt _ _ _ _ => true
  | .gcmpLe _ _ _ _ => true
  | .gcmpLtn _ _ _ _ => true
  | .gcmpLen _ _ _ _ => true
  | .qand _ _ _ _ => true
  | .qor _ _ _ _ => true
  | .qxor _ _ _ _ => true
  | .qnot _ _ _ => true
  | .smode _ _ => true
  | .gmode _ _ => true
  | .gldi _ _ _ => true
  | .gldh _ _ _ => true
  | .gaddi _ _ _ => true
  | .smodi _ _ _ _ => true
  | .br _ _ => true
  | .brq _ c _ => c.toNat != 0
  | .call _ _ => true
  | .rcv _ _ => true
  | .brd _ c _ => c.toNat != 0
  | .cpy _ _ _ g => g.toNat < 62
  | .cpyt _ _ _ g => g.toNat < 61
  | .cpyx _ _ _ g _ => g.toNat < 61
  | .cpym _ _ _ g => g.toNat < 62
  | .cpyr _ _ _ g => g.toNat < 62
  | .tlr _ _ _ => true
  | .tlw _ _ _ => true
  | .collAr _ _ g => g.toNat < 61
  | .collRs _ _ g => g.toNat < 61
  | .collAg _ _ g => g.toNat < 61
  | .csred _ _ g _ => g.toNat < 61
  | .cprio _ _ => true
  | .fence _ k e => k.toNat != 0 && e.toNat < 6
  | .ldaGrp _ _ _ _ => true
  | .ldaTeam _ _ _ _ => true
  | .ldaClu _ _ _ _ => true
  | .ldaDie _ _ _ _ => true
  | .ldaDev _ _ _ _ => true
  | .ldaSys _ _ _ _ => true
  | .acqr _ _ _ => true
  | .stlGrp _ _ _ _ => true
  | .stlTeam _ _ _ _ => true
  | .stlClu _ _ _ _ => true
  | .stlDie _ _ _ _ => true
  | .stlDev _ _ _ _ => true
  | .stlSys _ _ _ _ => true
  | .bar _ l n => barrierNumber l n
  | .bara _ l n => barrierNumber l n
  | .barw _ l n => barrierNumber l n
  | .barc _ _ _ => true
  | .trdy _ _ => true
  | .twt _ _ => true
  | .snuff _ _ => true
  | .dclk _ _ => true
  | .dsync _ => true
  | .rsig _ _ => true
  | .rchk _ => true
  | .nop _ => true
  | .exit _ => true
  | .ret _ => true
  | .jmpg _ _ => true
  | .pdem _ => true
  | .safe _ _ => true
  | .trap _ _ => true
  | .tret _ => true
  | .rdsp _ d r => spAssigned r && (spVector r || decide (d.toNat < 64))
  | .wrsp _ d r => spAssigned r && (spVector r || decide (d.toNat < 64))
  | .spawn _ _ _ => true
  | .bflush _ => true
  | .launch _ _ => true
  | .role _ _ => true
  | .qctlWrite _ _ => true
  | .qbaseWrite _ _ => true
  | .qtailDoorbell _ _ => true
  | .qstatClear _ _ => true
  | .registerWrite _ _ => true
  | .imageLoad _ _ => true
  | .recordRead => true
  | .launchArbitration => true
  | .launchAgeRise _ => true
  | .leaseInstall _ => true
  | .clusterAdmit _ _ => true
  | .preemptRequest _ _ => true
  | .preemptWithdraw _ => true
  | .clusterPreempt _ _ => true
  | .clusterPark _ _ => true
  | .clusterUnpark _ => true
  | .clusterResume _ _ => true
  | .binTimerExpiry _ _ => true
  | .binGroupStart _ _ => true
  | .spawnResume _ _ => true
  | .clusterEnd _ => true
  | .gridRetire _ => true
  | .deferredFault _ _ _ _ _ _ => true
  | .nonFiniteTrap _ => true
  | .safePointDistance _ _ => true
  | .splitUrgent _ _ => true
  | .variableLatencyResult _ _ => true
  | .mshrRetry _ _ => true
  | .mshrAged _ _ => true
  | .matrixEngineAccept _ => true
  | .guardResolve _ _ => true
  | .engineCommandStart _ _ => true
  | .engineCommandComplete _ _ _ => true
  | .collectiveChunkBoundary _ => true
  | .peerAdd _ => true
  | .read _ _ => true
  | .own _ _ _ _ => true
  | .homeWrite _ _ _ => true
  | .claimAccess _ _ _ => true
  | .fwd _ => true
  | .fwdData _ => true
  | .wbData _ => true
  | .inv _ _ => true
  | .invAck _ _ => true
  | .binv _ _ => true
  | .demand _ => true
  | .demandAck _ => true
  | .epochWriteback _ => true
  | .tiledLineDrop _ _ => true
  | .pageFlipToHost _ _ => true
  | .pairTorn _ _ _ => true
  | .snpData _ => true
  | .snpInv _ => true
  | .snpCur _ => true
  | .memRd _ => true
  | .memWr _ _ _ => true
  | .hostAtomicop _ _ _ _ _ => true
  | .hostBar2Access _ _ _ _ => true
  | .atomicopCompletion _ _ _ => true
  | .replicaSig _ => true
  | .compareTimeout _ => true
  | .rendezvousOperands _ => true
  | .rendezvousTimeout _ => true
  | .ldaForwardTimeout _ => true
  | .replicaNotice _ _ => true
  | .periodEnd _ => true
  | .serialPhase _ => true
  | .snuffCancel _ => true
  | .dieFailure _ => true
  | .peerUnreachable _ => true
  | .pageRetire _ _ => true
  | .sensorLimit _ _ => true
  | .coolantFlowTimeout => true
  | .reset => true
  | .dieTrainingComplete _ => true
  | .firmwareUpdate _ _ => true
  | .firmwareFallback => true
  | .illegalInstruction _ => true
  | .instructionFetch _ _ => true
  | .data _ _ => true
  | .replicaResult _ => true

/-- Is this a step that a word encodes (R79)? -/
def Instr.coded : Instr → Bool
  | .vadd _ _ _ _ => true
  | .vsub _ _ _ _ => true
  | .vmul _ _ _ _ => true
  | .vmulh _ _ _ _ => true
  | .vfma _ _ _ _ => true
  | .vfms _ _ _ _ => true
  | .vfnma _ _ _ _ => true
  | .vdiv _ _ _ _ => true
  | .vmin _ _ _ _ => true
  | .vmax _ _ _ _ => true
  | .vabs _ _ _ => true
  | .vneg _ _ _ => true
  | .vrcp _ _ _ => true
  | .vsqrt _ _ _ => true
  | .vrsq _ _ _ => true
  | .vtwosum _ _ _ _ => true
  | .vexp2 _ _ _ => true
  | .vlog2 _ _ _ => true
  | .vmix _ _ _ _ => true
  | .vsel _ _ _ _ => true
  | .vmov _ _ _ => true
  | .vbc _ _ _ => true
  | .vbcHi _ _ _ => true
  | .vlane _ _ _ _ => true
  | .vand _ _ _ _ => true
  | .vor _ _ _ _ => true
  | .vxor _ _ _ _ => true
  | .vnot _ _ _ => true
  | .vshl _ _ _ _ => true
  | .vshr _ _ _ _ => true
  | .vsar _ _ _ _ => true
  | .vclz _ _ _ => true
  | .vpop _ _ _ => true
  | .vcmpEq _ _ _ _ => true
  | .vcmpNe _ _ _ _ => true
  | .vcmpLt _ _ _ _ => true
  | .vcmpLe _ _ _ _ => true
  | .vcmpGt _ _ _ _ => true
  | .vcmpGe _ _ _ _ => true
  | .vcmpUn _ _ _ _ => true
  | .vcvtF32 _ _ _ => true
  | .vcvtBf16 _ _ _ => true
  | .vcvtF16 _ _ _ => true
  | .vcvtE4m3 _ _ _ => true
  | .vcvtE5m2 _ _ _ => true
  | .vcvtI8 _ _ _ => true
  | .vcvtN8 _ _ _ => true
  | .vcvtI32 _ _ _ => true
  | .vcvtN32 _ _ _ => true
  | .vcvtI16 _ _ _ => true
  | .vcvtN16 _ _ _ => true
  | .vpack _ _ _ _ => true
  | .vunpk _ _ _ => true
  | .vperm _ _ _ _ => true
  | .vbfly _ _ _ _ => true
  | .vrot _ _ _ _ => true
  | .vbcl _ _ _ _ => true
  | .vredAdd _ _ _ => true
  | .vredMin _ _ _ => true
  | .vredMax _ _ _ => true
  | .pand _ _ _ _ => true
  | .por _ _ _ _ => true
  | .pxor _ _ _ _ => true
  | .pnot _ _ _ => true
  | .qany _ _ _ => true
  | .qall _ _ _ => true
  | .pballot _ _ _ => true
  | .pmask _ _ _ => true
  | .ldB8 _ _ _ _ => true
  | .ldB16 _ _ _ _ => true
  | .ldB32 _ _ _ _ => true
  | .ldB64 _ _ _ _ => true
  | .ldB128 _ _ _ _ => true
  | .ldPollB32 _ _ _ _ => true
  | .ldPollB64 _ _ _ _ => true
  | .gld _ _ _ _ => true
  | .stB8 _ _ _ _ => true
  | .stB16 _ _ _ _ => true
  | .stB32 _ _ _ _ => true
  | .stB64 _ _ _ _ => true
  | .stB128 _ _ _ _ => true
  | .gst _ _ _ _ => true
  | .ldSys _ _ _ _ => true
  | .stSys _ _ _ _ => true
  | .atomAdd _ _ _ _ _ _ => true
  | .atomSub _ _ _ _ _ _ => true
  | .atomMin _ _ _ _ _ _ => true
  | .atomMax _ _ _ _ _ _ => true
  | .atomMinn _ _ _ _ _ _ => true
  | .atomMaxn _ _ _ _ _ _ => true
  | .atomAnd _ _ _ _ _ _ => true
  | .atomOr _ _ _ _ _ _ => true
  | .atomXor _ _ _ _ _ _ => true
  | .atomExch _ _ _ _ _ _ => true
  | .atomCas _ _ _ _ _ _ => true
  | .atomfFaddF32 _ _ _ _ _ => true
  | .atomfFaddBf16x2 _ _ _ _ _ => true
  | .atomfFminF32 _ _ _ _ _ => true
  | .atomfFmaxF32 _ _ _ _ _ => true
  | .cas128 _ _ _ _ _ => true
  | .redAdd _ _ _ _ _ _ => true
  | .redSub _ _ _ _ _ _ => true
  | .redMin _ _ _ _ _ _ => true
  | .redMax _ _ _ _ _ _ => true
  | .redMinn _ _ _ _ _ _ => true
  | .redMaxn _ _ _ _ _ _ => true
  | .redAnd _ _ _ _ _ _ => true
  | .redOr _ _ _ _ _ _ => true
  | .redXor _ _ _ _ _ _ => true
  | .redFaddF32 _ _ _ _ _ => true
  | .redFaddBf16x2 _ _ _ _ _ => true
  | .redFminF32 _ _ _ _ _ => true
  | .redFmaxF32 _ _ _ _ _ => true
  | .sfil _ _ _ _ => true
  | .sscl _ _ _ _ => true
  | .soff _ _ _ _ => true
  | .sclp _ _ _ _ => true
  | .spmt _ _ _ _ => true
  | .smat _ _ _ => true
  | .shdr _ _ _ => true
  | .pst _ _ _ _ => true
  | .mma _ _ _ _ _ => true
  | .mscale _ _ _ => true
  | .mzero _ _ => true
  | .mzeroOpen _ _ => true
  | .mdrain _ _ _ _ _ => true
  | .mdrs _ _ _ _ => true
  | .mdrp _ _ _ => true
  | .mcbk _ _ _ _ => true
  | .gmov _ _ _ => true
  | .gadd _ _ _ _ => true
  | .gsub _ _ _ _ => true
  | .gmul _ _ _ _ => true
  | .gmulh _ _ _ _ => true
  | .gand _ _ _ _ => true
  | .gor _ _ _ _ => true
  | .gxor _ _ _ _ => true
  | .gshl _ _ _ _ => true
  | .gshr _ _ _ _ => true
  | .gsar _ _ _ _ => true
  | .gmin _ _ _ _ => true
  | .gmax _ _ _ _ => true
  | .gminn _ _ _ _ => true
  | .gmaxn _ _ _ _ => true
  | .gsel _ _ _ _ => true
  | .gclz _ _ _ => true
  | .gpop _ _ _ => true
  | .gcmpEq _ _ _ _ => true
  | .gcmpNe _ _ _ _ => true
  | .gcmpLt _ _ _ _ => true
  | .gcmpLe _ _ _ _ => true
  | .gcmpLtn _ _ _ _ => true
  | .gcmpLen _ _ _ _ => true
  | .qand _ _ _ _ => true
  | .qor _ _ _ _ => true
  | .qxor _ _ _ _ => true
  | .qnot _ _ _ => true
  | .smode _ _ => true
  | .gmode _ _ => true
  | .gldi _ _ _ => true
  | .gldh _ _ _ => true
  | .gaddi _ _ _ => true
  | .smodi _ _ _ _ => true
  | .br _ _ => true
  | .brq _ _ _ => true
  | .call _ _ => true
  | .rcv _ _ => true
  | .brd _ _ _ => true
  | .cpy _ _ _ _ => true
  | .cpyt _ _ _ _ => true
  | .cpyx _ _ _ _ _ => true
  | .cpym _ _ _ _ => true
  | .cpyr _ _ _ _ => true
  | .tlr _ _ _ => true
  | .tlw _ _ _ => true
  | .collAr _ _ _ => true
  | .collRs _ _ _ => true
  | .collAg _ _ _ => true
  | .csred _ _ _ _ => true
  | .cprio _ _ => true
  | .fence _ _ _ => true
  | .ldaGrp _ _ _ _ => true
  | .ldaTeam _ _ _ _ => true
  | .ldaClu _ _ _ _ => true
  | .ldaDie _ _ _ _ => true
  | .ldaDev _ _ _ _ => true
  | .ldaSys _ _ _ _ => true
  | .acqr _ _ _ => true
  | .stlGrp _ _ _ _ => true
  | .stlTeam _ _ _ _ => true
  | .stlClu _ _ _ _ => true
  | .stlDie _ _ _ _ => true
  | .stlDev _ _ _ _ => true
  | .stlSys _ _ _ _ => true
  | .bar _ _ _ => true
  | .bara _ _ _ => true
  | .barw _ _ _ => true
  | .barc _ _ _ => true
  | .trdy _ _ => true
  | .twt _ _ => true
  | .snuff _ _ => true
  | .dclk _ _ => true
  | .dsync _ => true
  | .rsig _ _ => true
  | .rchk _ => true
  | .nop _ => true
  | .exit _ => true
  | .ret _ => true
  | .jmpg _ _ => true
  | .pdem _ => true
  | .safe _ _ => true
  | .trap _ _ => true
  | .tret _ => true
  | .rdsp _ _ _ => true
  | .wrsp _ _ _ => true
  | .spawn _ _ _ => true
  | .bflush _ => true
  | .launch _ _ => true
  | .role _ _ => true
  | .qctlWrite _ _ => false
  | .qbaseWrite _ _ => false
  | .qtailDoorbell _ _ => false
  | .qstatClear _ _ => false
  | .registerWrite _ _ => false
  | .imageLoad _ _ => false
  | .recordRead => false
  | .launchArbitration => false
  | .launchAgeRise _ => false
  | .leaseInstall _ => false
  | .clusterAdmit _ _ => false
  | .preemptRequest _ _ => false
  | .preemptWithdraw _ => false
  | .clusterPreempt _ _ => false
  | .clusterPark _ _ => false
  | .clusterUnpark _ => false
  | .clusterResume _ _ => false
  | .binTimerExpiry _ _ => false
  | .binGroupStart _ _ => false
  | .spawnResume _ _ => false
  | .clusterEnd _ => false
  | .gridRetire _ => false
  | .deferredFault _ _ _ _ _ _ => false
  | .nonFiniteTrap _ => false
  | .safePointDistance _ _ => false
  | .splitUrgent _ _ => false
  | .variableLatencyResult _ _ => false
  | .mshrRetry _ _ => false
  | .mshrAged _ _ => false
  | .matrixEngineAccept _ => false
  | .guardResolve _ _ => false
  | .engineCommandStart _ _ => false
  | .engineCommandComplete _ _ _ => false
  | .collectiveChunkBoundary _ => false
  | .peerAdd _ => false
  | .read _ _ => false
  | .own _ _ _ _ => false
  | .homeWrite _ _ _ => false
  | .claimAccess _ _ _ => false
  | .fwd _ => false
  | .fwdData _ => false
  | .wbData _ => false
  | .inv _ _ => false
  | .invAck _ _ => false
  | .binv _ _ => false
  | .demand _ => false
  | .demandAck _ => false
  | .epochWriteback _ => false
  | .tiledLineDrop _ _ => false
  | .pageFlipToHost _ _ => false
  | .pairTorn _ _ _ => false
  | .snpData _ => false
  | .snpInv _ => false
  | .snpCur _ => false
  | .memRd _ => false
  | .memWr _ _ _ => false
  | .hostAtomicop _ _ _ _ _ => false
  | .hostBar2Access _ _ _ _ => false
  | .atomicopCompletion _ _ _ => false
  | .replicaSig _ => false
  | .compareTimeout _ => false
  | .rendezvousOperands _ => false
  | .rendezvousTimeout _ => false
  | .ldaForwardTimeout _ => false
  | .replicaNotice _ _ => false
  | .periodEnd _ => false
  | .serialPhase _ => false
  | .snuffCancel _ => false
  | .dieFailure _ => false
  | .peerUnreachable _ => false
  | .pageRetire _ _ => false
  | .sensorLimit _ _ => false
  | .coolantFlowTimeout => false
  | .reset => false
  | .dieTrainingComplete _ => false
  | .firmwareUpdate _ _ => false
  | .firmwareFallback => false
  | .illegalInstruction _ => false
  | .instructionFetch _ _ => false
  | .data _ _ => false
  | .replicaResult _ => false

end Sys2Proof
end

