-- ==== Sys2Proof/Decode.lean ====
section
/-! DEFINITION. Decoding (R78 to R105): from bytes or a 32-bit word to an instruction, or a rejection by name, total on
every word; and after it the encoder, written from the same tables. `.regs` is tested at issue (`Instr.inRegs`). -/

namespace Sys2Proof

/-- Why a word is no instruction: each raises the illegal-instruction trap (R105). -/
inductive Reject where
  /-- the all-zero word (R86) -/
  | allZero
  /-- a major opcode 0x07, 0x0F or 0x1D to 0x1F (R79, R99) -/
  | reservedMajor
  /-- an unallocated minor opcode (R99) -/
  | unallocatedMinor
  /-- an unallocated sub-operation (R103) -/
  | unallocatedSub
  /-- a nonzero reserved field or bit (R8, R84) -/
  | reservedBits
  /-- a group-register field of 64 or more (R81) -/
  | groupField
  /-- a predicate field of 8 or more (R81) -/
  | predicateField
  /-- a register block out of alignment (R81, R100) -/
  | blockAlignment
  /-- a register block that runs past its file (R81, R84) -/
  | blockEnd
  /-- an atomic form that R101 forbids -/
  | atomicForm
  /-- a drain type that R301 does not list -/
  | drainTarget
  /-- a reserved scope code or fence kind (R85, R104) -/
  | scopeCode
  /-- a barrier number or level beyond R104 -/
  | barrier
  /-- a special-register number that R21 does not assign -/
  | specialRegister
  /-- fewer than four bytes -/
  | shortWord
  deriving DecidableEq, Repr

/-- A bit field of a word: bits [lo+len-1:lo] (R7). -/
abbrev fld (lo len : Nat) (w : BitVec 32) : BitVec len := w.extractLsb' lo len
/-- The same of the 19 payload bits of an X-form word (R84). -/
abbrev sub (lo len : Nat) (p : BitVec 19) : BitVec len := p.extractLsb' lo len

/-- Accept only when the test holds. -/
def need (c : Bool) (r : Reject) (k : Except Reject Instr) : Except Reject Instr := if c then k else .error r

/-- Fits a seven-bit field its file of 64 group registers, or of 8 predicates (R81)? -/
def isG (x : BitVec 7) : Bool := decide (x.toNat < 64)
def isP (x : BitVec 7) : Bool := decide (x.toNat < 8)
/-- The number in a field that fits. -/
def toG (x : BitVec 7) : BitVec 6 := x.setWidth 6
def toP (x : BitVec 7) : BitVec 3 := x.setWidth 3
/-- A number as the seven-bit field that holds it. -/
def ofG (x : BitVec 6) : BitVec 7 := x.setWidth 7
def ofP (x : BitVec 3) : BitVec 7 := x.setWidth 7


def formZGZ (mk : BitVec 6 → Instr) (d a b : BitVec 7) : Except Reject Instr :=
  need (d == 0 && b == 0) .reservedBits (need (isG a) .groupField (.ok (mk (toG a))))
def formGZZ (mk : BitVec 6 → Instr) (d a b : BitVec 7) : Except Reject Instr :=
  need (a == 0 && b == 0) .reservedBits (need (isG d) .groupField (.ok (mk (toG d))))
def formGGZ (mk : BitVec 6 → BitVec 6 → Instr) (d a b : BitVec 7) : Except Reject Instr :=
  need (b == 0) .reservedBits (need (isG d && isG a) .groupField (.ok (mk (toG d) (toG a))))
def formGGG (mk : BitVec 6 → BitVec 6 → BitVec 6 → Instr) (d a b : BitVec 7) : Except Reject Instr :=
  need (isG d && isG a && isG b) .groupField (.ok (mk (toG d) (toG a) (toG b)))
def formGPZ (mk : BitVec 6 → BitVec 3 → Instr) (d a b : BitVec 7) : Except Reject Instr :=
  need (b == 0) .reservedBits (need (isG d) .groupField (need (isP a) .predicateField (.ok (mk (toG d) (toP a)))))
def formGPG (mk : BitVec 6 → BitVec 3 → BitVec 6 → Instr) (d a b : BitVec 7) : Except Reject Instr :=
  need (isG d && isG b) .groupField (need (isP a) .predicateField (.ok (mk (toG d) (toP a) (toG b))))
def formGVZ (mk : BitVec 6 → BitVec 7 → Instr) (d a b : BitVec 7) : Except Reject Instr :=
  need (b == 0) .reservedBits (need (isG d) .groupField (.ok (mk (toG d) a)))
def formGVG (mk : BitVec 6 → BitVec 7 → BitVec 6 → Instr) (d a b : BitVec 7) : Except Reject Instr :=
  need (isG d && isG b) .groupField (.ok (mk (toG d) a (toG b)))
def formPGZ (mk : BitVec 3 → BitVec 6 → Instr) (d a b : BitVec 7) : Except Reject Instr :=
  need (b == 0) .reservedBits (need (isP d) .predicateField (need (isG a) .groupField (.ok (mk (toP d) (toG a)))))
def formPPZ (mk : BitVec 3 → BitVec 3 → Instr) (d a b : BitVec 7) : Except Reject Instr :=
  need (b == 0) .reservedBits (need (isP d && isP a) .predicateField (.ok (mk (toP d) (toP a))))
def formPPP (mk : BitVec 3 → BitVec 3 → BitVec 3 → Instr) (d a b : BitVec 7) : Except Reject Instr :=
  need (isP d && isP a && isP b) .predicateField (.ok (mk (toP d) (toP a) (toP b)))
def formPVV (mk : BitVec 3 → BitVec 7 → BitVec 7 → Instr) (d a b : BitVec 7) : Except Reject Instr :=
  need (isP d) .predicateField (.ok (mk (toP d) a b))
def formPGG (mk : BitVec 3 → BitVec 6 → BitVec 6 → Instr) (d a b : BitVec 7) : Except Reject Instr :=
  need (isP d) .predicateField (need (isG a && isG b) .groupField (.ok (mk (toP d) (toG a) (toG b))))
def formVGG (mk : BitVec 7 → BitVec 6 → BitVec 6 → Instr) (d a b : BitVec 7) : Except Reject Instr :=
  need (isG a && isG b) .groupField (.ok (mk d (toG a) (toG b)))
def formVGV (mk : BitVec 7 → BitVec 6 → BitVec 7 → Instr) (d a b : BitVec 7) : Except Reject Instr :=
  need (isG a) .groupField (.ok (mk d (toG a) b))
def formVPV (mk : BitVec 7 → BitVec 3 → BitVec 7 → Instr) (d a b : BitVec 7) : Except Reject Instr :=
  need (isP a) .predicateField (.ok (mk d (toP a) b))
def formVVZ (mk : BitVec 7 → BitVec 7 → Instr) (d a b : BitVec 7) : Except Reject Instr :=
  need (b == 0) .reservedBits (.ok (mk d a))
def formVVG (mk : BitVec 7 → BitVec 7 → BitVec 6 → Instr) (d a b : BitVec 7) : Except Reject Instr :=
  need (isG b) .groupField (.ok (mk d a (toG b)))
def formVVV (mk : BitVec 7 → BitVec 7 → BitVec 7 → Instr) (d a b : BitVec 7) : Except Reject Instr :=
  .ok (mk d a b)

/-- The minors of major 0x00 (R99). -/
def major00 (s n : BitVec 3) (d a b : BitVec 7) : Except Reject Instr :=
  match n.toNat with
  | 0 => need (!(s == 0 && d == 0 && a == 0 && b == 0)) .allZero (formVVV (.vadd s) d a b)
  | 1 => formVVV (.vsub s) d a b
  | 2 => formVVV (.vmul s) d a b
  | 3 => formVVV (.vmulh s) d a b
  | 4 => formVVV (.vfma s) d a b
  | 5 => formVVV (.vfms s) d a b
  | 6 => formVVV (.vfnma s) d a b
  | 7 => formVVV (.vdiv s) d a b
  | _ => .error .unallocatedMinor

/-- The minors of major 0x01 (R99). -/
def major01 (s n : BitVec 3) (d a b : BitVec 7) : Except Reject Instr :=
  match n.toNat with
  | 0 => formVVV (.vmin s) d a b
  | 1 => formVVV (.vmax s) d a b
  | 2 => formVVZ (.vabs s) d a b
  | 3 => formVVZ (.vneg s) d a b
  | 4 => formVVZ (.vrcp s) d a b
  | 5 => formVVZ (.vsqrt s) d a b
  | 6 => formVVZ (.vrsq s) d a b
  | 7 => need (d.toNat + 1 < 128) .blockEnd (formVVV (.vtwosum s) d a b)
  | _ => .error .unallocatedMinor

/-- The minors of major 0x02 (R99). -/
def major02 (s n : BitVec 3) (d a b : BitVec 7) : Except Reject Instr :=
  match n.toNat with
  | 0 => formVVZ (.vexp2 s) d a b
  | 1 => formVVZ (.vlog2 s) d a b
  | 2 => formVVV (.vmix s) d a b
  | 3 => formVPV (.vsel s) d a b
  | 4 => formVVZ (.vmov s) d a b
  | 5 => need (isG a) .groupField (if b == 0 then .ok (.vbc s d (toG a)) else if b == 1 then .ok (.vbcHi s d (toG a)) else .error .reservedBits)
  | 6 => formGVG (.vlane s) d a b
  | _ => .error .unallocatedMinor

/-- The minors of major 0x03 (R99). -/
def major03 (s n : BitVec 3) (d a b : BitVec 7) : Except Reject Instr :=
  match n.toNat with
  | 0 => formVVV (.vand s) d a b
  | 1 => formVVV (.vor s) d a b
  | 2 => formVVV (.vxor s) d a b
  | 3 => formVVZ (.vnot s) d a b
  | 4 => formVVV (.vshl s) d a b
  | 5 => formVVV (.vshr s) d a b
  | 6 => formVVV (.vsar s) d a b
  | 7 => formVVZ (.vclz s) d a b
  | _ => .error .unallocatedMinor

/-- The minors of major 0x04 (R99). -/
def major04 (s n : BitVec 3) (d a b : BitVec 7) : Except Reject Instr :=
  match n.toNat with
  | 0 => formVVZ (.vpop s) d a b
  | 1 => formPVV (.vcmpEq s) d a b
  | 2 => formPVV (.vcmpNe s) d a b
  | 3 => formPVV (.vcmpLt s) d a b
  | 4 => formPVV (.vcmpLe s) d a b
  | 5 => formPVV (.vcmpGt s) d a b
  | 6 => formPVV (.vcmpGe s) d a b
  | 7 => formPVV (.vcmpUn s) d a b
  | _ => .error .unallocatedMinor

/-- The minors of major 0x05 (R99). -/
def major05 (s n : BitVec 3) (d a b : BitVec 7) : Except Reject Instr :=
  match n.toNat with
  | 0 => formVVZ (.vcvtF32 s) d a b
  | 1 => formVVZ (.vcvtBf16 s) d a b
  | 2 => formVVZ (.vcvtF16 s) d a b
  | 3 => formVVZ (.vcvtE4m3 s) d a b
  | 4 => formVVZ (.vcvtE5m2 s) d a b
  | 5 => formVVZ (.vcvtI8 s) d a b
  | 6 => formVVZ (.vcvtN8 s) d a b
  | 7 => formVVZ (.vcvtI32 s) d a b
  | _ => .error .unallocatedMinor

/-- The minors of major 0x06 (R99). -/
def major06 (s n : BitVec 3) (d a b : BitVec 7) : Except Reject Instr :=
  match n.toNat with
  | 0 => formVVZ (.vcvtN32 s) d a b
  | 1 => formVVZ (.vcvtI16 s) d a b
  | 2 => formVVZ (.vcvtN16 s) d a b
  | 3 => formVVV (.vpack s) d a b
  | 4 => need (d.toNat + 1 < 128) .blockEnd (formVVZ (.vunpk s) d a b)
  | _ => .error .unallocatedMinor

/-- The minors of major 0x08 (R99). -/
def major08 (s n : BitVec 3) (d a b : BitVec 7) : Except Reject Instr :=
  match n.toNat with
  | 0 => formVVV (.vperm s) d a b
  | 1 => formVVG (.vbfly s) d a b
  | 2 => formVVG (.vrot s) d a b
  | 3 => formVVG (.vbcl s) d a b
  | 4 => formGVZ (.vredAdd s) d a b
  | 5 => formGVZ (.vredMin s) d a b
  | 6 => formGVZ (.vredMax s) d a b
  | _ => .error .unallocatedMinor

/-- The minors of major 0x09 (R99). -/
def major09 (s n : BitVec 3) (d a b : BitVec 7) : Except Reject Instr :=
  match n.toNat with
  | 0 => formPPP (.pand s) d a b
  | 1 => formPPP (.por s) d a b
  | 2 => formPPP (.pxor s) d a b
  | 3 => formPPZ (.pnot s) d a b
  | 4 => formPPZ (.qany s) d a b
  | 5 => formPPZ (.qall s) d a b
  | 6 => formGPZ (.pballot s) d a b
  | 7 => formPGZ (.pmask s) d a b
  | _ => .error .unallocatedMinor

/-- The minors of major 0x0A (R99). -/
def major0A (s n : BitVec 3) (d a b : BitVec 7) : Except Reject Instr :=
  match n.toNat with
  | 0 => formVGV (.ldB8 s) d a b
  | 1 => formVGV (.ldB16 s) d a b
  | 2 => formVGV (.ldB32 s) d a b
  | 3 => need (d.toNat % 2 == 0) .blockAlignment (formVGV (.ldB64 s) d a b)
  | 4 => need (d.toNat % 4 == 0) .blockAlignment (formVGV (.ldB128 s) d a b)
  | 5 => formVGV (.ldPollB32 s) d a b
  | 6 => need (d.toNat % 2 == 0) .blockAlignment (formVGV (.ldPollB64 s) d a b)
  | 7 => formGGG (.gld s) d a b
  | _ => .error .unallocatedMinor

/-- The minors of major 0x0B (R99). -/
def major0B (s n : BitVec 3) (d a b : BitVec 7) : Except Reject Instr :=
  match n.toNat with
  | 0 => formVGV (.stB8 s) d a b
  | 1 => formVGV (.stB16 s) d a b
  | 2 => formVGV (.stB32 s) d a b
  | 3 => need (d.toNat % 2 == 0) .blockAlignment (formVGV (.stB64 s) d a b)
  | 4 => need (d.toNat % 4 == 0) .blockAlignment (formVGV (.stB128 s) d a b)
  | 5 => formGGG (.gst s) d a b
  | 6 => need (d.toNat % 2 == 0) .blockAlignment (formVGV (.ldSys s) d a b)
  | 7 => need (d.toNat % 2 == 0) .blockAlignment (formVGV (.stSys s) d a b)
  | _ => .error .unallocatedMinor

/-- The minors of major 0x0D (R99). -/
def major0D (s n : BitVec 3) (d a b : BitVec 7) : Except Reject Instr :=
  match n.toNat with
  | 0 => formGGG (.sfil s) d a b
  | 1 => formGGG (.sscl s) d a b
  | 2 => formGGG (.soff s) d a b
  | 3 => formGGG (.sclp s) d a b
  | 4 => need (b.toNat < 63) .blockEnd (formGGG (.spmt s) d a b)
  | 5 => formGGZ (.smat s) d a b
  | 6 => need (d.toNat < 61) .blockEnd (formGGZ (.shdr s) d a b)
  | 7 => need (b.toNat < 63) .blockEnd (formVGG (.pst s) d a b)
  | _ => .error .unallocatedMinor

/-- The minors of major 0x10 (R99). -/
def major10 (s n : BitVec 3) (d a b : BitVec 7) : Except Reject Instr :=
  match n.toNat with
  | 0 => formGGZ (.gmov s) d a b
  | 1 => formGGG (.gadd s) d a b
  | 2 => formGGG (.gsub s) d a b
  | 3 => formGGG (.gmul s) d a b
  | 4 => formGGG (.gmulh s) d a b
  | 5 => formGGG (.gand s) d a b
  | 6 => formGGG (.gor s) d a b
  | 7 => formGGG (.gxor s) d a b
  | _ => .error .unallocatedMinor

/-- The minors of major 0x11 (R99). -/
def major11 (s n : BitVec 3) (d a b : BitVec 7) : Except Reject Instr :=
  match n.toNat with
  | 0 => formGGG (.gshl s) d a b
  | 1 => formGGG (.gshr s) d a b
  | 2 => formGGG (.gsar s) d a b
  | 3 => formGGG (.gmin s) d a b
  | 4 => formGGG (.gmax s) d a b
  | 5 => formGGG (.gminn s) d a b
  | 6 => formGGG (.gmaxn s) d a b
  | 7 => formGPG (.gsel s) d a b
  | _ => .error .unallocatedMinor

/-- The minors of major 0x12 (R99). -/
def major12 (s n : BitVec 3) (d a b : BitVec 7) : Except Reject Instr :=
  match n.toNat with
  | 0 => formGGZ (.gclz s) d a b
  | 1 => formGGZ (.gpop s) d a b
  | 2 => formPGG (.gcmpEq s) d a b
  | 3 => formPGG (.gcmpNe s) d a b
  | 4 => formPGG (.gcmpLt s) d a b
  | 5 => formPGG (.gcmpLe s) d a b
  | 6 => formPGG (.gcmpLtn s) d a b
  | 7 => formPGG (.gcmpLen s) d a b
  | _ => .error .unallocatedMinor

/-- The minors of major 0x13 (R99). -/
def major13 (s n : BitVec 3) (d a b : BitVec 7) : Except Reject Instr :=
  match n.toNat with
  | 0 => formPPP (.qand s) d a b
  | 1 => formPPP (.qor s) d a b
  | 2 => formPPP (.qxor s) d a b
  | 3 => formPPZ (.qnot s) d a b
  | 4 => formZGZ (.smode s) d a b
  | 5 => formGZZ (.gmode s) d a b
  | _ => .error .unallocatedMinor

/-- Major 0x0C, the atomic layout (R100, R101). -/
def major0C (s : BitVec 3) (op : BitVec 4) (w nr : BitVec 1) (r : BitVec 3) (v a : BitVec 4) (b : BitVec 7) : Except Reject Instr :=
  need (r.toNat != 7) .atomicForm (
  if nr == 0 then
    match op.toNat with
    | 0 => need (atomAligned w v) .blockAlignment (.ok (.atomAdd s w r v a b))
    | 1 => need (atomAligned w v) .blockAlignment (.ok (.atomSub s w r v a b))
    | 2 => need (atomAligned w v) .blockAlignment (.ok (.atomMin s w r v a b))
    | 3 => need (atomAligned w v) .blockAlignment (.ok (.atomMax s w r v a b))
    | 4 => need (atomAligned w v) .blockAlignment (.ok (.atomMinn s w r v a b))
    | 5 => need (atomAligned w v) .blockAlignment (.ok (.atomMaxn s w r v a b))
    | 6 => need (atomAligned w v) .blockAlignment (.ok (.atomAnd s w r v a b))
    | 7 => need (atomAligned w v) .blockAlignment (.ok (.atomOr s w r v a b))
    | 8 => need (atomAligned w v) .blockAlignment (.ok (.atomXor s w r v a b))
    | 9 => need (atomAligned w v) .blockAlignment (.ok (.atomExch s w r v a b))
    | 10 => need (casAligned w v) .blockAlignment (.ok (.atomCas s w r v a b))
    | 11 => need (w == 0) .atomicForm (.ok (.atomfFaddF32 s r v a b))
    | 12 => need (w == 0) .atomicForm (.ok (.atomfFaddBf16x2 s r v a b))
    | 13 => need (w == 0) .atomicForm (.ok (.atomfFminF32 s r v a b))
    | 14 => need (w == 0) .atomicForm (.ok (.atomfFmaxF32 s r v a b))
    | 15 => need (w == 0) .atomicForm (need (v.toNat % 8 == 0) .blockAlignment (.ok (.cas128 s r v a b)))
    | _ => .error .atomicForm
  else need (r.toNat % 2 == 0) .atomicForm (
    match op.toNat with
    | 0 => need (atomAligned w v) .blockAlignment (.ok (.redAdd s w r v a b))
    | 1 => need (atomAligned w v) .blockAlignment (.ok (.redSub s w r v a b))
    | 2 => need (atomAligned w v) .blockAlignment (.ok (.redMin s w r v a b))
    | 3 => need (atomAligned w v) .blockAlignment (.ok (.redMax s w r v a b))
    | 4 => need (atomAligned w v) .blockAlignment (.ok (.redMinn s w r v a b))
    | 5 => need (atomAligned w v) .blockAlignment (.ok (.redMaxn s w r v a b))
    | 6 => need (atomAligned w v) .blockAlignment (.ok (.redAnd s w r v a b))
    | 7 => need (atomAligned w v) .blockAlignment (.ok (.redOr s w r v a b))
    | 8 => need (atomAligned w v) .blockAlignment (.ok (.redXor s w r v a b))
    | 11 => need (w == 0) .atomicForm (.ok (.redFaddF32 s r v a b))
    | 12 => need (w == 0) .atomicForm (.ok (.redFaddBf16x2 s r v a b))
    | 13 => need (w == 0) .atomicForm (.ok (.redFminF32 s r v a b))
    | 14 => need (w == 0) .atomicForm (.ok (.redFmaxF32 s r v a b))
    | _ => .error .atomicForm))

/-- The two parts of a seven-bit field that names a type or four reserved bits and an accumulator (R301). -/
abbrev hi4 (x : BitVec 7) : BitVec 4 := x.extractLsb' 3 4
abbrev lo3 (x : BitVec 7) : BitVec 3 := x.extractLsb' 0 3

/-- Major 0x0E, the matrix instructions (R102, R301). -/
def major0E (s n : BitVec 3) (d a b : BitVec 7) : Except Reject Instr :=
  match n.toNat with
  | 0 => .ok (.mma s (d.extractLsb' 4 3) (d.extractLsb' 0 4) a b)
  | 1 => need (hi4 d == 0 && b == 0) .reservedBits (.ok (.mscale s (lo3 d) a))
  | 2 => need (hi4 d == 0 && a == 0) .reservedBits (
      if b == 0 then .ok (.mzero s (lo3 d)) else if b == 1 then .ok (.mzeroOpen s (lo3 d)) else .error .reservedBits)
  | 3 => need (drainType (hi4 a)) .drainTarget (need (d.toNat % 8 == 0) .blockAlignment (
      need (isG b) .groupField (need (decide (b.toNat < 63)) .blockEnd (.ok (.mdrain s d (hi4 a) (lo3 a) (toG b))))))
  | 4 => need (b == 0) .reservedBits (need (drainType (hi4 a)) .drainTarget (
      need (isG d) .groupField (need (decide (d.toNat < 61)) .blockEnd (.ok (.mdrs s (toG d) (hi4 a) (lo3 a))))))
  | 5 => need (hi4 a == 0 && b == 0) .reservedBits (need (isG d) .groupField (.ok (.mdrp s (toG d) (lo3 a))))
  | 6 => need (d.extractLsb' 2 5 == 0) .reservedBits (need (isG a && isG b) .groupField (
      .ok (.mcbk s (d.extractLsb' 0 2) (toG a) (toG b))))
  | _ => .error .unallocatedMinor

/-- Majors 0x14 to 0x17, the immediates (R82, R134, R135). -/
def majorI (m : Nat) (s : BitVec 3) (d : BitVec 7) (k : BitVec 17) : Except Reject Instr :=
  need (isG d) .groupField (
  match m with
  | 0x14 => .ok (.gldi s (toG d) k)
  | 0x15 => need (k.extractLsb' 16 1 == 0) .reservedBits (.ok (.gldh s (toG d) (k.extractLsb' 0 16)))
  | 0x16 => .ok (.gaddi s (toG d) k)
  | _ => need (k.extractLsb' 15 1 == 0) .reservedBits (.ok (.smodi s (toG d) (k.extractLsb' 16 1) (k.extractLsb' 0 15))))

/-- Majors 0x18 and 0x19, the branches (R83). -/
def major18 (s c : BitVec 3) (f : BitVec 21) : Except Reject Instr :=
  if c == 0 then .ok (.br s f) else .ok (.brq s c f)
def major19 (s c : BitVec 3) (f : BitVec 21) : Except Reject Instr :=
  if c == 0 then
    (if f.extractLsb' 20 1 == 0 then .ok (.call s (f.extractLsb' 0 20)) else .ok (.rcv s (f.extractLsb' 0 20)))
  else .ok (.brd s c f)


/-- Major 0x1A, the engines (R103, R104). -/
def major1A (s : BitVec 3) (op : BitVec 5) (p : BitVec 19) : Except Reject Instr :=
  match op.toNat with
  | 0 => need (sub 0 9 p == 0) .reservedBits (need ((sub 9 6 p).toNat < 62) .blockEnd (.ok (.cpy s (sub 16 3 p) (sub 15 1 p) (sub 9 6 p))))
  | 1 => need (sub 0 9 p == 0) .reservedBits (need ((sub 9 6 p).toNat < 61) .blockEnd (.ok (.cpyt s (sub 16 3 p) (sub 15 1 p) (sub 9 6 p))))
  | 2 => need (sub 0 2 p == 0) .reservedBits (need ((sub 9 6 p).toNat < 61) .blockEnd (.ok (.cpyx s (sub 16 3 p) (sub 15 1 p) (sub 9 6 p) (sub 2 7 p))))
  | 3 => need (sub 0 9 p == 0) .reservedBits (need ((sub 9 6 p).toNat < 62) .blockEnd (.ok (.cpym s (sub 16 3 p) (sub 15 1 p) (sub 9 6 p))))
  | 4 => need (sub 0 9 p == 0) .reservedBits (need ((sub 9 6 p).toNat < 62) .blockEnd (.ok (.cpyr s (sub 16 3 p) (sub 15 1 p) (sub 9 6 p))))
  | 5 => need (sub 0 7 p == 0 && sub 15 4 p == 0) .reservedBits (.ok (.tlr s (sub 9 6 p) (sub 7 2 p)))
  | 6 => need (sub 0 7 p == 0 && sub 15 4 p == 0) .reservedBits (.ok (.tlw s (sub 9 6 p) (sub 7 2 p)))
  | 7 => need (sub 0 9 p == 0 && sub 15 1 p == 0) .reservedBits (need ((sub 9 6 p).toNat < 61) .blockEnd (.ok (.collAr s (sub 16 3 p) (sub 9 6 p))))
  | 8 => need (sub 0 9 p == 0 && sub 15 1 p == 0) .reservedBits (need ((sub 9 6 p).toNat < 61) .blockEnd (.ok (.collRs s (sub 16 3 p) (sub 9 6 p))))
  | 9 => need (sub 0 9 p == 0 && sub 15 1 p == 0) .reservedBits (need ((sub 9 6 p).toNat < 61) .blockEnd (.ok (.collAg s (sub 16 3 p) (sub 9 6 p))))
  | 10 => need (sub 0 2 p == 0 && sub 15 1 p == 0) .reservedBits (need ((sub 9 6 p).toNat < 61) .blockEnd (.ok (.csred s (sub 16 3 p) (sub 9 6 p) (sub 2 7 p))))
  | 11 => need (sub 0 13 p == 0) .reservedBits (.ok (.cprio s (sub 13 6 p)))
  | _ => .error .unallocatedSub

/-- Major 0x1B, synchronisation (R103, R104). -/
def major1B (s : BitVec 3) (op : BitVec 5) (p : BitVec 19) : Except Reject Instr :=
  match op.toNat with
  | 0 => need (sub 0 14 p == 0) .reservedBits (need ((sub 17 2 p).toNat != 0 && (sub 14 3 p).toNat < 6) .scopeCode (.ok (.fence s (sub 17 2 p) (sub 14 3 p))))
  | 1 => need (sub 0 1 p == 0) .reservedBits (.ok (.ldaGrp s (sub 13 6 p) (sub 7 6 p) (sub 1 6 p)))
  | 2 => need (sub 0 1 p == 0) .reservedBits (.ok (.ldaTeam s (sub 13 6 p) (sub 7 6 p) (sub 1 6 p)))
  | 3 => need (sub 0 1 p == 0) .reservedBits (.ok (.ldaClu s (sub 13 6 p) (sub 7 6 p) (sub 1 6 p)))
  | 4 => need (sub 0 1 p == 0) .reservedBits (.ok (.ldaDie s (sub 13 6 p) (sub 7 6 p) (sub 1 6 p)))
  | 5 => need (sub 0 1 p == 0) .reservedBits (.ok (.ldaDev s (sub 13 6 p) (sub 7 6 p) (sub 1 6 p)))
  | 6 => need (sub 0 1 p == 0) .reservedBits (.ok (.ldaSys s (sub 13 6 p) (sub 7 6 p) (sub 1 6 p)))
  | 8 => need (sub 0 7 p == 0) .reservedBits (.ok (.acqr s (sub 13 6 p) (sub 7 6 p)))
  | 9 => need (sub 0 1 p == 0) .reservedBits (.ok (.stlGrp s (sub 13 6 p) (sub 7 6 p) (sub 1 6 p)))
  | 10 => need (sub 0 1 p == 0) .reservedBits (.ok (.stlTeam s (sub 13 6 p) (sub 7 6 p) (sub 1 6 p)))
  | 11 => need (sub 0 1 p == 0) .reservedBits (.ok (.stlClu s (sub 13 6 p) (sub 7 6 p) (sub 1 6 p)))
  | 12 => need (sub 0 1 p == 0) .reservedBits (.ok (.stlDie s (sub 13 6 p) (sub 7 6 p) (sub 1 6 p)))
  | 13 => need (sub 0 1 p == 0) .reservedBits (.ok (.stlDev s (sub 13 6 p) (sub 7 6 p) (sub 1 6 p)))
  | 14 => need (sub 0 1 p == 0) .reservedBits (.ok (.stlSys s (sub 13 6 p) (sub 7 6 p) (sub 1 6 p)))
  | 16 => need (sub 0 13 p == 0) .reservedBits (need (barrierNumber (sub 17 2 p) (sub 13 4 p)) .barrier (.ok (.bar s (sub 17 2 p) (sub 13 4 p))))
  | 17 => need (sub 0 13 p == 0) .reservedBits (need (barrierNumber (sub 17 2 p) (sub 13 4 p)) .barrier (.ok (.bara s (sub 17 2 p) (sub 13 4 p))))
  | 18 => need (sub 0 13 p == 0) .reservedBits (need (barrierNumber (sub 17 2 p) (sub 13 4 p)) .barrier (.ok (.barw s (sub 17 2 p) (sub 13 4 p))))
  | 19 => need (sub 0 7 p == 0) .reservedBits (need (sub 17 2 p == 1) .barrier (.ok (.barc s (sub 13 4 p) (sub 7 6 p))))
  | 20 => need (sub 0 13 p == 0) .reservedBits (.ok (.trdy s (sub 13 6 p)))
  | 21 => need (sub 0 13 p == 0) .reservedBits (.ok (.twt s (sub 13 6 p)))
  | 22 => need (sub 0 13 p == 0) .reservedBits (.ok (.snuff s (sub 13 6 p)))
  | 23 => need (sub 0 13 p == 0) .reservedBits (.ok (.dclk s (sub 13 6 p)))
  | 24 => need (sub 0 19 p == 0) .reservedBits (.ok (.dsync s))
  | 25 => need (sub 0 13 p == 0) .reservedBits (.ok (.rsig s (sub 13 6 p)))
  | 26 => need (sub 0 19 p == 0) .reservedBits (.ok (.rchk s))
  | _ => .error .unallocatedSub

/-- Major 0x1C, the system (R103, R104). -/
def major1C (s : BitVec 3) (op : BitVec 5) (p : BitVec 19) : Except Reject Instr :=
  match op.toNat with
  | 0 => need (sub 0 19 p == 0) .reservedBits (.ok (.nop s))
  | 1 => need (sub 0 19 p == 0) .reservedBits (.ok (.exit s))
  | 2 => need (sub 0 19 p == 0) .reservedBits (.ok (.ret s))
  | 3 => need (sub 0 13 p == 0) .reservedBits (.ok (.jmpg s (sub 13 6 p)))
  | 4 => need (sub 0 19 p == 0) .reservedBits (.ok (.pdem s))
  | 5 => need (sub 0 7 p == 0) .reservedBits (.ok (.safe s (sub 7 12 p)))
  | 6 => need (sub 0 11 p == 0) .reservedBits (.ok (.trap s (sub 11 8 p)))
  | 7 => need (sub 0 19 p == 0) .reservedBits (.ok (.tret s))
  | 8 => need (sub 0 6 p == 0) .reservedBits (need (spAssigned (sub 6 6 p)) .specialRegister (need (spVector (sub 6 6 p) || decide ((sub 12 7 p).toNat < 64)) .groupField (.ok (.rdsp s (sub 12 7 p) (sub 6 6 p)))))
  | 9 => need (sub 0 6 p == 0) .reservedBits (need (spAssigned (sub 6 6 p)) .specialRegister (need (spVector (sub 6 6 p) || decide ((sub 12 7 p).toNat < 64)) .groupField (.ok (.wrsp s (sub 12 7 p) (sub 6 6 p)))))
  | 10 => .ok (.spawn s (sub 15 4 p) (sub 0 15 p))
  | 11 => need (sub 0 19 p == 0) .reservedBits (.ok (.bflush s))
  | 12 => need (sub 0 13 p == 0) .reservedBits (.ok (.launch s (sub 13 6 p)))
  | 13 => need (sub 0 17 p == 0) .reservedBits (.ok (.role s (sub 17 2 p)))
  | _ => .error .unallocatedSub

/-- Decode one word (R79). Total: every word is an instruction or is rejected by name (R105). -/
def decode (w : BitVec 32) : Except Reject Instr :=
  let s := fld 29 3 w
  let n := fld 21 3 w
  let d := fld 14 7 w
  let a := fld 7 7 w
  let b := fld 0 7 w
  match (fld 24 5 w).toNat with
  | 0x00 => major00 s n d a b
  | 0x01 => major01 s n d a b
  | 0x02 => major02 s n d a b
  | 0x03 => major03 s n d a b
  | 0x04 => major04 s n d a b
  | 0x05 => major05 s n d a b
  | 0x06 => major06 s n d a b
  | 0x08 => major08 s n d a b
  | 0x09 => major09 s n d a b
  | 0x0A => major0A s n d a b
  | 0x0B => major0B s n d a b
  | 0x0C => major0C s (fld 20 4 w) (fld 19 1 w) (fld 18 1 w) (fld 15 3 w) (fld 11 4 w) (fld 7 4 w) b
  | 0x0D => major0D s n d a b
  | 0x0E => major0E s n d a b
  | 0x10 => major10 s n d a b
  | 0x11 => major11 s n d a b
  | 0x12 => major12 s n d a b
  | 0x13 => major13 s n d a b
  | 0x14 => majorI 0x14 s (fld 17 7 w) (fld 0 17 w)
  | 0x15 => majorI 0x15 s (fld 17 7 w) (fld 0 17 w)
  | 0x16 => majorI 0x16 s (fld 17 7 w) (fld 0 17 w)
  | 0x17 => majorI 0x17 s (fld 17 7 w) (fld 0 17 w)
  | 0x18 => major18 s n (fld 0 21 w)
  | 0x19 => major19 s n (fld 0 21 w)
  | 0x1A => major1A s (fld 19 5 w) (fld 0 19 w)
  | 0x1B => major1B s (fld 19 5 w) (fld 0 19 w)
  | 0x1C => major1C s (fld 19 5 w) (fld 0 19 w)
  | _ => .error .reservedMajor

/-- Decode from bytes as they lie in memory: little-endian (R7, R78). The rest of the bytes is returned. -/
def decodeBytes : List Byte → Except Reject (Instr × List Byte)
  | b0 :: b1 :: b2 :: b3 :: rest =>
    match decode (b3 ++ b2 ++ b1 ++ b0) with
    | .ok i => .ok (i, rest)
    | .error r => .error r
  | _ => .error .shortWord

/-- The four bytes of a word as they lie in memory (R78). -/
def wordBytes (w : BitVec 32) : List Byte :=
  [w.extractLsb' 0 8, w.extractLsb' 8 8, w.extractLsb' 16 8, w.extractLsb' 24 8]

/-- The instruction of a table word: its 32 bits laid out as memory holds them and given to the decoder. -/
def decodeTableWord (nbits w : Nat) : Option Instr :=
  match decodeBytes (wordBytes (BitVec.ofNat 32 (w % 2 ^ nbits))) with
  | .ok (i, _) => some i
  | .error _ => none

/-! The encoder: the forms of R80, R82, R83, R84 and R100. -/

def rWord (s : BitVec 3) (m : BitVec 5) (n : BitVec 3) (d a b : BitVec 7) : BitVec 32 := s ++ m ++ n ++ d ++ a ++ b
def aWord (s : BitVec 3) (op : BitVec 4) (w nr : BitVec 1) (r : BitVec 3) (v a : BitVec 4) (b : BitVec 7) : BitVec 32 :=
  s ++ (0x0C : BitVec 5) ++ op ++ w ++ nr ++ r ++ v ++ a ++ b
def iWord (s : BitVec 3) (m : BitVec 5) (d : BitVec 7) (k : BitVec 17) : BitVec 32 := s ++ m ++ d ++ k
def bWord (s : BitVec 3) (m : BitVec 5) (c : BitVec 3) (f : BitVec 21) : BitVec 32 := s ++ m ++ c ++ f
def xWord (s : BitVec 3) (m op : BitVec 5) (p : BitVec 19) : BitVec 32 := s ++ m ++ op ++ p

/-- The word of an instruction. A step without a word has the all-zero word, which is no instruction (R86). -/
def encode : Instr → BitVec 32
  | .vadd s d a b => rWord s 0x00 0 d a b
  | .vsub s d a b => rWord s 0x00 1 d a b
  | .vmul s d a b => rWord s 0x00 2 d a b
  | .vmulh s d a b => rWord s 0x00 3 d a b
  | .vfma s d a b => rWord s 0x00 4 d a b
  | .vfms s d a b => rWord s 0x00 5 d a b
  | .vfnma s d a b => rWord s 0x00 6 d a b
  | .vdiv s d a b => rWord s 0x00 7 d a b
  | .vmin s d a b => rWord s 0x01 0 d a b
  | .vmax s d a b => rWord s 0x01 1 d a b
  | .vabs s d a => rWord s 0x01 2 d a 0
  | .vneg s d a => rWord s 0x01 3 d a 0
  | .vrcp s d a => rWord s 0x01 4 d a 0
  | .vsqrt s d a => rWord s 0x01 5 d a 0
  | .vrsq s d a => rWord s 0x01 6 d a 0
  | .vtwosum s d a b => rWord s 0x01 7 d a b
  | .vexp2 s d a => rWord s 0x02 0 d a 0
  | .vlog2 s d a => rWord s 0x02 1 d a 0
  | .vmix s d a b => rWord s 0x02 2 d a b
  | .vsel s d a b => rWord s 0x02 3 d (ofP a) b
  | .vmov s d a => rWord s 0x02 4 d a 0
  | .vbc s d a => rWord s 0x02 5 d (ofG a) 0
  | .vbcHi s d a => rWord s 0x02 5 d (ofG a) 1
  | .vlane s d a b => rWord s 0x02 6 (ofG d) a (ofG b)
  | .vand s d a b => rWord s 0x03 0 d a b
  | .vor s d a b => rWord s 0x03 1 d a b
  | .vxor s d a b => rWord s 0x03 2 d a b
  | .vnot s d a => rWord s 0x03 3 d a 0
  | .vshl s d a b => rWord s 0x03 4 d a b
  | .vshr s d a b => rWord s 0x03 5 d a b
  | .vsar s d a b => rWord s 0x03 6 d a b
  | .vclz s d a => rWord s 0x03 7 d a 0
  | .vpop s d a => rWord s 0x04 0 d a 0
  | .vcmpEq s d a b => rWord s 0x04 1 (ofP d) a b
  | .vcmpNe s d a b => rWord s 0x04 2 (ofP d) a b
  | .vcmpLt s d a b => rWord s 0x04 3 (ofP d) a b
  | .vcmpLe s d a b => rWord s 0x04 4 (ofP d) a b
  | .vcmpGt s d a b => rWord s 0x04 5 (ofP d) a b
  | .vcmpGe s d a b => rWord s 0x04 6 (ofP d) a b
  | .vcmpUn s d a b => rWord s 0x04 7 (ofP d) a b
  | .vcvtF32 s d a => rWord s 0x05 0 d a 0
  | .vcvtBf16 s d a => rWord s 0x05 1 d a 0
  | .vcvtF16 s d a => rWord s 0x05 2 d a 0
  | .vcvtE4m3 s d a => rWord s 0x05 3 d a 0
  | .vcvtE5m2 s d a => rWord s 0x05 4 d a 0
  | .vcvtI8 s d a => rWord s 0x05 5 d a 0
  | .vcvtN8 s d a => rWord s 0x05 6 d a 0
  | .vcvtI32 s d a => rWord s 0x05 7 d a 0
  | .vcvtN32 s d a => rWord s 0x06 0 d a 0
  | .vcvtI16 s d a => rWord s 0x06 1 d a 0
  | .vcvtN16 s d a => rWord s 0x06 2 d a 0
  | .vpack s d a b => rWord s 0x06 3 d a b
  | .vunpk s d a => rWord s 0x06 4 d a 0
  | .vperm s d a b => rWord s 0x08 0 d a b
  | .vbfly s d a b => rWord s 0x08 1 d a (ofG b)
  | .vrot s d a b => rWord s 0x08 2 d a (ofG b)
  | .vbcl s d a b => rWord s 0x08 3 d a (ofG b)
  | .vredAdd s d a => rWord s 0x08 4 (ofG d) a 0
  | .vredMin s d a => rWord s 0x08 5 (ofG d) a 0
  | .vredMax s d a => rWord s 0x08 6 (ofG d) a 0
  | .pand s d a b => rWord s 0x09 0 (ofP d) (ofP a) (ofP b)
  | .por s d a b => rWord s 0x09 1 (ofP d) (ofP a) (ofP b)
  | .pxor s d a b => rWord s 0x09 2 (ofP d) (ofP a) (ofP b)
  | .pnot s d a => rWord s 0x09 3 (ofP d) (ofP a) 0
  | .qany s d a => rWord s 0x09 4 (ofP d) (ofP a) 0
  | .qall s d a => rWord s 0x09 5 (ofP d) (ofP a) 0
  | .pballot s d a => rWord s 0x09 6 (ofG d) (ofP a) 0
  | .pmask s d a => rWord s 0x09 7 (ofP d) (ofG a) 0
  | .ldB8 s d a b => rWord s 0x0A 0 d (ofG a) b
  | .ldB16 s d a b => rWord s 0x0A 1 d (ofG a) b
  | .ldB32 s d a b => rWord s 0x0A 2 d (ofG a) b
  | .ldB64 s d a b => rWord s 0x0A 3 d (ofG a) b
  | .ldB128 s d a b => rWord s 0x0A 4 d (ofG a) b
  | .ldPollB32 s d a b => rWord s 0x0A 5 d (ofG a) b
  | .ldPollB64 s d a b => rWord s 0x0A 6 d (ofG a) b
  | .gld s d a b => rWord s 0x0A 7 (ofG d) (ofG a) (ofG b)
  | .stB8 s d a b => rWord s 0x0B 0 d (ofG a) b
  | .stB16 s d a b => rWord s 0x0B 1 d (ofG a) b
  | .stB32 s d a b => rWord s 0x0B 2 d (ofG a) b
  | .stB64 s d a b => rWord s 0x0B 3 d (ofG a) b
  | .stB128 s d a b => rWord s 0x0B 4 d (ofG a) b
  | .gst s d a b => rWord s 0x0B 5 (ofG d) (ofG a) (ofG b)
  | .ldSys s d a b => rWord s 0x0B 6 d (ofG a) b
  | .stSys s d a b => rWord s 0x0B 7 d (ofG a) b
  | .atomAdd s w r v a b => aWord s 0 w 0 r v a b
  | .atomSub s w r v a b => aWord s 1 w 0 r v a b
  | .atomMin s w r v a b => aWord s 2 w 0 r v a b
  | .atomMax s w r v a b => aWord s 3 w 0 r v a b
  | .atomMinn s w r v a b => aWord s 4 w 0 r v a b
  | .atomMaxn s w r v a b => aWord s 5 w 0 r v a b
  | .atomAnd s w r v a b => aWord s 6 w 0 r v a b
  | .atomOr s w r v a b => aWord s 7 w 0 r v a b
  | .atomXor s w r v a b => aWord s 8 w 0 r v a b
  | .atomExch s w r v a b => aWord s 9 w 0 r v a b
  | .atomCas s w r v a b => aWord s 10 w 0 r v a b
  | .atomfFaddF32 s r v a b => aWord s 11 0 0 r v a b
  | .atomfFaddBf16x2 s r v a b => aWord s 12 0 0 r v a b
  | .atomfFminF32 s r v a b => aWord s 13 0 0 r v a b
  | .atomfFmaxF32 s r v a b => aWord s 14 0 0 r v a b
  | .cas128 s r v a b => aWord s 15 0 0 r v a b
  | .redAdd s w r v a b => aWord s 0 w 1 r v a b
  | .redSub s w r v a b => aWord s 1 w 1 r v a b
  | .redMin s w r v a b => aWord s 2 w 1 r v a b
  | .redMax s w r v a b => aWord s 3 w 1 r v a b
  | .redMinn s w r v a b => aWord s 4 w 1 r v a b
  | .redMaxn s w r v a b => aWord s 5 w 1 r v a b
  | .redAnd s w r v a b => aWord s 6 w 1 r v a b
  | .redOr s w r v a b => aWord s 7 w 1 r v a b
  | .redXor s w r v a b => aWord s 8 w 1 r v a b
  | .redFaddF32 s r v a b => aWord s 11 0 1 r v a b
  | .redFaddBf16x2 s r v a b => aWord s 12 0 1 r v a b
  | .redFminF32 s r v a b => aWord s 13 0 1 r v a b
  | .redFmaxF32 s r v a b => aWord s 14 0 1 r v a b
  | .sfil s d a b => rWord s 0x0D 0 (ofG d) (ofG a) (ofG b)
  | .sscl s d a b => rWord s 0x0D 1 (ofG d) (ofG a) (ofG b)
  | .soff s d a b => rWord s 0x0D 2 (ofG d) (ofG a) (ofG b)
  | .sclp s d a b => rWord s 0x0D 3 (ofG d) (ofG a) (ofG b)
  | .spmt s d a b => rWord s 0x0D 4 (ofG d) (ofG a) (ofG b)
  | .smat s d a => rWord s 0x0D 5 (ofG d) (ofG a) 0
  | .shdr s d a => rWord s 0x0D 6 (ofG d) (ofG a) 0
  | .pst s d a b => rWord s 0x0D 7 d (ofG a) (ofG b)
  | .mma s c f a b => rWord s 0x0E 0 (c ++ f) a b
  | .mscale s c a => rWord s 0x0E 1 ((0 : BitVec 4) ++ c) a 0
  | .mzero s c => rWord s 0x0E 2 ((0 : BitVec 4) ++ c) 0 0
  | .mzeroOpen s c => rWord s 0x0E 2 ((0 : BitVec 4) ++ c) 0 1
  | .mdrain s d t c b => rWord s 0x0E 3 d (t ++ c) (ofG b)
  | .mdrs s d t c => rWord s 0x0E 4 (ofG d) (t ++ c) 0
  | .mdrp s d c => rWord s 0x0E 5 (ofG d) ((0 : BitVec 4) ++ c) 0
  | .mcbk s n a b => rWord s 0x0E 6 ((0 : BitVec 5) ++ n) (ofG a) (ofG b)
  | .gmov s d a => rWord s 0x10 0 (ofG d) (ofG a) 0
  | .gadd s d a b => rWord s 0x10 1 (ofG d) (ofG a) (ofG b)
  | .gsub s d a b => rWord s 0x10 2 (ofG d) (ofG a) (ofG b)
  | .gmul s d a b => rWord s 0x10 3 (ofG d) (ofG a) (ofG b)
  | .gmulh s d a b => rWord s 0x10 4 (ofG d) (ofG a) (ofG b)
  | .gand s d a b => rWord s 0x10 5 (ofG d) (ofG a) (ofG b)
  | .gor s d a b => rWord s 0x10 6 (ofG d) (ofG a) (ofG b)
  | .gxor s d a b => rWord s 0x10 7 (ofG d) (ofG a) (ofG b)
  | .gshl s d a b => rWord s 0x11 0 (ofG d) (ofG a) (ofG b)
  | .gshr s d a b => rWord s 0x11 1 (ofG d) (ofG a) (ofG b)
  | .gsar s d a b => rWord s 0x11 2 (ofG d) (ofG a) (ofG b)
  | .gmin s d a b => rWord s 0x11 3 (ofG d) (ofG a) (ofG b)
  | .gmax s d a b => rWord s 0x11 4 (ofG d) (ofG a) (ofG b)
  | .gminn s d a b => rWord s 0x11 5 (ofG d) (ofG a) (ofG b)
  | .gmaxn s d a b => rWord s 0x11 6 (ofG d) (ofG a) (ofG b)
  | .gsel s d a b => rWord s 0x11 7 (ofG d) (ofP a) (ofG b)
  | .gclz s d a => rWord s 0x12 0 (ofG d) (ofG a) 0
  | .gpop s d a => rWord s 0x12 1 (ofG d) (ofG a) 0
  | .gcmpEq s d a b => rWord s 0x12 2 (ofP d) (ofG a) (ofG b)
  | .gcmpNe s d a b => rWord s 0x12 3 (ofP d) (ofG a) (ofG b)
  | .gcmpLt s d a b => rWord s 0x12 4 (ofP d) (ofG a) (ofG b)
  | .gcmpLe s d a b => rWord s 0x12 5 (ofP d) (ofG a) (ofG b)
  | .gcmpLtn s d a b => rWord s 0x12 6 (ofP d) (ofG a) (ofG b)
  | .gcmpLen s d a b => rWord s 0x12 7 (ofP d) (ofG a) (ofG b)
  | .qand s d a b => rWord s 0x13 0 (ofP d) (ofP a) (ofP b)
  | .qor s d a b => rWord s 0x13 1 (ofP d) (ofP a) (ofP b)
  | .qxor s d a b => rWord s 0x13 2 (ofP d) (ofP a) (ofP b)
  | .qnot s d a => rWord s 0x13 3 (ofP d) (ofP a) 0
  | .smode s a => rWord s 0x13 4 0 (ofG a) 0
  | .gmode s d => rWord s 0x13 5 (ofG d) 0 0
  | .gldi s d k => iWord s 0x14 (ofG d) k
  | .gldh s d k => iWord s 0x15 (ofG d) ((0 : BitVec 1) ++ k)
  | .gaddi s d k => iWord s 0x16 (ofG d) k
  | .smodi s d z k => iWord s 0x17 (ofG d) (z ++ (0 : BitVec 1) ++ k)
  | .br s f => bWord s 0x18 0 f
  | .brq s c f => bWord s 0x18 c f
  | .call s f => bWord s 0x19 0 ((0 : BitVec 1) ++ f)
  | .rcv s f => bWord s 0x19 0 ((1 : BitVec 1) ++ f)
  | .brd s c f => bWord s 0x19 c f
  | .cpy s q c g => xWord s 0x1A 0x00 (q ++ c ++ g ++ (0 : BitVec 9))
  | .cpyt s q c g => xWord s 0x1A 0x01 (q ++ c ++ g ++ (0 : BitVec 9))
  | .cpyx s q c g v => xWord s 0x1A 0x02 (q ++ c ++ g ++ v ++ (0 : BitVec 2))
  | .cpym s q c g => xWord s 0x1A 0x03 (q ++ c ++ g ++ (0 : BitVec 9))
  | .cpyr s q c g => xWord s 0x1A 0x04 (q ++ c ++ g ++ (0 : BitVec 9))
  | .tlr s g x => xWord s 0x1A 0x05 ((0 : BitVec 4) ++ g ++ x ++ (0 : BitVec 7))
  | .tlw s g x => xWord s 0x1A 0x06 ((0 : BitVec 4) ++ g ++ x ++ (0 : BitVec 7))
  | .collAr s q g => xWord s 0x1A 0x07 (q ++ (0 : BitVec 1) ++ g ++ (0 : BitVec 9))
  | .collRs s q g => xWord s 0x1A 0x08 (q ++ (0 : BitVec 1) ++ g ++ (0 : BitVec 9))
  | .collAg s q g => xWord s 0x1A 0x09 (q ++ (0 : BitVec 1) ++ g ++ (0 : BitVec 9))
  | .csred s q g v => xWord s 0x1A 0x0A (q ++ (0 : BitVec 1) ++ g ++ v ++ (0 : BitVec 2))
  | .cprio s g => xWord s 0x1A 0x0B (g ++ (0 : BitVec 13))
  | .fence s k e => xWord s 0x1B 0x00 (k ++ e ++ (0 : BitVec 14))
  | .ldaGrp s d a b => xWord s 0x1B 0x01 (d ++ a ++ b ++ (0 : BitVec 1))
  | .ldaTeam s d a b => xWord s 0x1B 0x02 (d ++ a ++ b ++ (0 : BitVec 1))
  | .ldaClu s d a b => xWord s 0x1B 0x03 (d ++ a ++ b ++ (0 : BitVec 1))
  | .ldaDie s d a b => xWord s 0x1B 0x04 (d ++ a ++ b ++ (0 : BitVec 1))
  | .ldaDev s d a b => xWord s 0x1B 0x05 (d ++ a ++ b ++ (0 : BitVec 1))
  | .ldaSys s d a b => xWord s 0x1B 0x06 (d ++ a ++ b ++ (0 : BitVec 1))
  | .acqr s g h => xWord s 0x1B 0x08 (g ++ h ++ (0 : BitVec 7))
  | .stlGrp s d a b => xWord s 0x1B 0x09 (d ++ a ++ b ++ (0 : BitVec 1))
  | .stlTeam s d a b => xWord s 0x1B 0x0A (d ++ a ++ b ++ (0 : BitVec 1))
  | .stlClu s d a b => xWord s 0x1B 0x0B (d ++ a ++ b ++ (0 : BitVec 1))
  | .stlDie s d a b => xWord s 0x1B 0x0C (d ++ a ++ b ++ (0 : BitVec 1))
  | .stlDev s d a b => xWord s 0x1B 0x0D (d ++ a ++ b ++ (0 : BitVec 1))
  | .stlSys s d a b => xWord s 0x1B 0x0E (d ++ a ++ b ++ (0 : BitVec 1))
  | .bar s l n => xWord s 0x1B 0x10 (l ++ n ++ (0 : BitVec 13))
  | .bara s l n => xWord s 0x1B 0x11 (l ++ n ++ (0 : BitVec 13))
  | .barw s l n => xWord s 0x1B 0x12 (l ++ n ++ (0 : BitVec 13))
  | .barc s n g => xWord s 0x1B 0x13 ((1 : BitVec 2) ++ n ++ g ++ (0 : BitVec 7))
  | .trdy s g => xWord s 0x1B 0x14 (g ++ (0 : BitVec 13))
  | .twt s g => xWord s 0x1B 0x15 (g ++ (0 : BitVec 13))
  | .snuff s g => xWord s 0x1B 0x16 (g ++ (0 : BitVec 13))
  | .dclk s g => xWord s 0x1B 0x17 (g ++ (0 : BitVec 13))
  | .dsync s => xWord s 0x1B 0x18 ((0 : BitVec 19))
  | .rsig s g => xWord s 0x1B 0x19 (g ++ (0 : BitVec 13))
  | .rchk s => xWord s 0x1B 0x1A ((0 : BitVec 19))
  | .nop s => xWord s 0x1C 0x00 ((0 : BitVec 19))
  | .exit s => xWord s 0x1C 0x01 ((0 : BitVec 19))
  | .ret s => xWord s 0x1C 0x02 ((0 : BitVec 19))
  | .jmpg s g => xWord s 0x1C 0x03 (g ++ (0 : BitVec 13))
  | .pdem s => xWord s 0x1C 0x04 ((0 : BitVec 19))
  | .safe s i => xWord s 0x1C 0x05 (i ++ (0 : BitVec 7))
  | .trap s n => xWord s 0x1C 0x06 (n ++ (0 : BitVec 11))
  | .tret s => xWord s 0x1C 0x07 ((0 : BitVec 19))
  | .rdsp s d r => xWord s 0x1C 0x08 (d ++ r ++ (0 : BitVec 6))
  | .wrsp s d r => xWord s 0x1C 0x09 (d ++ r ++ (0 : BitVec 6))
  | .spawn s k f => xWord s 0x1C 0x0A (k ++ f)
  | .bflush s => xWord s 0x1C 0x0B ((0 : BitVec 19))
  | .launch s g => xWord s 0x1C 0x0C (g ++ (0 : BitVec 13))
  | .role s r => xWord s 0x1C 0x0D (r ++ (0 : BitVec 17))
  | .qctlWrite _ _ => 0
  | .qbaseWrite _ _ => 0
  | .qtailDoorbell _ _ => 0
  | .qstatClear _ _ => 0
  | .registerWrite _ _ => 0
  | .imageLoad _ _ => 0
  | .recordRead => 0
  | .launchArbitration => 0
  | .launchAgeRise _ => 0
  | .leaseInstall _ => 0
  | .clusterAdmit _ _ => 0
  | .preemptRequest _ _ => 0
  | .preemptWithdraw _ => 0
  | .clusterPreempt _ _ => 0
  | .clusterPark _ _ => 0
  | .clusterUnpark _ => 0
  | .clusterResume _ _ => 0
  | .binTimerExpiry _ _ => 0
  | .binGroupStart _ _ => 0
  | .spawnResume _ _ => 0
  | .clusterEnd _ => 0
  | .gridRetire _ => 0
  | .deferredFault _ _ _ _ _ _ => 0
  | .nonFiniteTrap _ => 0
  | .safePointDistance _ _ => 0
  | .splitUrgent _ _ => 0
  | .variableLatencyResult _ _ => 0
  | .mshrRetry _ _ => 0
  | .mshrAged _ _ => 0
  | .matrixEngineAccept _ => 0
  | .guardResolve _ _ => 0
  | .engineCommandStart _ _ => 0
  | .engineCommandComplete _ _ _ => 0
  | .collectiveChunkBoundary _ => 0
  | .peerAdd _ => 0
  | .read _ _ => 0
  | .own _ _ _ _ => 0
  | .homeWrite _ _ _ => 0
  | .claimAccess _ _ _ => 0
  | .fwd _ => 0
  | .fwdData _ => 0
  | .wbData _ => 0
  | .inv _ _ => 0
  | .invAck _ _ => 0
  | .binv _ _ => 0
  | .demand _ => 0
  | .demandAck _ => 0
  | .epochWriteback _ => 0
  | .tiledLineDrop _ _ => 0
  | .pageFlipToHost _ _ => 0
  | .pairTorn _ _ _ => 0
  | .snpData _ => 0
  | .snpInv _ => 0
  | .snpCur _ => 0
  | .memRd _ => 0
  | .memWr _ _ _ => 0
  | .hostAtomicop _ _ _ _ _ => 0
  | .hostBar2Access _ _ _ _ => 0
  | .atomicopCompletion _ _ _ => 0
  | .replicaSig _ => 0
  | .compareTimeout _ => 0
  | .rendezvousOperands _ => 0
  | .rendezvousTimeout _ => 0
  | .ldaForwardTimeout _ => 0
  | .replicaNotice _ _ => 0
  | .periodEnd _ => 0
  | .serialPhase _ => 0
  | .snuffCancel _ => 0
  | .dieFailure _ => 0
  | .peerUnreachable _ => 0
  | .pageRetire _ _ => 0
  | .sensorLimit _ _ => 0
  | .coolantFlowTimeout => 0
  | .reset => 0
  | .dieTrainingComplete _ => 0
  | .firmwareUpdate _ _ => 0
  | .firmwareFallback => 0
  | .illegalInstruction _ => 0
  | .instructionFetch _ _ => 0
  | .data _ _ => 0
  | .replicaResult _ => 0

end Sys2Proof
end

