-- ==== Sys2Proof/Config.lean ====
section
/-! DEFINITION. What an implementation fixes and the free values of the model. Nothing can be proved of a free value. -/

namespace Sys2Proof.Config

/-- FREE VALUE (log 1). Whether an early or a sibling's read returns the new value (R92, R93); the argument is drawn
from a counter of the state, so that every read is on its own. -/
opaque freeBit : Nat → Bool

/-- FREE VALUE (log 1). The order in which sparse values meet outside deterministic mode (R331): a choice of position. -/
opaque freeChoice : Nat → Nat

/-- FREE VALUE (log 1). The bytes of HBM that firmware keeps for itself at a service level (R459). -/
opaque firmwareBytes : Nat → Nat

/-- FREE VALUE (log 1). Where the salvage area of a die lies (R370). -/
opaque salvageBase : Nat → Nat

/-- FREE VALUE (log 1). Where a group's checkpoint area lies (R383). -/
opaque checkpointArea : Nat → Nat

/-- FREE VALUE (log 1). Where a cluster's save area begins, as the command processor places it by itself (R447). -/
opaque saveArea : Nat → Nat

/-- FREE VALUE (log 1). Lamplighter's count in microseconds (R464) at a cycle of the model. -/
opaque lampCount : Nat → BitVec 64

/-- FREE VALUE (log 1). The personality of the host link and the module number that firmware fixes at bring-up (R458, R459). -/
opaque cxlPersonality : Bool
opaque moduleNumber : BitVec 32

/-- FREE VALUE (log 1). The home slice, the directory set and the part of the L2 set that bits [23:7] of a physical address
give (R430, R481), and the set of a home switch's snoop filter (R366): the spec fixes the functions and does not state
them. -/
opaque homeSlice : Nat → Nat
opaque dirSet : Nat → Nat
opaque l2Hash : Nat → Nat
opaque switchSet : Nat → Nat

/-- FREE VALUE (log 1). What the firmware of a version sets at bring-up (R77): the bins' T and the replicas' retries. -/
opaque binTimer : BitVec 64 → BitVec 16
opaque retries : BitVec 64 → BitVec 3

/-- Salvage records that an area holds (R370). -/
def salvageRecords : Nat := 4194304

/-- Slots of a core's matrix input queue (R113). -/
def matrixQueue : Nat := 8
/-- Entries of one engine context's queue (R237). -/
def contextQueue : Nat := 16
/-- Entries of a core's range scoreboard (R243). -/
def rangeEntries : Nat := 16
/-- Depth of a split's reconvergence stack (R114). -/
def stackDepth : Nat := 32
/-- The safe-point bound (R443). -/
def safeBound : Nat := 4096
/-- The age at which a ready split becomes urgent (R112). -/
def urgentAge : Nat := 192
/-- Miss-status entries of a core that any request may take, and those kept for aged ones (R220). -/
def mshrOrdinary : Nat := 252
def mshrReserved : Nat := 4
/-- L2 slices of a die, and the ways of a set of a directory, an L2 slice and a snoop filter (R358, R366). -/
def slices : Nat := 80
def ways : Nat := 16
/-- Sets of a directory slice (R358), of a home switch's snoop filter of 8,388,608 entries (R366), and the entries of the
I/O die's filter (R368). -/
def dirSets : Nat := 1024
def switchSets : Nat := 524288
def hostFilter : Nat := 65536
/-- Entries of a TLB group (R215). -/
def tlbEntries : Nat := 16384
/-- Mesh cycles that a line of a tiled page stays in an L1 (R231), and the mesh clock in MHz (R9). -/
def tiledLineLife : Nat := 65535
def meshClock : Nat := 2400
/-- Bytes of the salvage area in each die's memory (R370). -/
def salvageBytes : Nat := 671088640
/-- Entries of a core's wick record (R351) and of its record of own lines (R347). -/
def wickRecord : Nat := 64
def ownLines : Nat := 32
/-- Lines of a deterministic team's write buffer (R391). -/
def bufferLines : Nat := 1024
/-- Places of the device-launch store (R76). -/
def deviceStore : Nat := 4096
/-- Bytes of one die's block of device HBM (R481) and of the whole module (R212). -/
def dieBytes : Nat := 128000000000
def hbmBytes : Nat := 512000000000

end Sys2Proof.Config
end

