-- ==== Sys2Proof/Machine/Store.lean ====
section
/-! DEFINITION. Sparse maps with natural-number keys. `AMap` holds one entry for each key ever written, keys rising, and is
read with the value of an absent key given. `Store` is the canonical form used for memory: no entry holds zero, and a key
that is not listed reads zero. -/

namespace Sys2Proof.Machine

/-- A map as a list of entries, keys strictly rising. -/
abbrev AMap (α : Type) := List (Nat × α)

/-- The entry of a key, or `d` where there is none. -/
def AMap.get {α : Type} (d : α) : AMap α → Nat → α
  | [], _ => d
  | (k, v) :: r, a => if a = k then v else AMap.get d r a

/-- Write one entry. -/
def AMap.set {α : Type} : AMap α → Nat → α → AMap α
  | [], a, x => [(a, x)]
  | (k, v) :: r, a, x =>
    if a = k then (a, x) :: r else if a < k then (a, x) :: (k, v) :: r else (k, v) :: AMap.set r a x

/-- Drop the entry of a key. -/
def AMap.drop {α : Type} : AMap α → Nat → AMap α
  | [], _ => []
  | (k, v) :: r, a => if a = k then AMap.drop r a else (k, v) :: AMap.drop r a

/-- Is there an entry for this key? -/
def AMap.has {α : Type} (m : AMap α) (a : Nat) : Bool := m.any (fun e => e.1 == a)
/-- The keys, rising. -/
def AMap.keys {α : Type} (m : AMap α) : List Nat := m.map Prod.fst
/-- Change every entry. -/
def AMap.mapVals {α : Type} (f : Nat → α → α) (m : AMap α) : AMap α := m.map (fun e => (e.1, f e.1 e.2))

/-- Words of `w` bits by address, in canonical form: addresses strictly rising, no entry zero. -/
abbrev Store (w : Nat) := List (Nat × BitVec w)

/-- The word at an address; an unlisted address reads zero. -/
def Store.get {w : Nat} : Store w → Nat → BitVec w
  | [], _ => 0
  | (k, v) :: r, a => if a = k then v else Store.get r a

/-- Write one word, keeping the canonical form: a zero leaves no entry. -/
def Store.set {w : Nat} : Store w → Nat → BitVec w → Store w
  | [], a, x => if x = 0 then [] else [(a, x)]
  | (k, v) :: r, a, x =>
    if a = k then (if x = 0 then r else (a, x) :: r)
    else if a < k then (if x = 0 then (k, v) :: r else (a, x) :: (k, v) :: r)
    else (k, v) :: Store.set r a x

/-- Are all addresses above a bound, rising, and no entry zero? -/
def Store.wfFrom {w : Nat} (lo : Nat) : Store w → Bool
  | [] => true
  | (k, v) :: r => decide (lo ≤ k) && !(v == 0) && Store.wfFrom (k + 1) r

/-- The canonical form. -/
def Store.wf {w : Nat} (m : Store w) : Bool := Store.wfFrom 0 m

end Sys2Proof.Machine
end

