-- ==== Sys2Proof/Machine/State.lean ====
section
/-! DEFINITION. The state of the GX-480 as plain data, the reasons a step can stop, and the state after reset. Groups,
teams, clusters, grids and cores are entries of maps keyed by number: group 32 × team + index, team 12 × cluster +
position, core 72 × die + core. A line is named by its physical address divided by 128, with the kind of R212 above the
offset. -/

namespace Sys2Proof.Machine

/-- Why a step stops. -/
inductive Fault where
  /-- Raised by a step of the table that has no word, when the state holds nothing it could act on (an answer nobody
  waits for, a grid that cannot retire yet): such a step does not occur in that state. Safe: the model stops. -/
  | notEnabled
  deriving DecidableEq, Repr

/-- Why an instruction has no meaning here. -/
inductive Refusal where
  /-- Raised by an arm of `exec` for an instruction that is not modelled. Safe: the model stops. -/
  | notModelled (mnemonic : String)
  deriving DecidableEq, Repr

/-- A register a result can go to or a source can come from (R18). -/
inductive Reg where
  | v (n : Nat)
  | g (n : Nat)
  | p (n : Nat)
  | q (n : Nat)
  /-- GMODE, ROLE and the lanes' SCOUNT, whose changes have no latency but can be cancelled (R88, R439) -/
  | mode
  | role
  | scount
  deriving DecidableEq, Repr

/-- A serialised arm or a return (R114, R144): the innermost entry is the head of a split's stack. -/
structure StackEntry where
  pc : Addr
  mask : Mask
  stop : Addr
  deriving DecidableEq, Repr

/-- What a split that is not ready waits for (R109), with the operands it took at issue (R90). -/
inductive Wait where
  /-- `bar` or `barw`: until this phase of the barrier completes, the target phase of the member itself or else the phase that was
  current at issue (R409) -/
  | barrier (level num : Nat) (phase : Word) (own : Bool)
  /-- `tlw`: until the counter of a context reaches the value (R326) -/
  | timeline (ctx : Nat) (n : DWord)
  /-- `twt`: until the header at this physical address shows READY (R414) -/
  | ready (va : Nat)
  /-- `dsync`: until the serial phase sets PERIOD to this (R418) -/
  | period (n : Word)
  /-- a `spawn` with these argument words left to place, and g0 to g15 as it read them (R20, R70, R90) -/
  | spawn (left : List (BitVec 128)) (target : Addr) (g : List DWord)
  /-- a synchronising operation before its turn (R392) -/
  | turn
  /-- an access held until the serial phase (R391, R393, R394): the lines private to another team that it reaches -/
  | held (lines : List Nat)
  /-- writes of some lines for which the team's buffer has no room, stopped until the serial phase (R393) -/
  | full (lines : List Nat)
  /-- an acquire that has read what a team of another grid, a deterministic one, released in this period of it: until that
  grid's serial phase (R394) -/
  | phase (grid : Nat) (period : Word)
  /-- a replica before its partners' signatures (R381) -/
  | compare
  /-- a replica before its partners' operands or the forwarded result (R386, R403) -/
  | rendezvous
  /-- an access to bytes that another group holds unverified (R374) -/
  | line (line : Nat)
  /-- an access to bytes of a team's scratch that lie under the range scoreboard (R244) -/
  | range (team off n : Nat)
  /-- an access to a tile whose LOCK is set (R235) -/
  | lock (header : Nat)
  /-- a fill into an L1 that has no room for these lines (R375, R377) -/
  | room (lines : List Nat)
  /-- a demand on a core, for a covered line that is unverified (R374) -/
  | demand (core : Nat) (epoch : BitVec 20)
  /-- the group's AtomicOps that have not returned: those that acquire, or all of them (R277, R340) -/
  | atomics (all : Bool)
  deriving DecidableEq, Repr

/-- The registers of a group (R18, R165, R392, R438). -/
structure Regs where
  v : AMap Word := []
  g : AMap DWord := []
  p : AMap Mask := []
  q : BitVec 8 := 0
  acc : AMap Word := []
  openAcc : BitVec 8 := 0
  gmode : Word := 0
  role : BitVec 2 := 0
  scount : AMap Word := []
  clock : DWord := 0
  tseq : Word := 0
  deriving DecidableEq, Repr

/-- Demotion (R121 to R123): the hold set, the place in the order of releases while the split has not issued since, and the
number of the instruction that demoted it (R439). -/
structure Demotion where
  held : Bool := false
  set : BitVec 4 := 0
  released : Option Nat := none
  by_ : Option Word := none
  deriving DecidableEq, Repr

/-- What the slots know of a split (R87, R112, R118, R147). -/
structure Sched where
  bound : Nat := 0
  age : Nat := 0
  urgent : Bool := false
  parked : Bool := false
  stopped : Option Nat := none
  deriving DecidableEq, Repr

/-- A split (R16, R114). -/
structure Split where
  live : Bool := false
  pc : Addr := 0
  mask : Mask := 0
  stack : List StackEntry := []
  chain : List Addr := []
  rpc : Option Addr := none
  dist : Nat := 0
  rel : Option Nat := none
  demo : Demotion := {}
  sched : Sched := {}
  wait : Option Wait := none
  num : Option Word := none
  token : Bool := false
  word : Option Word := none
  /-- the latest instruction of the split whose effects R439 cannot cancel any more -/
  solid : Option Word := none
  /-- the registers as an issued instruction that waits has read them (R90) -/
  taken : Option Regs := none
  deriving DecidableEq, Repr

/-- A barrier of any level (R407 to R410): the five counters of a count barrier lie in the layout of R410. -/
structure Barrier where
  phase : Word := 0
  count : Bool := false
  expected : DWord := 0
  counted : DWord := 0
  pending : Option DWord := none
  /-- the members counted in the phase -/
  arrived : List Nat := []
  /-- arrivals held for later phases, oldest first: the member, or none for an engine, and the counter 0 to 4 -/
  next : List (Option Nat × Nat) := []
  /-- the target phase of each member (R408) -/
  targets : AMap Word := []
  /-- groups that join at the next phase (R354) -/
  joining : List Nat := []
  deriving DecidableEq, Repr

/-- The part of a group that a checkpoint holds (R383). -/
structure Context where
  regs : Regs := {}
  splits : AMap Split := []
  bar : Barrier := {}
  deriving DecidableEq, Repr

/-- A fault that waits for delivery (R440). -/
structure PendingFault where
  slot : Nat
  cls : Nat
  detail : Nat
  pc : Addr
  mask : Mask
  tseq : Word
  adda : Addr
  addb : Addr
  deriving DecidableEq, Repr

/-- A result in flight (R88, R89): when it becomes readable, if that is fixed, and what the register held before. An
entry stays while an older result of the split is outstanding, so that R439 can cancel it; `before` is the split before
an instruction of variable latency. -/
structure Inflight where
  reg : Reg
  slot : Nat
  tseq : Word
  ready : Option Nat
  old : BitVec 1024
  lanes : Mask
  demotes : Bool := false
  /-- slots divided off the writing split since (R116): the write is their own too -/
  also : BitVec 4 := 0
  before : Option Split := none
  deriving DecidableEq, Repr

/-- Where a group runs (R16, R17, R20). -/
structure Place where
  core : Nat := 0
  threads : Mask := 0
  entry : Addr := 0
  deriving DecidableEq, Repr

/-- One rendezvous of the atomic log (R388). -/
structure LogEntry where
  word : Word
  mask : Mask
  number : Nat
  ops : List DWord
  result : DWord
  addrs : List Nat
  operands : List (BitVec 256)
  results : List (BitVec 128)
  /-- the bytes of a launch record, which agree with the operands and are not kept in the log (R154) -/
  record : List (BitVec 256) := []
  deriving DecidableEq, Repr

/-- A tile (R221): the physical addresses of its header and of its first byte, its size class s − 5, and the virtual
address of its first byte. -/
structure TileRef where
  header : Nat
  base : Nat
  cls : Nat
  va : Nat
  deriving DecidableEq, Repr

/-- What a leader forwards to a follower over the replica wires (R386, R403, R478). -/
inductive Forward where
  | result (e : LogEntry)
  /-- the value of an `lda`, or the clock that a `dclk` reads, with the instruction's place in the group's stream -/
  | value (at_ : DWord) (x : DWord)
  deriving DecidableEq, Repr

/-- A write that a replica holds until its compare (R478). -/
structure HeldWrite where
  /-- its pieces in order: physical address, bytes, value -/
  parts : List (Nat × Nat × Nat)
  /-- none for a plain host write; one tile for a store that goes to its home; two for a paired store -/
  tiles : List TileRef := []
  /-- the edit of a shade command (R333): the instruction and its operands -/
  shade : Option (Instr × List DWord) := none
  /-- does a hardware error tear the pair when it is performed (R478, R236)? -/
  torn : Bool := false
  /-- has an engine command of the replica made it (R333), and for a shade command its number and the TSEQ of its instruction -/
  engine : Bool := false
  num : Nat := 0
  tseq : Word := 0
  deriving DecidableEq, Repr

/-- A completed engine command that a signature has not taken in (R379, R380). -/
structure EngineRec where
  ctx : Nat
  num : Nat
  crc : DWord
  /-- TSEQ of the instruction that issued it: the records go in program order -/
  tseq : Word := 0
  acquired : Bool := false
  /-- the counted barrier that its arrival counts at, and the phase (R258) -/
  bar : Option (Nat × Word) := none
  deriving DecidableEq, Repr

/-- The trap registers (R21). -/
structure TrapRegs where
  tcause : BitVec 16 := 0
  trappc : Addr := 0
  tmask : Mask := 0
  tadda : Addr := 0
  taddb : Addr := 0
  tseq : Word := 0
  deriving DecidableEq, Repr

/-- A checkpoint of a replica (R383, R388, R451): the group's context, its rendezvous and `safe` counts, what a handler
needs, whether the instruction that it names has compared, with success, already, and how far its clock has jumped. -/
structure Checkpoint where
  ctx : Context
  number : Nat := 0
  safes : Nat := 0
  handler : Option (Nat × Nat) := none
  trap : TrapRegs := {}
  skip : Bool := false
  jumped : DWord := 0
  deriving DecidableEq, Repr

/-- What a replicated group keeps (R378 to R388, R478). -/
structure Replica where
  /-- the replica that leads the group (R372, R385) -/
  leader : Nat := 0
  sig : DWord := 0
  atomics : Word := 0
  /-- the closed signature sent over the wires, while the compare is open -/
  sent : Option DWord := none
  /-- is it a forced compare that comes before the instruction itself (R387, R478)? -/
  forced : Bool := false
  /-- rendezvous performed since the group started (R388) -/
  number : Nat := 0
  /-- operands sent for the open rendezvous -/
  operands : Option LogEntry := none
  /-- the number of a rendezvous whose operands have agreed, for the replica that performs it -/
  agreed : Option Nat := none
  /-- on its way from the leader, oldest first -/
  due : List Forward := []
  /-- consecutive mismatches at the present compare (R384) -/
  retries : Nat := 0
  log : List LogEntry := []
  check : Option Checkpoint := none
  /-- does a restart from the checkpoint meet a compare that has matched before (R384, R451)? -/
  again : Bool := false
  /-- the cycle in which the open wait for the partners began (R382, R386, R403) -/
  since : Nat := 0
  /-- values the leader has forwarded, oldest first, each with its place in the group's stream (R403) -/
  forwarded : List (DWord × DWord) := []
  /-- by how much releases from waits have moved the logical clock past the retired instructions (R392, R418) -/
  jumped : DWord := 0
  writes : List HeldWrite := []
  /-- the compare of R385 that counts as already matched -/
  skip : Bool := false
  /-- a non-finite trap held until the next compare: its pc and TSEQ (R449) -/
  nft : Option (Addr × Word) := none
  /-- completed engine commands of the group, not yet folded (R380) -/
  engine : List EngineRec := []
  /-- `safe` instructions executed, and the count at which all replicas stop (R148) -/
  safes : Nat := 0
  stopAt : Option Nat := none
  deriving DecidableEq, Repr

/-- A group (R15, R18). -/
structure Group where
  live : Bool := false
  ctx : Context := {}
  trap : TrapRegs := {}
  handler : Option (Nat × Nat) := none
  pending : List PendingFault := []
  inflight : List Inflight := []
  place : Place := {}
  /-- stopped by a non-finite trap: its pc and TSEQ (R449) -/
  nft : Option (Addr × Word) := none
  /-- has it read in this period what a release of another team wrote (R394)? -/
  heard : Bool := false
  /-- the same of other, deterministic grids, each with its period (R394) -/
  heardOf : List (Nat × Word) := []
  /-- is its next instruction the first since a resumption, an acquire at device scope (R446)? -/
  resumed : Bool := false
  repl : Replica := {}
  deriving DecidableEq, Repr

/-- How a command's guard stood when it took its number (R127). -/
inductive Guard where
  | runs
  | discarded
  | pending (q : Nat)
  deriving DecidableEq, Repr

/-- An engine command in its context's queue (R237 to R242): the instruction, the operands read at issue, and for a started
command what is left for its completion. -/
structure Cmd where
  num : Nat
  op : Instr
  gid : Nat
  slot : Nat
  mask : Mask := 0
  ops : List DWord := []
  lanes : List Word := []
  data : List Word := []
  guard : Guard := .runs
  /-- was its guard pending when it took its number (R127)? -/
  held : Bool := false
  /-- has its grid ended while it was held, so that it is discarded when its guard resolves (R129)? -/
  dropped : Bool := false
  /-- a drain whose block the matrix engine has not read yet (R310, R312) -/
  waits : Bool := false
  started : Bool := false
  done : Bool := false
  crc : DWord := 0
  /-- a collective's share as posted, its result once every participant has posted, and the bytes already written
  (R328, R260) -/
  share : List Byte := []
  result : Option (List Byte) := none
  sent : Nat := 0
  /-- the entries of its participant table, its rank, its priority and its place in posting order (R327, R260) -/
  table : List Nat := []
  rank : Nat := 0
  prio : Nat := 0
  order : Nat := 0
  tseq : Word := 0
  /-- the issuing group's logical clock (R392) -/
  clock : DWord := 0
  /-- writes that enter a deterministic team's buffer at completion (R391): physical address, bytes, value -/
  pend : List (Nat × Nat × Nat) := []
  /-- the commands of the team for which the program had not waited at its issue (context and number), and the numbers issued
  by then in each context: it does not see what others of them and later ones write (R240) -/
  blind : List (Nat × Nat) := []
  upTo : List Nat := []
  deriving DecidableEq, Repr

/-- An engine context of a team (R237, R238). -/
structure EngineCtx where
  counter : DWord := 0
  issued : DWord := 0
  queue : List Cmd := []
  deriving DecidableEq, Repr

/-- A buffered write of a deterministic team (R391): bytes of one line. -/
structure BufWrite where
  line : Nat
  mask : BitVec 128
  data : BitVec 1024
  /-- the writing group, or 32 + the engine context -/
  agent : Nat
  num : Nat
  deriving DecidableEq, Repr

/-- A command that has been issued and for which the program has not waited (R240): its context, its number, and once it has
completed the barrier that counts it, with the phase. -/
structure Unwaited where
  ctx : Nat
  num : Nat
  bar : Option (Nat × Word) := none
  deriving DecidableEq, Repr

/-- A byte that a command has written, where it lies (scratch beyond memory), what it held before and what it got (R240). -/
structure Unseen where
  ctx : Nat
  num : Nat
  key : Nat
  old : BitVec 8
  new : BitVec 8
  deriving DecidableEq, Repr

/-- A team (R15). -/
structure Team where
  live : Bool := false
  ended : Bool := false
  groups : Nat := 0
  bytes : Nat := 0
  core : Nat := 0
  barriers : AMap Barrier := []
  ctxs : AMap EngineCtx := []
  cprio : BitVec 16 := 0xFFFF
  run : Nat := 0
  wbuf : List BufWrite := []
  /-- what its commands do not see of each other (R240) -/
  unwaited : List Unwaited := []
  unseen : List Unseen := []
  deriving DecidableEq, Repr

/-- Where a cluster stands (R60, R65, R446). -/
inductive Activity where
  | active
  | parked
  | saved
  | ended
  deriving DecidableEq, Repr

/-- A bin (R68 to R71): at most 32 threads of four words, oldest first. -/
structure Bin where
  team : Nat := 0
  entry : Addr := 0
  threads : List (BitVec 128) := []
  timer : Nat := 0
  g : List DWord := []
  order : Nat := 0
  /-- its group is to start as soon as it can (R69): full, flushed, or its timer at 0 -/
  due : Bool := false
  deriving DecidableEq, Repr

/-- A cluster (R15, R60). -/
structure Cluster where
  live : Bool := false
  grid : Nat := 0
  cluidx : Nat := 0
  replica : Nat := 0
  die : Nat := 0
  /-- top-left core of its rectangle -/
  origin : Nat := 0
  act : Activity := .active
  /-- a stop request, and the cycle it came (R444) -/
  stop : Option Nat := none
  barriers : AMap Barrier := []
  /-- the physical address of its park or save area -/
  area : Nat := 0
  /-- bins moved to its save area (R446): the team position, the place among the bins, the bin -/
  bins : List (Nat × Nat × Bin) := []
  deriving DecidableEq, Repr

/-- One mapped page as translation holds it (R213): the leaf's fields. -/
structure Leaf where
  valid : Bool := false
  flipped : Bool := false
  rd : Bool := false
  wr : Bool := false
  large : Bool := false
  tiled : Bool := false
  sa : Bool := false
  pa : Nat := 0
  tcls : Nat := 0
  dom : Nat := 0
  hframe : Nat := 0
  deriving DecidableEq, Repr

/-- A declared range (R49). -/
structure RangeEntry where
  base : Nat := 0
  len : Nat := 0
  rights : BitVec 2 := 0
  deriving DecidableEq, Repr

/-- A dependence (R47). -/
structure Dependence where
  value : DWord := 0
  kind : Nat := 0
  index : Nat := 0
  deriving DecidableEq, Repr

/-- The launch record as read (R46), with the kernel's limits taken in. -/
structure Launch where
  entry : Nat := 0
  prio : Nat := 0
  replicas : Nat := 0
  det : Bool := false
  coresident : Bool := false
  gated : Bool := false
  width : Nat := 1
  height : Nat := 1
  groups : Nat := 1
  snuff : Word := 0
  dims : Nat × Nat × Nat := (1, 1, 1)
  regs : Nat := 128
  bytes : Nat := 0
  period : Nat := 4096
  deriving DecidableEq, Repr

/-- What the kernel's image gives a launch (R24 to R27): its text, its code pages, its register count, its handlers
and its live masks. -/
structure Kernel where
  entry : Nat := 0
  base : Nat := 0
  size : Nat := 0
  limit : Nat := 0
  /-- the vector registers that the kernel's words can name (R81) -/
  regs : Nat := 128
  handlers : List Word := []
  masks : List (BitVec 128 × BitVec 8) := []
  deriving DecidableEq, Repr

/-- Where a launch stands (R53, R56, R415, R437, R456). -/
inductive Phase where
  | waiting
  | taken
  | retired
  deriving DecidableEq, Repr

/-- How a launch ends (R51): the status and its detail once known; `failed` stops every group (R437), `snuffed` ends
each at its next `safe` (R415). -/
structure Ending where
  status : Nat := 0
  detail : Nat := 0
  failed : Bool := false
  snuffed : Bool := false
  deriving DecidableEq, Repr

/-- The submission of a launch (R44, R45, R51, R76). -/
structure Submission where
  queue : Nat := 0
  enGen : Nat := 0
  device : Bool := false
  seq : DWord := 0
  /-- physical address of the completion record, if it has one -/
  completion : Option Nat := none
  order : Nat := 0
  /-- the launching team, for dependences of kind 2 -/
  team : Nat := 0
  /-- a deterministic grid that launched it, and the period whose buffered writes its release covers (R153, R393) -/
  after : Option (Nat × Word) := none
  deriving DecidableEq, Repr

/-- The ownership of a line in a deterministic grid (R390). -/
structure Own where
  state : BitVec 2 := 0
  team : Word := 0
  deriving DecidableEq, Repr

/-- An arrival at a barrier of a deterministic grid (R394, R408): the level, the cluster with its replica or the replica, the barrier's
number, the phase that counts it, and the team that arrived. -/
structure Arrival where
  level : Nat
  place : Nat
  num : Nat
  phase : Word
  team : Nat
  deriving DecidableEq, Repr

/-- What a deterministic grid keeps (R390 to R393). -/
structure Determ where
  period : Word := 0
  /-- the arrivals of this period at cluster and grid barriers, which their waits acquire after the serial phase (R394, R409) -/
  arrived : List Arrival := []
  /-- units of eight bytes written by a release in this period, with the releasing team (R394) -/
  released : List (Nat × Nat) := []
  own : AMap Own := []
  deriving DecidableEq, Repr

/-- A grid: a launch from its reading to its retirement (R15, R46, R53 to R58). -/
structure Grid where
  live : Bool := false
  launch : Launch := {}
  kernel : Kernel := {}
  sub : Submission := {}
  deps : List Dependence := []
  ranges : List RangeEntry := []
  gating : Nat × Nat := (0, 0)
  phase : Phase := .waiting
  /-- is its lease installed (R56)? -/
  leased : Bool := false
  prio : Nat := 0
  age : Nat := 0
  asid : Nat := 0
  root : Nat := 0
  trans : AMap Leaf := []
  ending : Ending := {}
  next : Nat := 0
  barriers : AMap Barrier := []
  det : Determ := {}
  /-- team index and header addresses of its tiles, for each gated team (R74) -/
  gates : List (Nat × List Nat) := []
  deriving DecidableEq, Repr

/-- A line of an L1 (R216, R217, R231, R347, R374, R376). -/
structure L1Line where
  data : BitVec 1024 := 0
  valid : BitVec 128 := 0
  dirty : BitVec 128 := 0
  tag : Option (BitVec 20) := none
  /-- the leader group whose unverified bytes it holds -/
  owner : Option Nat := none
  /-- the cycle since which it holds unverified bytes (R375) -/
  since : Nat := 0
  /-- of a shadow line: has a compare verified it? -/
  verified : Bool := false
  /-- the address space and virtual line it is held under -/
  virt : Nat × Nat := (0, 0)
  /-- for a line of a tiled page: its tile, or one of the tiles that share it -/
  tile : Option TileRef := none
  /-- the cycle from which the present clock counts its stay, and the mesh cycles of the stay before that (R231) -/
  filled : Nat := 0
  aged : Nat := 0
  deriving DecidableEq, Repr

/-- A wick (R345). -/
structure Wick where
  v : Bool := false
  dr : Bool := false
  die : BitVec 2 := 0
  core : BitVec 7 := 0
  epoch : BitVec 20 := 0
  deriving DecidableEq, Repr

/-- One codebook slot (R174, R314): 1 KiB, and the team and run that loaded it. -/
structure Codebook where
  bytes : Store 8 := []
  loader : Option (Nat × Nat) := none
  deriving DecidableEq, Repr

/-- A matrix command in the input queue (R113, R253), with what it read at issue. -/
structure MatrixCmd where
  op : Instr
  gid : Nat
  slot : Nat
  mask : Mask
  gmode : Word
  format : Word := 0
  a : AMap Word := []
  b : AMap Word := []
  scale : AMap Word := []
  ops : List DWord := []
  tseq : Word := 0
  pc : Addr := 0
  books : AMap Codebook := []
  num : Nat := 0
  deriving DecidableEq, Repr

/-- An entry of the range scoreboard (R243): the command, the team whose scratch it covers, and the bytes from `lo` to
`hi`. -/
structure RangeLock where
  team : Nat
  ctx : Nat
  num : Nat
  scratch : Nat
  lo : Nat
  hi : Nat
  deriving DecidableEq, Repr

/-- A line request in the miss entries, or waiting for one (R220). -/
structure Miss where
  line : Nat
  /-- the group and the sequence number of its instruction, and the address of the lane that needs the line -/
  gid : Nat
  tseq : Word
  va : Nat := 0
  age : Nat := 0
  /-- holds an ordinary entry (1), a reserved entry (2), or none yet (0); 3 is a request at the home, past the L1 -/
  entry : Nat := 0
  deriving DecidableEq, Repr

/-- A core: its L1 and what is kept with it, its bins and its matrix engine. -/
structure CoreState where
  epoch : BitVec 20 := 0
  l1 : AMap L1Line := []
  /-- the shadow lines of each follower group on the core (R376) -/
  shadows : AMap (AMap L1Line) := []
  headers : AMap (BitVec 256) := []
  wickRec : List (Nat × Wick) := []
  ownRec : List Nat := []
  matrix : List MatrixCmd := []
  books : AMap Codebook := []
  locks : List RangeLock := []
  bins : AMap Bin := []
  misses : List Miss := []
  /-- a fill has found nothing but unverified lines: the group with the oldest of them, and the number of the instruction that
  its set does not issue before a forced compare (R375) -/
  full : Option (Nat × Word) := none
  deriving DecidableEq, Repr

/-- An agent's copy of a line (R356 to R363). -/
structure Copy where
  data : BitVec 1024 := 0
  dirty : BitVec 128 := 0
  claim : BitVec 128 := 0
  /-- has it reached its agent? -/
  here : Bool := true
  deriving DecidableEq, Repr

/-- A message of the coherence protocol in flight (R360 to R365, R367). -/
inductive Msg where
  /-- the home's forward to the holder -/
  | fwd (line owner : Nat)
  /-- the holder's copy on its way to the requester, with what it holds dirty -/
  | fwdData (line req : Nat) (data : BitVec 1024) (dirty : BitVec 128) (own : Bool)
  /-- a holder's dirty bytes on their way to the home; the holder keeps a clean copy or none -/
  | wbData (line sender : Nat) (data : BitVec 1024) (mask : BitVec 128) (keep : Bool)
  | inv (line agent : Nat)
  /-- the back-invalidation of an evicted line -/
  | binv (line agent : Nat)
  /-- an acknowledgement or a clean notice -/
  | invAck (line agent : Nat)
  /-- the home's grant to a requester, whose copy stands in the entry -/
  | data (line agent : Nat)
  deriving DecidableEq, Repr

/-- A request at a line's home (R360, R361). -/
inductive Request where
  | read (agent : Nat) (mask : BitVec 128)
  | own (agent : Nat) (mask : BitVec 128) (bytes : BitVec 1024)
  /-- does a write of all 128 bytes clear a poison mark (R371)? -/
  | homeWrite (mask : BitVec 128) (bytes : BitVec 1024) (clears : Bool := false)
  /-- an eviction that makes room for a request to another line (R365) -/
  | evict (line : Nat) (r : Request)
  deriving DecidableEq, Repr

/-- A directory entry (R358), or an entry of the I/O die's filter (R368): the agents' copies are kept with it. -/
structure DirEntry where
  busy : Bool := false
  cnt : BitVec 2 := 0
  ag : BitVec 6 := 0
  st : BitVec 3 := 0
  copies : AMap Copy := []
  /-- the request in service while BUSY is set, and those that wait behind it -/
  serving : Option Request := none
  waiting : List Request := []
  /-- when the home served it last (R365) -/
  used : Nat := 0
  /-- of a host line: the state of the device, as the host's one agent (R368) -/
  host : BitVec 3 := 0
  deriving DecidableEq, Repr

/-- An entry of a home switch's snoop filter (R366): a line of this module that other modules hold. -/
structure SwitchEntry where
  st : BitVec 3 := 0
  modules : List Nat := []
  used : Nat := 0
  deriving DecidableEq, Repr

/-- A translation in a TLB group (R215): for a grid, the 64 KiB page and its leaf. -/
structure TlbEntry where
  grid : Nat
  page : Nat
  leaf : Leaf
  deriving DecidableEq, Repr

/-- A wick demand in flight (R348). -/
structure Demand where
  line : Nat
  die : Nat
  core : Nat
  epoch : BitVec 20
  done : Bool := false
  deriving DecidableEq, Repr

/-- Memory and what is kept with its lines. -/
structure MemState where
  bytes : Store 8 := []
  scratch : Store 8 := []
  wicks : AMap Wick := []
  dir : AMap DirEntry := []
  /-- requests that found every way of their set busy, oldest first (R365) -/
  stalled : List (Nat × Request) := []
  /-- the home switch's filter over this module's lines, and the state in which this module holds lines of peers (R366) -/
  switch : AMap SwitchEntry := []
  peerLines : AMap (BitVec 3) := []
  /-- counts the requests served, for the order of use of entries (R365) -/
  tick : Nat := 0
  /-- the translations of each TLB group (R215) -/
  tlbs : AMap (List TlbEntry) := []
  poison : List Nat := []
  /-- poisoned lines that an engine has written whole, the write not yet performed at the home (R371) -/
  clearing : List Nat := []
  msgs : List Msg := []
  demands : List Demand := []
  /-- notices of write-backs on the replica wires: the follower core and the line (R377) -/
  notices : List (Nat × Nat) := []
  /-- cores whose epoch counter has passed a multiple of 2^18 (R347) -/
  epochDue : List Nat := []
  deriving DecidableEq, Repr

/-- A submission queue's registers and reading state (R42 to R44, R76, R477). -/
structure Queue where
  base : DWord := 0
  ctl : Word := 0
  tail : BitVec 12 := 0
  head : BitVec 12 := 0
  done : DWord := 0
  /-- QDDONE, whose DEV bit reads 1 -/
  devDone : DWord := 0x8000000000000000
  stat : Word := 0
  /-- has the reading stopped at a ring that could not be read (R477)? -/
  stopped : Bool := false
  enGen : Nat := 0
  hostNum : DWord := 0
  devNum : DWord := 0
  /-- numbers finished out of order, host and device -/
  doneSet : List DWord := []
  devSet : List DWord := []
  deriving DecidableEq, Repr

/-- One kernel of a loaded image (R25, R27): offsets in the text, its declarations and its handlers. -/
structure KernelEntry where
  entry : Nat
  limit : Nat
  regs : Nat
  replicas : Nat
  det : Bool
  rights : List Nat
  bytes : Nat
  period : Nat
  handlers : List Word
  deriving DecidableEq, Repr

/-- A kernel image loaded for an address space (R24 to R29): the address of its text, the text's bytes, its kernels and
its live masks. -/
structure Image where
  asid : Nat
  va : Nat
  text : Nat
  size : Nat
  kernels : List KernelEntry
  masks : List (BitVec 128 × BitVec 8)
  deriving DecidableEq, Repr

/-- The command processors. -/
structure CpState where
  queues : AMap Queue := []
  images : List Image := []
  lastQueue : Nat := 63
  order : Nat := 0
  binTimer : Nat := 2048
  retryLimit : Nat := 2
  nextGrid : Nat := 0
  nextCluster : Nat := 0
  /-- cancellations received and not yet performed (R415) -/
  snuffs : List Word := []
  /-- tokens whose cancellation a non-finite trap has performed, and the traps counted since (R449) -/
  nftTokens : AMap Nat := []
  /-- launches held in the device-launch store (R76) -/
  stored : Nat := 0
  deriving DecidableEq, Repr

/-- Atomic operations of one instruction on their way to the host over plain PCIe (R219, R472, R473): per lane the physical
address and the operand. -/
structure HostAtomic where
  gid : Nat
  slot : Nat
  tseq : Word
  /-- OP of R100, bytes of the unit, first register, and whether the old value returns -/
  op : Nat
  bytes : Nat
  reg : Nat
  returns : Bool
  pc : Addr
  lanes : List (Nat × Nat × Nat)
  /-- the scope at which it acquires (R277) -/
  acq : Option Nat := none
  /-- of a replicated group: the rendezvous that its completion ends, with the results of the lanes done at their homes (R386) -/
  entry : Option LogEntry := none
  deriving DecidableEq, Repr

/-- The host link and the registers of BAR0 (R458 to R460, R479). -/
structure HostLink where
  svc : Word := 0
  modnum : Word := 0
  link : Word := 0
  leasecap : DWord := 0
  asidtab : DWord := 0
  /-- AtomicOp Requester Enable of PCI Express (R473) -/
  atomicEn : Bool := false
  atomics : List HostAtomic := []
  /-- pages the host's own tables hold valid (R218): ASID and page -/
  hostPages : List (Nat × Nat) := []
  /-- answers to host accesses, newest first: the data, if the answer carries any, and whether it is poisoned -/
  answers : List (Option (BitVec 1024) × Bool) := []
  deriving DecidableEq, Repr

/-- A record of the event log (R464). -/
structure LogRecord where
  seq : DWord
  count : DWord
  kind : BitVec 16
  die : BitVec 8
  core : BitVec 8
  detail : Word
  value : DWord
  deriving DecidableEq, Repr

/-- A firmware slot (R467). -/
structure Firmware where
  version : DWord := 0
  valid : Bool := false
  pending : Bool := false
  deriving DecidableEq, Repr

/-- Lamplighter (R462 to R468). -/
structure Lamp where
  /-- the cycles from power-on to the last reset: its count runs on over a reset (R464) -/
  powered : Nat := 0
  /-- the records since power-on, newest first: the RAM and the flash keep the most recent of them (R464) -/
  log : List LogRecord := []
  seq : DWord := 0
  slotA : Firmware := { valid := true }
  slotB : Firmware := {}
  /-- the slot that runs, 0 A or 1 B -/
  active : Nat := 0
  /-- does a slot that was pending run for the first time, short of reduced service (R467)? -/
  trial : Bool := false
  /-- has a shutdown taken the device out of service until the next reset (R463)? -/
  down : Bool := false
  /-- arithmetic clock of each die in MHz -/
  clocks : List Nat := [0, 0, 0, 0]
  /-- the stacks whose refresh interval is halved, two for each die, the lower one first (R463) -/
  halved : List Nat := []
  retired : List Nat := []
  unreachable : List Nat := []
  failed : List Nat := []
  deriving DecidableEq, Repr

/-- A peer add in flight (R255): the sending command and the values of its block. -/
structure PeerMsg where
  team : Nat
  num : Nat
  /-- the sending group and its logical clock (R255) -/
  gid : Nat
  clock : DWord
  target : Nat
  block : Nat
  mask : Mask
  data : List Word
  deriving DecidableEq, Repr

/-- A share of a collective that another module has posted (R327): the table it names, its rank, kind, control word and
bytes. -/
structure RemotePost where
  table : List Nat
  rank : Nat
  kind : Nat
  control : DWord
  bytes : List Byte
  deriving DecidableEq, Repr

/-- The model's own counters: the cycle of the issue slots, the next free value, the next turn of the slots, and the releases
from demotion so far (R110). -/
structure Clockwork where
  cycle : Nat := 0
  free : Nat := 0
  turn : Nat := 0
  releases : Nat := 0
  deriving DecidableEq, Repr

/-- The machine. -/
structure State where
  /-- the group and the split slot whose instruction is executed -/
  gid : Nat
  slot : Nat
  groups : AMap Group
  teams : AMap Team
  clusters : AMap Cluster
  grids : AMap Grid
  cores : AMap CoreState
  mem : MemState
  cp : CpState
  host : HostLink
  lamp : Lamp
  peers : List PeerMsg
  posts : List RemotePost
  time : Clockwork
  events : List Instr
  deriving DecidableEq, Repr

/-- The machine right after reset: SVC.LEVEL 0, no grid, no image, memory with nothing listed. -/
def State.reset : State where
  gid := 0
  slot := 0
  groups := []
  teams := []
  clusters := []
  grids := []
  cores := []
  mem := {}
  cp := {}
  host := {}
  lamp := {}
  peers := []
  posts := []
  time := {}
  events := []

end Sys2Proof.Machine
end

