-- ==== Sys2Proof/Machine/Phases.lean ====
section
/-! DEFINITION. The phases of a barrier (R258, R407 to R410): counting an arrival, holding one for a later phase, and completing a
phase. -/

namespace Sys2Proof.Machine

/-- The counters of R410: 0 to 3 by role, 4 for engines. -/
def counter (x : DWord) (k : Nat) : Nat := if k = 4 then (x.extractLsb' 32 16).toNat else (x.extractLsb' (8 * k) 8).toNat
def counterBit (k : Nat) : Nat := if k = 4 then 32 else 8 * k
def addCounter (x : DWord) (k : Nat) : DWord := x + BitVec.ofNat 64 (2 ^ counterBit k)
/-- A setting that returns to membership mode (R410). -/
def settingOff (x : DWord) : Bool := x.getLsbD 63

/-- Is a phase complete (R258, R407)? Members that join later do not count; when only such are left, the phase ends. -/
def Barrier.complete (b : Barrier) (members : List Nat) : Bool :=
  if b.count then (List.range 5).all fun k => decide (counter b.expected k ≤ counter b.counted k)
  else
    let here := members.filter fun m => !b.joining.contains m
    !members.isEmpty && here.all b.arrived.contains && (!b.arrived.isEmpty || here.isEmpty)

/-- Does the current phase count an arrival (R258, R408): a member only once (log 58), and in count mode as far as its counter goes? -/
def Barrier.counts (b : Barrier) (member : Option Nat) (k : Nat) : Bool :=
  (match member with
   | some m => !b.arrived.contains m && (b.count || !b.joining.contains m)
   | none => b.count) &&
  (!b.count || decide (counter b.counted k < counter b.expected k))
/-- Count one arrival in the current phase, or hold it (R258, R408). -/
def Barrier.arriveOne (b : Barrier) (member : Option Nat) (k : Nat) : Barrier :=
  if b.counts member k then
    { b with counted := if b.count then addCounter b.counted k else b.counted, arrived := b.arrived ++ member.toList }
  else { b with next := b.next ++ [(member, k)] }

/-- A phase ends (R407, R410): counts return to 0, a pending setting takes effect, those who joined are members, and held
arrivals are counted as far as they go. -/
def Barrier.nextPhase (b : Barrier) : Barrier :=
  let c : Barrier := { b with phase := b.phase + 1, counted := 0, arrived := [], next := [], joining := [], pending := none }
  let c := match b.pending with
    | some x => if settingOff x then { c with count := false, expected := 0 } else { c with count := true, expected := x }
    | none => c
  let c := b.next.foldl (fun c e => c.arriveOne e.1 e.2) c
  { c with targets := c.arrived.foldl (fun l m =>
    if AMap.has l m && !c.next.any (fun e => e.1 == some m) then AMap.set l m c.phase else l) c.targets }

/-- The phases in which the held arrivals of members will be counted, by the settings as they stand (R408, R410). -/
def Barrier.foretold : Nat → Barrier → List (Nat × Word)
  | 0, _ => []
  | n + 1, b => if b.next.isEmpty then [] else
      let c := b.nextPhase
      (c.arrived.map fun m => (m, c.phase)) ++ Barrier.foretold n c
/-- A phase that is not in sight: no setting in effect or pending counts the arrival, until a `barc` gives it one (DESIGN CHOICE,
log 58). -/
def Barrier.never (b : Barrier) : Word := b.phase + 2 ^ 30
/-- The target phase of a member with a held arrival: that of its last one. -/
def Barrier.heldTarget (b : Barrier) (m : Nat) : Word :=
  (((Barrier.foretold (b.next.length + 1) b).filter fun e => e.1 == m).getLast?.map Prod.snd).getD b.never
/-- The phase that counts the last of the held arrivals of engines. -/
def Barrier.engineTarget : Nat → Barrier → Word
  | 0, b => b.never
  | n + 1, b =>
    let c := b.nextPhase
    if c.next.any fun e => e.1.isNone then Barrier.engineTarget n c else c.phase
/-- The phase in which an arrival counts (R258, R408): the current one, or the one that takes the arrivals held before it and
then it. -/
def Barrier.target (b : Barrier) (member : Option Nat) (k : Nat) : Word :=
  if b.counts member k then b.phase
  else
    let c := b.arriveOne member k
    match member with
    | some m => c.heldTarget m
    | none => Barrier.engineTarget (c.next.length + 1) c
/-- The target phases of held arrivals follow a setting that has changed (R408, R410). -/
def Barrier.retarget (b : Barrier) : Barrier :=
  { b with targets := (b.next.filterMap Prod.fst).foldl (fun l m =>
    if AMap.has l m then AMap.set l m (b.heldTarget m) else l) b.targets }

/-- Complete phases as long as they are complete. -/
def Barrier.settle : Nat → List Nat → Barrier → Barrier
  | 0, _, b => b
  | n + 1, m, b => if b.complete m then Barrier.settle n m b.nextPhase else b

/-- Two members of a group barrier become one, as their splits merge (R119, R354; DESIGN CHOICE, log 52): it has arrived where
either has, and has the target of the lower slot, or else the other's. -/
def Barrier.unite (b : Barrier) (keep gone : Nat) : Barrier :=
  let name := fun m => if m = gone then keep else m
  { b with
    arrived := (b.arrived.map name).eraseDups
    next := b.next.map fun e => (e.1.map name, e.2)
    joining := (b.joining.map name).eraseDups
    targets := if AMap.has b.targets gone then
        (let l := AMap.drop b.targets gone
         if AMap.has l keep then l else AMap.set l keep (AMap.get 0 b.targets gone))
      else b.targets }

end Sys2Proof.Machine
end

