-- ==== Sys2Proof/Machine/Access.lean ====
section
/-! DEFINITION. The accessors of the state: the executing group, its split, its team, cluster, grid and core; and the
register files of a group, each read and written in one place. -/

namespace Sys2Proof.Machine

/-- The outcome of a meaning. -/
abbrev Out := Host.Outcome State Fault Refusal

/-- Vector register n, lane l (R18). -/
def Regs.getV (r : Regs) (n l : Nat) : Word := AMap.get 0 r.v (32 * n + l)
def Regs.setV (r : Regs) (n l : Nat) (x : Word) : Regs := { r with v := AMap.set r.v (32 * n + l) x }
/-- Write one register in the lanes of a mask. -/
def Regs.setLanesFrom (r : Regs) (n : Nat) (m : Mask) (f : Nat → Word) : List Nat → Regs
  | [] => r
  | l :: ls => Regs.setLanesFrom (if m.has l then r.setV n l (f l) else r) n m f ls
def Regs.setLanes (r : Regs) (n : Nat) (m : Mask) (f : Nat → Word) : Regs := r.setLanesFrom n m f lanes
/-- Group register n. -/
def Regs.getG (r : Regs) (n : Nat) : DWord := AMap.get 0 r.g n
def Regs.setG (r : Regs) (n : Nat) (x : DWord) : Regs := { r with g := AMap.set r.g n x }
/-- Lane predicate n as a mask: p0 reads all-true and ignores writes (R18). -/
def Regs.getP (r : Regs) (n : Nat) : Mask := if n = 0 then 0xFFFFFFFF#32 else AMap.get 0 r.p n
/-- Write a lane predicate in the lanes of a mask. -/
def Regs.setP (r : Regs) (n : Nat) (m x : Mask) : Regs :=
  if n = 0 then r else { r with p := AMap.set r.p n ((AMap.get 0 r.p n &&& ~~~m) ||| (x &&& m)) }
/-- Group predicate n: q0 reads true and ignores writes (R18). -/
def Regs.getQ (r : Regs) (n : Nat) : Bool := if n = 0 then true else r.q.getLsbD n
def Regs.setQ (r : Regs) (n : Nat) (b : Bool) : Regs :=
  if n = 0 then r else
    { r with q := (r.q &&& ~~~(1#8 <<< n)) ||| (if b then 1#8 <<< n else 0) }
/-- Element (row, column) of accumulator block b (R252). -/
def Regs.getAcc (r : Regs) (b row col : Nat) : Word := AMap.get 0 r.acc (256 * b + 8 * row + col)
def Regs.setAcc (r : Regs) (b row col : Nat) (x : Word) : Regs :=
  { r with acc := AMap.set r.acc (256 * b + 8 * row + col) x }
/-- The rounding counter of a lane (R165). -/
def Regs.getSc (r : Regs) (l : Nat) : Word := AMap.get 0 r.scount l
def Regs.setSc (r : Regs) (l : Nat) (x : Word) : Regs := { r with scount := AMap.set r.scount l x }

/-- The executing group. -/
def State.grp (s : State) : Group := AMap.get {} s.groups s.gid
def State.setGrp (s : State) (g : Group) : State := { s with groups := AMap.set s.groups s.gid g }
/-- Its registers. -/
def State.regs (s : State) : Regs := s.grp.ctx.regs
def State.setRegs (s : State) (r : Regs) : State := s.setGrp { s.grp with ctx := { s.grp.ctx with regs := r } }
/-- The executing split. -/
def State.splitAt (s : State) (slot : Nat) : Split := AMap.get {} s.grp.ctx.splits slot
def State.spl (s : State) : Split := s.splitAt s.slot
def State.setSplitAt (s : State) (slot : Nat) (x : Split) : State :=
  s.setGrp { s.grp with ctx := { s.grp.ctx with splits := AMap.set s.grp.ctx.splits slot x } }
def State.setSpl (s : State) (x : Split) : State := s.setSplitAt s.slot x

/-- Its team: 32 groups have one team's number. -/
def State.teamId (s : State) : Nat := s.gid / 32
def State.team (s : State) : Team := AMap.get {} s.teams s.teamId
def State.teamAt (s : State) (t : Nat) : Team := AMap.get {} s.teams t
def State.setTeamAt (s : State) (t : Nat) (x : Team) : State := { s with teams := AMap.set s.teams t x }
def State.setTeam (s : State) (x : Team) : State := s.setTeamAt s.teamId x
/-- Its cluster: 12 teams have one cluster's number. -/
def State.clusterId (s : State) : Nat := s.gid / 384
def State.clusterAt (s : State) (c : Nat) : Cluster := AMap.get {} s.clusters c
def State.cluster (s : State) : Cluster := s.clusterAt s.clusterId
def State.setClusterAt (s : State) (c : Nat) (x : Cluster) : State := { s with clusters := AMap.set s.clusters c x }
/-- Its grid. -/
def State.gridId (s : State) : Nat := s.cluster.grid
def State.gridAt (s : State) (g : Nat) : Grid := AMap.get {} s.grids g
def State.grid (s : State) : Grid := s.gridAt s.gridId
def State.setGridAt (s : State) (g : Nat) (x : Grid) : State := { s with grids := AMap.set s.grids g x }
def State.setGrid (s : State) (x : Grid) : State := s.setGridAt s.gridId x
/-- Its core. -/
def State.coreId (s : State) : Nat := s.grp.place.core
def State.coreAt (s : State) (c : Nat) : CoreState := AMap.get {} s.cores c
def State.core (s : State) : CoreState := s.coreAt s.coreId
def State.setCoreAt (s : State) (c : Nat) (x : CoreState) : State := { s with cores := AMap.set s.cores c x }
def State.setCore (s : State) (x : CoreState) : State := s.setCoreAt s.coreId x
/-- A queue's registers. -/
def State.queue (s : State) (q : Nat) : Queue := AMap.get {} s.cp.queues q
def State.setQueue (s : State) (q : Nat) (x : Queue) : State :=
  { s with cp := { s.cp with queues := AMap.set s.cp.queues q x } }
/-- Let another group and split be the executing one. -/
def State.at_ (s : State) (gid slot : Nat) : State := { s with gid := gid, slot := slot }

/-- Do the modes of the grid hold (R46)? -/
def State.replicated (s : State) : Bool := decide (0 < s.grid.launch.replicas)
def State.deterministic (s : State) : Bool := s.grid.launch.det
/-- Does the executing split run a handler (R441)? -/
def State.handlerMode (s : State) : Bool :=
  match s.grp.handler with
  | some (k, _) => k == s.slot
  | none => false

/-- Position of the team in its cluster, and its index in the grid (R21). -/
def State.pos (s : State) : Nat := s.teamId % 12
def State.groupIdx (s : State) : Nat := s.gid % 32

end Sys2Proof.Machine
end

