-- ==== Sys2Proof/Machine/Numbers.lean ====
section
/-! DEFINITION. Numbers (R160 to R182): the formats, exact values, the one rounding of a result, and the correctly rounded
functions. Values are exact dyadic numbers until `roundTo` chooses a neighbour. -/

namespace Sys2Proof.Machine

/-- A floating-point format (R160, R161): its fraction width, the exponent of its last place at the bottom, its width,
the code of its largest finite magnitude, of infinity (none in e4m3) and of its canonical NaN. -/
structure Fmt where
  width : Nat
  frac : Nat
  emin : Int
  maxCode : Nat
  infCode : Option Nat
  nanCode : Nat
  deriving DecidableEq, Repr

def Fmt.f32 : Fmt := ⟨32, 23, -149, 0x7F7FFFFF, some 0x7F800000, 0x7FC00000⟩
def Fmt.bf16 : Fmt := ⟨16, 7, -133, 0x7F7F, some 0x7F80, 0x7FC0⟩
def Fmt.f16 : Fmt := ⟨16, 10, -24, 0x7BFF, some 0x7C00, 0x7E00⟩
def Fmt.e4m3 : Fmt := ⟨8, 3, -9, 0x7E, none, 0x7F⟩
def Fmt.e5m2 : Fmt := ⟨8, 2, -16, 0x7B, some 0x7C, 0x7E⟩

/-- A value: a NaN, an infinity, or ± m × 2^e exactly, zeros signed. -/
inductive Fl where
  | nan
  | inf (neg : Bool)
  | fin (neg : Bool) (m : Nat) (e : Int)
  deriving DecidableEq, Repr

/-- The value that a code stands for (R160, R161). -/
def Fmt.value (f : Fmt) (code : Nat) : Fl :=
  let neg := code.testBit (f.width - 1)
  let mag := code % 2 ^ (f.width - 1)
  if mag > f.maxCode then
    if f.infCode = some mag then .inf neg else .nan
  else
    let e := mag / 2 ^ f.frac
    let m := mag % 2 ^ f.frac
    if e = 0 then .fin neg m f.emin else .fin neg (m + 2 ^ f.frac) (f.emin + ((e : Int) - 1))

/-- Is the code a subnormal? -/
def Fmt.subnormal (f : Fmt) (code : Nat) : Bool :=
  let mag := code % 2 ^ (f.width - 1)
  decide (0 < mag) && decide (mag < 2 ^ f.frac)

/-- Read an input: under FTZ a subnormal reads as zero of its sign (R169). -/
def Fmt.input (f : Fmt) (ftz : Bool) (code : Nat) : Fl :=
  if ftz && f.subnormal code then .fin (code.testBit (f.width - 1)) 0 f.emin else f.value code

/-- Is a code a NaN or an infinity (R170)? -/
def Fmt.nonFinite (f : Fmt) (code : Nat) : Bool := decide (code % 2 ^ (f.width - 1) > f.maxCode)

/-- Put a sign on a magnitude code. -/
def Fmt.signed (f : Fmt) (neg : Bool) (mag : Nat) : Nat := if neg then mag + 2 ^ (f.width - 1) else mag

/-- How a result is rounded: the mode of R164, SAT, FTZ, and the draw of R165. -/
structure Rounding where
  rnd : Nat := 0
  sat : Bool := false
  ftz : Bool := false
  draw : Nat := 0
  deriving DecidableEq, Repr

/-- Does a magnitude go to its upper neighbour `n + 1` rather than `n` (R164, R165)? `rem` of `2^k` is the discarded part,
`sticky` says that more, less than one of its units, follows. -/
def roundsUp (r : Rounding) (neg : Bool) (n rem k : Nat) (sticky : Bool) : Bool :=
  let inexact := decide (rem ≠ 0) || sticky
  match r.rnd with
  | 0 => decide (2 * rem > 2 ^ k) || (decide (2 * rem = 2 ^ k) && (sticky || n % 2 == 1))
  | 1 => false
  | 2 => neg && inexact
  | 3 => !neg && inexact
  | 4 => decide (2 * rem ≥ 2 ^ k) && decide (0 < k)
  | _ => decide (rem * 2 ^ 32 / 2 ^ k > r.draw)

/-- The multiple of `2^u` that the magnitude `q × 2^e` rounds to. -/
def roundAt (r : Rounding) (neg : Bool) (u : Int) (q : Nat) (e : Int) (sticky : Bool) : Nat :=
  if u ≤ e then q <<< (e - u).toNat
  else
    let k := (u - e).toNat
    let n := q >>> k
    if roundsUp r neg n (q % 2 ^ k) k sticky then n + 1 else n

/-- The code of a rounded magnitude, with overflow (R166) and FTZ (R169): what is subnormal after rounding, although R182 has
every term below 2^−6 give +0 (log 54). -/
def Fmt.finish (f : Fmt) (r : Rounding) (neg : Bool) (code : Nat) : Nat :=
  if code > f.maxCode then
    let toMax := r.sat || r.rnd == 1 || (r.rnd == 2 && !neg) || (r.rnd == 3 && neg)
    if toMax then f.signed neg f.maxCode
    else match f.infCode with
      | some c => f.signed neg c
      | none => f.nanCode
  else if r.ftz && f.subnormal code then f.signed neg 0
  else f.signed neg code

/-- Round the nonzero magnitude `q × 2^e`, and a little more if `sticky`, into a format. -/
def Fmt.roundMag (f : Fmt) (r : Rounding) (neg : Bool) (q : Nat) (e : Int) (sticky : Bool) : Nat :=
  let u := max ((Nat.log2 q : Int) + e - f.frac) f.emin
  f.finish r neg ((u - f.emin).toNat <<< f.frac + roundAt r neg u q e sticky)

/-- Round a value into a format (R164 to R169). -/
def Fmt.roundTo (f : Fmt) (r : Rounding) : Fl → Nat
  | .nan => f.nanCode
  | .inf neg =>
    match f.infCode with
    | some c => f.signed neg c
    | none => if r.sat then f.signed neg f.maxCode else f.nanCode
  | .fin neg m e => if m = 0 then f.signed neg 0 else f.roundMag r neg m e false

/-- Round a value to an integer in a mode; a NaN gives none, an infinity its sign. -/
def roundInt (r : Rounding) : Fl → Option (Except Bool Int)
  | .nan => none
  | .inf neg => some (.error neg)
  | .fin neg m e =>
    let n := roundAt r neg 0 m e false
    some (.ok (if neg then -(n : Int) else n))

def Fl.neg : Fl → Fl
  | .nan => .nan
  | .inf s => .inf (!s)
  | .fin s m e => .fin (!s) m e

/-- The exact product (R168). -/
def Fl.mul : Fl → Fl → Fl
  | .nan, _ => .nan
  | _, .nan => .nan
  | .inf s, .inf t => .inf (s != t)
  | .inf s, .fin t m _ => if m = 0 then .nan else .inf (s != t)
  | .fin s m _, .inf t => if m = 0 then .nan else .inf (s != t)
  | .fin s m e, .fin t n f => .fin (s != t) (m * n) (e + f)

/-- A signed integer multiple of `2^u`, for a value whose exponent is at least `u`. -/
def Fl.units (u : Int) : Fl → Int
  | .fin s m e =>
    let n : Int := ((m <<< (e - u).toNat : Nat) : Int)
    if s then -n else n
  | _ => 0

/-- The value `n × 2^u`; an exact zero has the given sign. -/
def Fl.ofUnits (zeroNeg : Bool) (n u : Int) : Fl :=
  if n = 0 then .fin zeroNeg 0 u else .fin (decide (n < 0)) n.natAbs u

/-- The exact sum; an exact zero is −0 where every addend is −0, or where `rdn` holds (R168). -/
def Fl.add (rdn : Bool) : Fl → Fl → Fl
  | .nan, _ => .nan
  | _, .nan => .nan
  | .inf s, .inf t => if s = t then .inf s else .nan
  | .inf s, .fin _ _ _ => .inf s
  | .fin _ _ _, .inf t => .inf t
  | .fin s m e, .fin t n f =>
    let u := min e f
    let bothNeg := s && t && decide (m = 0) && decide (n = 0)
    Fl.ofUnits (bothNeg || rdn) (Fl.units u (.fin s m e) + Fl.units u (.fin t n f)) u

/-- The exact sum of a list: a NaN, or infinities of both signs, give a NaN; an exact zero is +0 unless every addend is −0
(R176). -/
def Fl.sum (l : List Fl) : Fl :=
  if l.any (· == .nan) then .nan
  else if l.any (· == .inf true) && l.any (· == .inf false) then .nan
  else if l.any (· == .inf true) then .inf true
  else if l.any (· == .inf false) then .inf false
  else
    let u : Int := l.foldl (fun u x => match x with | .fin _ _ e => min u e | _ => u) (0 : Int)
    let allNeg := l.all (fun x => match x with | .fin s m _ => s && m == 0 | _ => false)
    Fl.ofUnits allNeg (l.foldl (fun a x => a + Fl.units u x) 0) u

/-- Order of two values that are no NaN, −0 below +0 (R167, R226): is the first less? -/
def Fl.lt : Fl → Fl → Bool
  | .nan, _ => false
  | _, .nan => false
  | .inf s, .inf t => s && !t
  | .inf s, .fin _ _ _ => s
  | .fin _ _ _, .inf t => !t
  | .fin s m e, .fin t n f =>
    if m = 0 && n = 0 then s && !t
    else
      let u := min e f
      decide (Fl.units u (.fin s m e) < Fl.units u (.fin t n f))

/-- Equality of values, the zeros equal (R194). -/
def Fl.same : Fl → Fl → Bool
  | .inf s, .inf t => s == t
  | .fin s m e, .fin t n f =>
    let u := min e f
    decide (Fl.units u (.fin s m e) = Fl.units u (.fin t n f))
  | _, _ => false

/-- Minimum and maximum (R167). -/
def Fl.min (a b : Fl) : Fl := if a == .nan || b == .nan then .nan else if Fl.lt b a then b else a
def Fl.max (a b : Fl) : Fl := if a == .nan || b == .nan then .nan else if Fl.lt a b then b else a
/-- `clamp(x, lo, hi)`; a NaN stays a NaN. -/
def Fl.clamp (x lo hi : Fl) : Fl := if x == .nan then .nan else Fl.min (Fl.max x lo) hi

/-- Division (R190), rounded once. -/
def Fmt.div (f : Fmt) (r : Rounding) : Fl → Fl → Nat
  | .nan, _ => f.nanCode
  | _, .nan => f.nanCode
  | .inf _, .inf _ => f.nanCode
  | .inf s, .fin t _ _ => f.roundTo r (.inf (s != t))
  | .fin s _ _, .inf t => f.roundTo r (.fin (s != t) 0 0)
  | .fin s m e, .fin t n g =>
    if n = 0 then (if m = 0 then f.nanCode else f.roundTo r (.inf (s != t)))
    else if m = 0 then f.roundTo r (.fin (s != t) 0 0)
    else
      let k := 72 + Nat.log2 n
      let q := (m <<< k) / n
      f.roundMag r (s != t) q (e - g - k) (decide ((m <<< k) % n ≠ 0))

/-- The integer square root by bits, the given number of bits at most. -/
def isqrtFrom : Nat → Nat → Nat → Nat
  | 0, _, r => r
  | k + 1, n, r =>
    let c := r + 2 ^ k
    isqrtFrom k n (if c * c ≤ n then c else r)

def isqrt (n : Nat) : Nat := isqrtFrom (Nat.log2 n / 2 + 1) n 0

/-- Square root: −0 gives −0, any other negative value a NaN (R190). -/
def Fmt.sqrt (f : Fmt) (r : Rounding) : Fl → Nat
  | .nan => f.nanCode
  | .inf s => if s then f.nanCode else f.roundTo r (.inf false)
  | .fin s m e =>
    if m = 0 then f.roundTo r (.fin s 0 0)
    else if s then f.nanCode
    else
      let odd := e % 2
      let n := (m <<< odd.toNat) <<< 160
      let q := isqrt n
      f.roundMag r false q ((e - odd) / 2 - 80) (decide (q * q ≠ n))

/-- Reciprocal square root (R190). -/
def Fmt.rsqrt (f : Fmt) (r : Rounding) : Fl → Nat
  | .nan => f.nanCode
  | .inf s => if s then f.nanCode else f.roundTo r (.fin false 0 0)
  | .fin s m e =>
    if m = 0 then f.roundTo r (.inf s)
    else if s then f.nanCode
    else
      let odd := e % 2
      let n := m <<< odd.toNat
      let k := 100 + Nat.log2 n
      let q := isqrt (2 ^ (2 * k) / n)
      f.roundMag r false q (-((e - odd) / 2) - k) (decide (q * q * n ≠ 2 ^ (2 * k)))

/-- Bounds on `2^(p/2^len)`, scaled by `2^P`: `root` bounds `2^(2^-i)`, and `bits` lists the fraction's bits from the top. -/
def exp2Bounds (P : Nat) : List Bool → Nat → Nat → Nat → Nat → Nat × Nat
  | [], _, _, lo, hi => (lo, hi)
  | b :: rest, rlo, rhi, lo, hi =>
    let nlo := isqrt (rlo <<< P)
    let nhi := isqrt (rhi <<< P) + 1
    if b then exp2Bounds P rest nlo nhi ((lo * nlo) >>> P) (((hi * nhi) >>> P) + 1)
    else exp2Bounds P rest nlo nhi lo hi

/-- The bits of `m` from place `k - 1` down to 0. -/
def bitsDown (m : Nat) : Nat → List Bool
  | 0 => []
  | k + 1 => m.testBit k :: bitsDown m k

/-- Power of two (R190): exact at integers, elsewhere irrational, so the first precision at which both bounds round alike
decides. UNVERIFIED (log 6): that the last precision suffices. -/
def Fmt.exp2 (f : Fmt) (r : Rounding) : Fl → Nat
  | .nan => f.nanCode
  | .inf s => if s then f.roundTo r (.fin false 0 0) else f.roundTo r (.inf false)
  | .fin s m e =>
    let x : Int := if s then -(m : Int) else m
    if e ≥ 0 then
      let n := x * 2 ^ (Min.min e.toNat 12)
      f.roundMag r false (2 ^ 80) (Max.max (-400) (Min.min 400 n) - 80) false
    else
      let k := (-e).toNat
      let whole := x / 2 ^ k
      let part := (x % 2 ^ k).toNat
      let n := Max.max (-400) (Min.min 400 whole)
      if part = 0 then f.roundMag r false (2 ^ 80) (n - 80) false
      else
        let attempt : Nat → Nat × Nat := fun P =>
          let (lo, hi) := exp2Bounds P (bitsDown part k) (2 ^ (P + 1)) (2 ^ (P + 1)) (2 ^ P) (2 ^ P)
          (f.roundMag r false lo (n - P) true, f.roundMag r false (hi - 1) (n - P) true)
        let a := attempt 128
        if a.1 = a.2 then a.1
        else
          let b := attempt 256
          if b.1 = b.2 then b.1
          else
            let c := attempt 512
            if c.1 = c.2 then c.1 else (attempt 1024).1

/-- The next bits of `log2 y`, `y = lo/2^P` in [1, 2), by repeated squaring; stops short where the bounds part. -/
def log2Bits (P : Nat) : Nat → Nat → Nat → Nat → Nat → Nat × Nat
  | 0, _, _, acc, n => (acc, n)
  | k + 1, lo, hi, acc, n =>
    let slo := (lo * lo) >>> P
    let shi := ((hi * hi) >>> P) + 1
    if slo ≥ 2 ^ (P + 1) then log2Bits P k (slo >>> 1) ((shi >>> 1) + 1) (2 * acc + 1) (n + 1)
    else if shi < 2 ^ (P + 1) then log2Bits P k slo shi (2 * acc) (n + 1)
    else (acc, n)

/-- Base-2 logarithm (R190): exact at powers of two, elsewhere irrational. -/
def Fmt.log2 (f : Fmt) (r : Rounding) : Fl → Nat
  | .nan => f.nanCode
  | .inf s => if s then f.nanCode else f.roundTo r (.inf false)
  | .fin s m e =>
    if m = 0 then f.roundTo r (.inf true)
    else if s then f.nanCode
    else
      let t := Nat.log2 m
      let whole : Int := e + t
      if m = 2 ^ t then
        f.roundTo r (.fin (decide (whole < 0)) whole.natAbs 0)
      else
        let P := 512
        let (acc, n) := log2Bits P 240 (m <<< (P - t)) (m <<< (P - t)) 0 0
        if whole ≥ 0 then f.roundMag r false (whole.toNat <<< n + acc) (-(n : Int)) true
        else f.roundMag r true ((-whole).toNat <<< n - acc - 1) (-(n : Int)) true

/-- The mixer of `vmix` and of the draws (R197). -/
def vmix (a b : Word) : Word :=
  let t := a + b * 0x9E3779B9#32
  let t := t ^^^ (t >>> 16)
  let t := t * 0x7FEB352D#32
  let t := t ^^^ (t >>> 15)
  let t := t * 0x846CA68B#32
  t ^^^ (t >>> 16)

end Sys2Proof.Machine
end

