-- ==== Sys2Proof/Machine/Flags.lean ====
section
/-! DEFINITION. The mode register's fields (R94 to R98), the element types, and how a result sets a predicate or the
non-finite mark. -/

namespace Sys2Proof.Machine

/-- The fields of GMODE (R94). -/
def modeType (m : Word) : Nat := (m.extractLsb' 0 4).toNat
def modeRnd (m : Word) : Nat := (m.extractLsb' 4 3).toNat
def modeSat (m : Word) : Bool := m.getLsbD 7
def modeFtz (m : Word) : Bool := m.getLsbD 8
def modeGuard (m : Word) : Nat := (m.extractLsb' 9 3).toNat
def modeGinv (m : Word) : Bool := m.getLsbD 12
def modeChk (m : Word) : Bool := m.getLsbD 13
def modeNft (m : Word) : Bool := m.getLsbD 14
def modeBsel (m : Word) (q : Nat) : Nat := (m.extractLsb' (16 + 2 * q) 2).toNat

/-- Does GMODE accept a value (R95)? -/
def modeLegal (m : Word) : Bool :=
  m.extractLsb' 24 8 == 0 && !m.getLsbD 15 && decide (modeRnd m ≤ 5) && decide (modeType m ≤ 0xB)

/-- The rounding that GMODE selects, with a draw. -/
def modeRounding (m : Word) (draw : Nat) : Rounding := { rnd := modeRnd m, sat := modeSat m, ftz := modeFtz m, draw := draw }

/-- An integer type: its width and whether it is signed. -/
structure IntTy where
  width : Nat
  signed : Bool
  deriving DecidableEq, Repr

/-- An element type of R98. -/
inductive Ty where
  | float (f : Fmt)
  | int (t : IntTy)
  | vq2
  deriving DecidableEq, Repr

/-- The type of a code (R98). -/
def tyOf : Nat → Option Ty
  | 0 => some (.float .f32)
  | 1 => some (.float .bf16)
  | 2 => some (.float .f16)
  | 3 => some (.float .e4m3)
  | 4 => some (.float .e5m2)
  | 5 => some (.int ⟨8, true⟩)
  | 6 => some (.int ⟨8, false⟩)
  | 7 => some .vq2
  | 8 => some (.int ⟨32, true⟩)
  | 9 => some (.int ⟨32, false⟩)
  | 10 => some (.int ⟨16, true⟩)
  | 11 => some (.int ⟨16, false⟩)
  | _ => none

def Ty.width : Ty → Nat
  | .float f => f.width
  | .int t => t.width
  | .vq2 => 32

/-- Element e of a lane slice (R163). -/
def elem (w : Nat) (x : Word) (e : Nat) : Nat := (x.toNat >>> (w * e)) % 2 ^ w
/-- A lane slice from its elements. -/
def fromElems (w : Nat) (l : List Nat) : Word :=
  BitVec.ofNat 32 (l.foldr (fun x a => a <<< w + x % 2 ^ w) 0)

/-- The value of an integer element. -/
def IntTy.value (t : IntTy) (x : Nat) : Int :=
  if t.signed && decide (2 ^ (t.width - 1) ≤ x) then (x : Int) - 2 ^ t.width else x
def IntTy.low (t : IntTy) : Int := if t.signed then -(2 ^ (t.width - 1)) else 0
def IntTy.high (t : IntTy) : Int := if t.signed then 2 ^ (t.width - 1) - 1 else 2 ^ t.width - 1
/-- The element of an exact integer, clamped or reduced (R162, R189). -/
def IntTy.result (t : IntTy) (sat : Bool) (r : Int) : Nat :=
  let r := if sat then max t.low (min t.high r) else r
  (r % 2 ^ t.width).toNat

/-- Does a conversion round under RSR (R165)? -/
def convertRounds (src dst : Ty) : Bool :=
  decide (src ≠ dst) && (match src, dst with | .int _, .int _ => false | _, _ => true)

/-- Does TYPE make an arithmetic instruction round under RSR, and a conversion to a type (R165)? -/
def drawsArith (m : Word) : Bool :=
  match tyOf (modeType m) with
  | some (.float _) => true
  | _ => false
def drawsConvert (m : Word) (dst : Ty) : Bool :=
  match tyOf (modeType m) with
  | some t => convertRounds t dst
  | none => false

/-- Is an element non-finite (R170)? -/
def Ty.nonFinite (t : Ty) (x : Nat) : Bool :=
  match t with
  | .float f => f.nonFinite x
  | _ => false

end Sys2Proof.Machine
end

