-- ==== Sys2Proof/Machine/Operands.lean ====
section
/-! DEFINITION. Reading the operands of an instruction: registers through the scoreboards (R88 to R93), the guard and the
active lanes (R96), and the results in flight. -/

namespace Sys2Proof.Machine

/-- Is the write still on its way for a reader in `slot` at this cycle? -/
def Inflight.open_ (e : Inflight) (cycle : Nat) : Bool :=
  match e.ready with
  | none => true
  | some c => decide (cycle < c)

/-- The number under which a read draws its free values (log 1): a register, a lane, and how many writes the read has passed. -/
def State.freeIndex (s : State) (reg lane past : Nat) : Nat := ((s.time.free * 1024 + reg) * 32 + lane) * 64 + past

/-- What a read finds behind the writes to its register that are still open (R90, R92, R93), the newest first: it may pass an
open one and see what the register held before it; behind one that is readable no older write counts. -/
def readPast {α : Type} (cycle : Nat) (hits : Inflight → Bool) (old : Inflight → α) (passes : Nat → Bool) :
    List Inflight → Nat → α → α
  | [], _, x => x
  | e :: r, k, x =>
    if hits e then (if e.open_ cycle && passes k then readPast cycle hits old passes r (k + 1) (old e) else x)
    else readPast cycle hits old passes r k x

/-- A read of a register, the free values of which are numbered. -/
def State.readReg {α : Type} (s : State) (r : Reg) (reg lane : Nat) (hits : Inflight → Bool) (old : Inflight → α) (x : α) : α :=
  readPast s.time.cycle (fun e => e.reg == r && hits e) old (fun k => Config.freeBit (s.freeIndex reg lane k)) s.grp.inflight 0 x

/-- Lane l of vector register n at this cycle: early, an old or the new value (R92). -/
def State.nowV (s : State) (n l : Nat) : Word :=
  s.readReg (.v n) n l (·.lanes.has l) (fun e => e.old.extractLsb' (32 * l) 32) (s.regs.getV n l)
/-- Group register n at this cycle: a sibling's write counts too (R93). -/
def State.nowG (s : State) (n : Nat) : DWord :=
  s.readReg (.g n) (128 + n) 0 (fun _ => true) (fun e => e.old.extractLsb' 0 64) (s.regs.getG n)
/-- Lane predicate n at this cycle. -/
def State.nowP (s : State) (n : Nat) : Mask :=
  if n = 0 || s.grp.inflight.all (fun e => e.reg != .p n) then s.regs.getP n else
  BitVec.ofBoolListLE (lanes.map fun l =>
    s.readReg (.p n) (192 + n) l (·.lanes.has l) (fun e => e.old.getLsbD l) ((s.regs.getP n).has l))
/-- Group predicate n at this cycle. -/
def State.nowQ (s : State) (n : Nat) : Bool :=
  if n = 0 then s.regs.getQ 0 else
  s.readReg (.q n) (200 + n) 0 (fun _ => true) (fun e => e.old.getLsbD 0) (s.regs.getQ n)

/-- All registers as an instruction that issues now reads them (R90 to R93). -/
def State.asRead (s : State) : Regs :=
  s.grp.inflight.foldl (fun r e => match e.reg with
    | .v n => r.setLanes n 0xFFFFFFFF#32 (s.nowV n)
    | .g n => r.setG n (s.nowG n)
    | .p n => r.setP n 0xFFFFFFFF#32 (s.nowP n)
    | .q n => r.setQ n (s.nowQ n)
    | .mode => r
    | .role => r
    | .scount => r) { s.regs with acc := [] }

/-- The executing instruction's read of a lane of a vector register: what it took when it issued, if it has waited (R90). -/
def State.rdV (s : State) (n l : Nat) : Word :=
  match s.spl.taken with
  | some r => r.getV n l
  | none => s.nowV n l
/-- Its read of a group register. -/
def State.rdG (s : State) (n : Nat) : DWord :=
  match s.spl.taken with
  | some r => r.getG n
  | none => s.nowG n
/-- Its read of a lane predicate. -/
def State.rdP (s : State) (n : Nat) : Mask :=
  match s.spl.taken with
  | some r => r.getP n
  | none => s.nowP n
/-- Its read of a group predicate. -/
def State.rdQ (s : State) (n : Nat) : Bool :=
  match s.spl.taken with
  | some r => r.getQ n
  | none => s.nowQ n
/-- GMODE as it reads it (R93, R94). -/
def State.mode (s : State) : Word :=
  match s.spl.taken with
  | some r => r.gmode
  | none => s.regs.gmode
/-- ROLE as it reads it. -/
def State.role (s : State) : BitVec 2 :=
  match s.spl.taken with
  | some r => r.role
  | none => s.regs.role

/-- The active lanes of the executing split (R96). -/
def State.active (s : State) : Mask :=
  let m := s.mode
  let p := s.rdP (modeGuard m)
  s.spl.mask &&& (if modeGinv m then ~~~p else p)

/-- The 32 lanes of a register in one word, lane 0 lowest. -/
def Regs.packV (r : Regs) (n : Nat) : BitVec 1024 :=
  BitVec.ofNat 1024 (lanes.foldl (fun a l => a + (r.getV n l).toNat <<< (32 * l)) 0)

/-- What a register holds, for a result in flight. -/
def Regs.hold (r : Regs) : Reg → BitVec 1024
  | .v n => r.packV n
  | .g n => (r.getG n).setWidth 1024
  | .p n => (r.getP n).setWidth 1024
  | .q n => if r.getQ n then 1 else 0
  | .mode => r.gmode.setWidth 1024
  | .role => r.role.setWidth 1024
  | .scount => BitVec.ofNat 1024 (lanes.foldl (fun a l => a + (r.getSc l).toNat <<< (32 * l)) 0)

/-- Put back what a register held, in the lanes of a mask. -/
def Regs.restore (r : Regs) (x : Reg) (m : Mask) (old : BitVec 1024) : Regs :=
  match x with
  | .v n => r.setLanes n m (fun l => old.extractLsb' (32 * l) 32)
  | .g n => r.setG n (old.setWidth 64)
  | .p n => r.setP n m (old.setWidth 32)
  | .q n => r.setQ n (old.getLsbD 0)
  | .mode => { r with gmode := old.setWidth 32 }
  | .role => { r with role := old.setWidth 2 }
  | .scount => lanes.foldl (fun r l => if m.has l then r.setSc l (old.extractLsb' (32 * l) 32) else r) r

/-- The sequence number of the executing instruction (R438): the one it has taken, or the last the group gave. -/
def State.tseq (s : State) : Word := s.spl.num.getD (s.regs.tseq - 1)

/-- Note a result in flight: readable `lat` cycles after the issue, or when its step reports it (R88, R89). -/
def State.mark (s : State) (r : Reg) (m : Mask) (lat : Option Nat) : State :=
  s.setGrp { s.grp with inflight :=
    { reg := r, slot := s.slot, tseq := s.tseq, ready := lat.map (s.time.cycle + ·), old := s.regs.hold r, lanes := m,
      before := if lat.isNone then some s.spl else none } :: s.grp.inflight }

/-- Write a vector register in the lanes of a mask. -/
def State.wrV (s : State) (n : Nat) (m : Mask) (f : Nat → Word) (lat : Option Nat) : State :=
  (s.mark (.v n) m lat).setRegs (s.regs.setLanes n m f)
/-- Write a group register. -/
def State.wrG (s : State) (n : Nat) (x : DWord) (lat : Option Nat) : State :=
  (s.mark (.g n) 0 lat).setRegs (s.regs.setG n x)
/-- Write a lane predicate in the lanes of a mask. -/
def State.wrP (s : State) (n : Nat) (m x : Mask) (lat : Option Nat) : State :=
  (s.mark (.p n) m lat).setRegs (s.regs.setP n m x)
/-- Write a group predicate. -/
def State.wrQ (s : State) (n : Nat) (b : Bool) (lat : Option Nat) : State :=
  (s.mark (.q n) 0 lat).setRegs (s.regs.setQ n b)

/-- The address of a lane of a vector memory form: g[A] + sext(v[B]) (R108). -/
def State.laneAddr (s : State) (a b l : Nat) : DWord := s.rdG a + sext 64 (s.rdV b l)
/-- The address of a group-uniform form. -/
def State.groupAddr (s : State) (a b : Nat) : DWord := s.rdG a + s.rdG b

/-- The latencies of R88. -/
def latAlu : Option Nat := some 4
def latCross : Option Nat := some 6
def latTrans : Option Nat := some 8
/-- A variable-latency result (R89). -/
def latVar : Option Nat := none

end Sys2Proof.Machine
end

