-- ==== Sys2Proof/Machine/Ops.lean ====
section
/-! DEFINITION. The operations all families share: retiring an instruction, the event log, the failure of a grid, taking a
trap and returning from one (R436 to R442). -/

namespace Sys2Proof.Machine

/-- A context of the executing team. -/
def State.ctx (s : State) (x : Nat) : EngineCtx := AMap.get {} s.team.ctxs x
def State.setCtx (s : State) (x : Nat) (c : EngineCtx) : State :=
  s.setTeam { s.team with ctxs := AMap.set s.team.ctxs x c }

/-- A barrier of the executing group (R407): its own, its team's, its cluster's, its grid's. In replica mode each replica
has its own set at every level (R411). -/
def State.barrierKey (s : State) (level num : Nat) : Nat := if level = 3 then 16 * s.cluster.replica + num else num
def State.barrier (s : State) (level num : Nat) : Barrier :=
  match level with
  | 0 => s.grp.ctx.bar
  | 1 => AMap.get {} s.team.barriers num
  | 2 => AMap.get {} s.cluster.barriers num
  | _ => AMap.get {} s.grid.barriers (s.barrierKey 3 num)
def State.setBarrier (s : State) (level num : Nat) (b : Barrier) : State :=
  match level with
  | 0 => s.setGrp { s.grp with ctx := { s.grp.ctx with bar := b } }
  | 1 => s.setTeam { s.team with barriers := AMap.set s.team.barriers num b }
  | 2 => s.setClusterAt s.clusterId { s.cluster with barriers := AMap.set s.cluster.barriers num b }
  | _ => s.setGrid { s.grid with barriers := AMap.set s.grid.barriers (s.barrierKey 3 num) b }

/-- Has a phase of a barrier completed (R409)? -/
def Barrier.passed (b : Barrier) (phase : Word) : Bool := decide ((b.phase - phase - 1).toNat < 2 ^ 31)

/-- Retire the executing instruction with the next program counter given: the logical clock and, outside handler mode, the
safe-point distance add 1 (R392, R417, R443). -/
def State.retireTo (s : State) (pc : Addr) : State :=
  let x := s.spl
  let y := { x with
    pc := pc, dist := if s.handlerMode then x.dist else x.dist + 1, wait := none, num := none, word := none, token := false,
    taken := none }
  let c := s.grp.ctx
  s.setGrp { s.grp with ctx :=
    { c with splits := AMap.set c.splits s.slot y, regs := { c.regs with clock := c.regs.clock + 1 } } }

/-- Retire and go on at the following word. -/
def State.retire (s : State) : State := s.retireTo (s.spl.pc + 4)

/-- The instruction is done: the outcome of most meanings. -/
def State.done (s : State) : Out := .next s.retire

/-- The split stays at its instruction and waits (R109); the instruction goes on with the registers that it has read (R90). -/
def State.waitFor (s : State) (w : Wait) : State :=
  s.setSpl { s.spl with wait := some w, taken := s.spl.taken <|> some s.asRead }

/-- Append a record to Lamplighter's log (R464). -/
def State.logAt (s : State) (kind : BitVec 16) (die core : BitVec 8) (detail : Word) (value : DWord) : State :=
  { s with lamp := { s.lamp with
      seq := s.lamp.seq + 1
      log := { seq := s.lamp.seq + 1, count := Config.lampCount (s.lamp.powered + s.time.cycle), kind := kind, die := die, core := core, detail := detail, value := value }
        :: s.lamp.log } }

/-- A record about the executing group. -/
def State.logGroup (s : State) (kind : BitVec 16) (detail : Word) (value : DWord) : State :=
  s.logAt kind (BitVec.ofNat 8 (s.coreId / 72)) (BitVec.ofNat 8 (s.coreId % 72)) detail value

/-- A record about no die. -/
def State.logDevice (s : State) (kind : BitVec 16) (detail : Word) (value : DWord) : State :=
  s.logAt kind 0xFF 0xFF detail value

/-- The clusters of a grid, the teams of a cluster, the live groups of a team. -/
def State.clustersOf (s : State) (g : Nat) : List Nat :=
  (s.clusters.filter (fun e => e.2.live && e.2.grid == g)).map Prod.fst
def State.teamsOf (s : State) (c : Nat) : List Nat :=
  (s.teams.filter (fun e => e.2.live && e.1 / 12 == c)).map Prod.fst
def State.groupsOf (s : State) (t : Nat) : List Nat :=
  (s.groups.filter (fun e => e.2.live && e.1 / 32 == t)).map Prod.fst
def State.gridTeams (s : State) (g : Nat) : List Nat := (s.clustersOf g).flatMap s.teamsOf
def State.gridGroups (s : State) (g : Nat) : List Nat := (s.gridTeams g).flatMap s.groupsOf

/-- The counter moves over every completed command at the head (R238), whose entries are freed. -/
def sweepQueue : DWord → List Cmd → DWord × List Cmd
  | n, [] => (n, [])
  | n, c :: r => if c.done then sweepQueue (BitVec.ofNat 64 c.num) r else (n, c :: r)
def EngineCtx.sweep (x : EngineCtx) : EngineCtx :=
  let (n, q) := sweepQueue x.counter x.queue
  { x with counter := n, queue := q }

/-- Does a command of the collective engine wait for participants that have not posted (R328)? -/
def Cmd.posted (c : Cmd) : Bool :=
  c.result.isNone && match c.op with
    | .collAr _ _ _ => true
    | .collRs _ _ _ => true
    | .collAg _ _ _ => true
    | .csred _ _ _ _ => true
    | _ => false
/-- A command that has not started is discarded (R242, R437), and a collective that waits for participants, which else would never
end its grid (R480); one that is held, when its guard resolves (R129). -/
def Cmd.discard (c : Cmd) : Cmd :=
  if c.started && !c.posted then c
  else match c.guard with
  | .pending _ => { c with dropped := true }
  | _ => { c with guard := .discarded, started := true, done := true }
/-- Discard the commands that have not started. -/
def EngineCtx.discard (x : EngineCtx) : EngineCtx := EngineCtx.sweep { x with queue := x.queue.map Cmd.discard }

/-- Discard every command of a grid that has not started; the scoreboard entries of a posted collective are free (R243). -/
def State.discardCommands (s : State) (g : Nat) : State :=
  (s.gridTeams g).foldl (fun s t =>
    let x := s.teamAt t
    let gone := ((AMap.get {} x.ctxs 3).queue.filter fun c => c.started && c.posted).map Cmd.num
    let s := s.setTeamAt t { x with ctxs := AMap.mapVals (fun _ c => c.discard) x.ctxs }
    if gone.isEmpty then s
    else { s with cores := AMap.mapVals (fun _ k =>
      { k with locks := k.locks.filter fun l => !(l.team == t && l.ctx == 3 && gone.contains l.num) }) s.cores }) s

/-- A grid fails (R437): no group of it issues again, commands not started are discarded, and three records tell the class,
TRAPPC, TSEQ and TADDA (R465); a snuffed grid ends with the status of its cancellation, and no record says else. The first cause of
an end stands. -/
def State.failGridWith (s : State) (g status detail logClass : Nat) (pc : Addr) (tseq : Word) (adda : Addr) : State :=
  let x := s.gridAt g
  if x.ending.failed then s
  else
    let e := if x.ending.snuffed then x.ending else { x.ending with status := status, detail := detail }
    let s := s.setGridAt g { x with ending := { e with failed := true } }
    let d := BitVec.ofNat 32 (logClass + 256 * status + 65536 * x.sub.queue)
    let s := s.discardCommands g
    if x.ending.snuffed then s
    else
      let s := s.logGroup 1 d (pc.setWidth 64)
      let s := s.logGroup 1 d (adda.setWidth 32 ++ tseq)
      s.logGroup 1 d (adda.setWidth 64)

def State.failGrid (s : State) (g cls : Nat) (pc : Addr) (tseq : Word) (adda : Addr) : State :=
  s.failGridWith g 2 cls cls pc tseq adda

/-- The executing group's handler for a class (R27): the offset in the text of its trap-table entry. -/
def State.handlerFor (s : State) (cls : Nat) : Option Addr :=
  match s.grid.kernel.handlers[cls]? with
  | some off => if off == 0xFFFFFFFF#32 then none else some (BitVec.ofNat 56 (s.grid.kernel.base + off.toNat))
  | none => none

/-- A result in flight once every earlier result of a split is complete (R87, R157): what has a fixed latency is readable in
its lanes; what is outstanding keeps its reader waiting until it is written (R89). -/
def Inflight.complete (slot : Nat) (mask : Mask) (e : Inflight) : Option Inflight :=
  if e.ready.isNone || !(e.slot == slot || e.also.getLsbD slot) then some e
  else
    let rest := match e.reg with
      | .v _ => e.lanes &&& ~~~mask
      | .p _ => e.lanes &&& ~~~mask
      | _ => 0
    if rest == 0 then none else some { e with lanes := rest }

/-- TAKING A TRAP (R438, R441): the trap registers take the fault, the split goes to the handler with its mask, the group
is in handler mode, and every earlier result of the split is complete (log 53). -/
def State.enterHandler (s : State) (f : PendingFault) (handler : Addr) : State :=
  let x := s.splitAt f.slot
  let y := { x with
    pc := handler, mask := f.mask, wait := none, num := none, word := none, token := false, taken := none,
    dist := if f.cls == 0x0A then 0 else x.dist, sched := { x.sched with bound := 0 }, solid := some f.tseq }
  let g := s.grp
  s.setGrp { g with
    trap := { tcause := BitVec.ofNat 16 (f.cls + 256 * f.detail), trappc := f.pc, tmask := f.mask, tadda := f.adda,
              taddb := f.addb, tseq := f.tseq }
    handler := some (f.slot, x.stack.length)
    inflight := g.inflight.filterMap (Inflight.complete f.slot f.mask)
    ctx := { g.ctx with splits := AMap.set g.ctx.splits f.slot y } }

/-- Deliver a fault of the executing group when no handler runs: the handler of its class, or the end of the grid. -/
def State.deliver (s : State) (f : PendingFault) : State :=
  match s.handlerFor f.cls with
  | some h => s.enterHandler f h
  | none => s.failGrid s.gridId f.cls f.pc f.tseq f.adda

/-- A fault is found (R436, R440, R442): a lease violation ends the grid; in the handler itself it is a double trap; behind
a handler it is pending; otherwise it is delivered at once. -/
def State.fault (s : State) (f : PendingFault) : State :=
  if f.cls == 0x07 then s.failGrid s.gridId 0x07 f.pc f.tseq f.adda
  else match s.grp.handler with
  | none => s.deliver f
  | some (k, _) =>
    if k == f.slot then
      let s := s.logGroup 0x000E (BitVec.ofNat 32 (f.cls + 256 * (s.grp.trap.tcause.toNat % 256))) (f.pc.setWidth 64)
      s.failGrid s.gridId 0x0F f.pc f.tseq f.adda
    else s.setGrp { s.grp with pending := f :: s.grp.pending }

/-- The fault that the executing instruction raises. -/
def State.ownFault (s : State) (cls detail : Nat) (adda addb : Addr) : PendingFault :=
  { slot := s.slot, cls := cls, detail := detail, pc := s.spl.pc, mask := s.spl.mask, tseq := s.tseq, adda := adda,
    addb := addb }

/-- `raise(class)` of R108: the instruction ends here with the trap, and changes nothing else. -/
def State.raise (s : State) (cls : Nat) (adda addb : Addr := 0) : Out := .next (s.fault (s.ownFault cls 0 adda addb))

/-- `raise(illegal operand)`. -/
def State.illegalOperand (s : State) : Out := s.raise 0x02

/-- The pending fault of lowest TSEQ (R440), counted from the group's counter. -/
def earliestFault (now : Word) : List PendingFault → Option PendingFault
  | [] => none
  | f :: r =>
    match earliestFault now r with
    | none => some f
    | some g => if (now - f.tseq).toNat > (now - g.tseq).toNat then some f else some g

/-- Deliver the pending fault of lowest TSEQ, before any split of the group issues (R440, R441). -/
def State.deliverNext (s : State) : State :=
  match earliestFault s.regs.tseq s.grp.pending with
  | none => s
  | some f =>
    let s := s.setGrp { s.grp with pending := s.grp.pending.filter (· != f) }
    s.fault f
/-- End handler mode, and deliver the next pending fault (R440, R441). -/
def State.endHandler (s : State) : State := (s.setGrp { s.grp with handler := none }).deliverNext

/-- RETURNING FROM A TRAP (R157): the split goes on at TRAPPC, every result of the handler complete (R87), and the
siblings are free again. -/
def State.returnFromTrap (s : State) : State :=
  let x := s.spl
  let s := s.setGrp { s.grp with inflight := s.grp.inflight.filterMap (Inflight.complete s.slot x.mask) }
  let s := s.retireTo s.grp.trap.trappc
  let s := s.setSpl { s.spl with sched := { x.sched with bound := 0 }, solid := some (x.num.getD (s.regs.tseq - 1)) }
  s.endHandler

/-- A result written under NFT holds a non-finite element (R170, R449): the group stops after the instruction; in replica
mode the trap is held until the group's next compare matches. -/
def State.nonFinite (s : State) (bad : Bool) : State :=
  if bad && modeNft s.regs.gmode then
    if s.replicated then
      if s.grp.repl.nft.isSome then s
      else s.setGrp { s.grp with repl := { s.grp.repl with nft := some (s.spl.pc, s.tseq) } }
    else s.setGrp { s.grp with nft := some (s.spl.pc, s.tseq) }
  else s

/-- Shorthand: a test of row 4 of R106, then the effect. -/
def State.checked (s : State) (ok : Bool) (k : Out) : Out := if ok then k else s.illegalOperand

end Sys2Proof.Machine
end

