-- ==== Sys2Proof/Machine/Coherence.lean ====
section
/-! DEFINITION. Memory at its homes, and the home directory (R356 to R368, R428 to R430): requests, forwards, invalidations,
privatised copies, merges and evictions. -/

namespace Sys2Proof.Machine

/-- The kind of a physical address: 0 device HBM, 1 host, 2 peer (R212). -/
def kindOf (pa : Nat) : Nat := pa / 2 ^ 50

/-- The bytes of a line as one word, byte k in bits [8k+7:8k]. -/
def lineBytes (f : Nat → Byte) : BitVec 1024 :=
  BitVec.ofNat 1024 ((List.range 128).foldr (fun k a => (a <<< 8) + (f k).toNat) 0)
def lineByte (x : BitVec 1024) (k : Nat) : Byte := x.extractLsb' (8 * k) 8
/-- A byte mask spread over the bits of its bytes. -/
def spread (m : BitVec 128) : BitVec 1024 := lineBytes fun k => if m.getLsbD k then 0xFF else 0
/-- The bytes of a mask from one line, the others from another. -/
def blend (m : BitVec 128) (new old : BitVec 1024) : BitVec 1024 :=
  (new &&& spread m) ||| (old &&& ~~~(spread m))
/-- The mask of n bytes from byte k of a line. -/
def byteMask (k n : Nat) : BitVec 128 := BitVec.ofNat 128 ((2 ^ n - 1) <<< k)

/-- A line of memory at its home. -/
def State.homeLine (s : State) (line : Nat) : BitVec 1024 := lineBytes fun k => Store.get s.mem.bytes (128 * line + k)
/-- Write masked bytes of a line into a memory. -/
def putBytes (m : Store 8) (line : Nat) (mask : BitVec 128) (data : BitVec 1024) : List Nat → Store 8
  | [] => m
  | k :: ks => putBytes (if mask.getLsbD k then Store.set m (128 * line + k) (lineByte data k) else m) line mask data ks
def State.putHome (s : State) (line : Nat) (mask : BitVec 128) (data : BitVec 1024) : State :=
  { s with mem := { s.mem with bytes := putBytes s.mem.bytes line mask data (List.range 128) } }

/-- The die that homes a line of device HBM (R481), or none: host lines are homed at the host, peer lines at their
module. -/
def homeDie (line : Nat) : Option Nat :=
  if kindOf (128 * line) = 0 then some (128 * line / Config.dieBytes) else none

/-- Where the entry of a line of device HBM lies (R430, R481): the home die, its slice and the directory set, the last two
fixed by bits [23:7] of the address. DESIGN CHOICE (log 52): that holds for every line, a tile's header and payload too, although
R221 has them in one slice. -/
def homeSlice (line : Nat) : Nat := Config.homeSlice (line % 2 ^ 17) % Config.slices
def dirSet (line : Nat) : Nat := Config.dirSet (line % 2 ^ 17) % Config.dirSets
def dirPlace (line : Nat) : Nat × Nat × Nat := ((homeDie line).getD 4, homeSlice line, dirSet line)
/-- The set of a line's copy in an L2 slice of 768 sets (R356, R430): lines 16 MiB apart lie in different ones. -/
def l2Set (line : Nat) : Nat := line / 2 ^ 17 % 64 * 12 + Config.l2Hash (line % 2 ^ 17) % 12
/-- Do two lines compete for the same entries: of one directory set (R358), or of the I/O die's filter (R368)? -/
def sameSet (a b : Nat) : Bool :=
  kindOf (128 * a) == kindOf (128 * b) && (kindOf (128 * a) != 0 || dirPlace a == dirPlace b)
/-- The entries for which a line competes. -/
def waysOf (line : Nat) : Nat := if kindOf (128 * line) = 1 then Config.hostFilter else Config.ways

/-- The directory entry of a line; a line that no agent holds has none (R358). -/
def State.dirEntry (s : State) (line : Nat) : DirEntry := AMap.get {} s.mem.dir line
def State.setDir (s : State) (line : Nat) (e : DirEntry) : State :=
  { s with mem := { s.mem with dir :=
    if e.ag == 0 && !e.busy && e.waiting.isEmpty then AMap.drop s.mem.dir line else AMap.set s.mem.dir line e } }
def State.send (s : State) (m : Msg) : State := { s with mem := { s.mem with msgs := s.mem.msgs ++ [m] } }

/-- The holders of a line, as agent codes (R358). -/
def DirEntry.holders (e : DirEntry) : List Nat := (List.range 6).filter fun a => e.ag.getLsbD a
def DirEntry.copy (e : DirEntry) (a : Nat) : Copy := AMap.get {} e.copies a
def agBit (a : Nat) : BitVec 6 := 1#6 <<< a
/-- Is the line in E or M (R359)? -/
def DirEntry.exclusive (e : DirEntry) : Bool := e.st == 2 || e.st == 3
/-- Give an agent a copy. -/
def DirEntry.grant (e : DirEntry) (a : Nat) (c : Copy) : DirEntry :=
  { e with ag := e.ag ||| agBit a, copies := AMap.set e.copies a c }
/-- Take an agent's copy away; the entry is free and its count 0 when no holder is left (R360). -/
def DirEntry.revoke (e : DirEntry) (a : Nat) : DirEntry :=
  let ag := e.ag &&& ~~~(agBit a)
  { e with
    ag := ag, copies := AMap.drop e.copies a, st := (if ag == 0 then 0 else e.st), cnt := (if ag == 0 then 0 else e.cnt)
    host := (if ag == 0 then 0 else e.host) }
/-- Change an agent's copy. -/
def DirEntry.setCopy (e : DirEntry) (a : Nat) (c : Copy) : DirEntry := { e with copies := AMap.set e.copies a c }
/-- Merge written bytes into an agent's copy. -/
def Copy.write (c : Copy) (mask : BitVec 128) (data : BitVec 1024) : Copy :=
  { c with data := blend mask data c.data, dirty := c.dirty ||| mask }

/-- The bytes some holder claims, and those that others than one agent claim (R359). -/
def DirEntry.claims (e : DirEntry) : BitVec 128 := e.holders.foldl (fun m a => m ||| (e.copy a).claim) 0
def DirEntry.otherClaims (e : DirEntry) (a : Nat) : BitVec 128 :=
  (e.holders.filter (· != a)).foldl (fun m b => m ||| (e.copy b).claim) 0

/-- The home has served a request for a line that has an entry: it is the latest used (R365). -/
def State.touch (s : State) (line : Nat) : State :=
  if AMap.has s.mem.dir line then
    let s := s.setDir line { s.dirEntry line with used := s.mem.tick + 1 }
    { s with mem := { s.mem with tick := s.mem.tick + 1 } }
  else s

/-- Forget a line in the home switch's filter, or leave its modules with clean copies (R366). -/
def State.dropSwitch (s : State) (line : Nat) : State :=
  { s with mem := { s.mem with switch := AMap.drop s.mem.switch line } }
def State.shareSwitch (s : State) (line : Nat) : State :=
  if AMap.has s.mem.switch line then
    { s with mem := { s.mem with switch := AMap.set s.mem.switch line { (AMap.get {} s.mem.switch line : SwitchEntry) with st := 1 } } }
  else s
/-- An agent gives its copy up; of the fabric, its modules give theirs up (R366). -/
def State.leaves (s : State) (line a : Nat) : State := if a = 5 then s.dropSwitch line else s

/-- A merge (R364): every claim's bytes are written into the line at its home, and the state is I. -/
def State.merge (s : State) (line : Nat) : State :=
  let e := s.dirEntry line
  let s := e.holders.foldl (fun s a => s.putHome line (e.copy a).claim (e.copy a).data) s
  s.setDir line { e with ag := 0, st := 0, cnt := 0, copies := [] }

/-- A host write of all 128 bytes of a line, or a copy engine's on its way to the home, clears a poison mark (R371). -/
def State.unpoison (s : State) (line : Nat) (mask : BitVec 128) (clears : Bool) : State :=
  if mask == BitVec.allOnes 128 && (clears || s.mem.clearing.contains line) then
    { s with mem := { s.mem with poison := s.mem.poison.filter (· != line), clearing := s.mem.clearing.filter (· != line) } }
  else s
/-- This module holds a line of a peer no more (R366). -/
def State.dropPeer (s : State) (line : Nat) : State :=
  if s.mem.peerLines.isEmpty then s else { s with mem := { s.mem with peerLines := AMap.drop s.mem.peerLines line } }
/-- A home write is performed; of a line of a peer at its home there, which this module gives up (R366). -/
def State.performHome (s : State) (line : Nat) (mask : BitVec 128) (data : BitVec 1024) (clears : Bool) : State :=
  ((s.putHome line mask data).unpoison line mask clears).dropPeer line

/-- A die gives a line back by itself (R360): a clean notice, its dirty bytes, or the bytes of its claim. DESIGN CHOICE (log 51):
the spec names no state with one P holder, so that the whole line is merged then and the other holder loses its copy. -/
def State.sendBack (s : State) (line x : Nat) : State :=
  let e := s.dirEntry line
  let c := e.copy x
  if e.st == 4 then s.merge line
  else
    let s := s.setDir line { e with copies := AMap.drop e.copies x }
    if c.dirty == 0 then s.send (.invAck line x) else s.send (.wbData line x c.data c.dirty false)

/-- The line used least lately, of those whose BUSY is clear. -/
def leastUsed : List (Nat × DirEntry) → Option (Nat × DirEntry)
  | [] => none
  | e :: r =>
    match leastUsed r with
    | some f => if e.2.busy || f.2.used < e.2.used then some f else some e
    | none => if e.2.busy then none else some e

/-- A die gives a line back and the home takes it at once. -/
def State.handBack (s : State) (line x : Nat) : State :=
  let e := s.dirEntry line
  if e.st == 4 then s.merge line
  else (s.putHome line (e.copy x).dirty (e.copy x).data).setDir line (e.revoke x)
/-- A die's L2 makes room for a copy (R430): of more than 16 copies in one set of a slice it gives back the one that its home
served longest ago (log 51). -/
def State.trimL2 (s : State) (die line : Nat) : State :=
  if decide (s.mem.dir.length ≤ Config.ways) || decide (4 ≤ die) then s
  else
    let held := s.mem.dir.filter fun e =>
      e.1 != line && AMap.has e.2.copies die && homeSlice e.1 == homeSlice line && l2Set e.1 == l2Set line
    if held.length < Config.ways then s
    else match leastUsed held with
      | some e => s.handBack e.1 die
      | none => s

/-- Grant a line from its home: E for a read of a line nobody holds, S beside other holders, M with the request's bytes
for an own (R360). Of a host line the device asks the host first: RdShared for a read, RdOwn for an own (R367). -/
def State.grantRead (s : State) (line agent : Nat) : State :=
  let e := s.dirEntry line
  let st : BitVec 3 := if e.ag &&& ~~~(agBit agent) == 0 then 2 else 1
  let c : Copy := { data := s.homeLine line, here := false }
  let s := s.setDir line { (e.grant agent c) with
    st := st, host := if kindOf (128 * line) = 1 && e.host == 0 then 1 else e.host }
  (s.send (.data line agent)).trimL2 agent line
def State.grantOwn (s : State) (line agent : Nat) (mask : BitVec 128) (bytes : BitVec 1024) : State :=
  let e := s.dirEntry line
  let c : Copy := { data := blend mask bytes (s.homeLine line), dirty := mask, here := false }
  let s := s.setDir line { e with
    ag := agBit agent, st := 3, copies := [(agent, c)], busy := false, serving := none
    host := if kindOf (128 * line) = 1 then 3 else 0 }
  (s.send (.data line agent)).trimL2 agent line

/-- An access by a P holder to bytes outside its claim (R363): the claim grows where no other holds the bytes; otherwise
the line is merged, and the request that caused it is served as from I (R364). -/
def State.claimRead (s : State) (line agent : Nat) (mask : BitVec 128) : State :=
  let e := s.dirEntry line
  let c := e.copy agent
  let more := mask &&& ~~~c.claim
  if more == 0 then s
  else if more &&& e.otherClaims agent == 0 then
    s.setDir line (e.setCopy agent { c with data := blend more (s.homeLine line) c.data, claim := c.claim ||| more })
  else (s.merge line).grantRead line agent
def State.claimOwn (s : State) (line agent : Nat) (mask : BitVec 128) (bytes : BitVec 1024) : State :=
  let e := s.dirEntry line
  let c := e.copy agent
  if mask &&& e.otherClaims agent == 0 then
    s.setDir line (e.setCopy agent { (c.write mask bytes) with claim := c.claim ||| mask })
  else (s.merge line).grantOwn line agent mask bytes

/-- Take a request into service with messages in flight. -/
def State.beginService (s : State) (line : Nat) (r : Request) (msgs : List Msg) : State :=
  let e := s.dirEntry line
  msgs.foldl State.send (s.setDir line { e with busy := true, serving := some r })

/-- Privatise a line for an own of another die (R362). -/
def State.privatise (s : State) (line x agent : Nat) (mask : BitVec 128) (bytes : BitVec 1024) : State :=
  let e := s.dirEntry line
  let c := e.copy x
  let e := e.grant x { c with claim := c.dirty }
  (s.setDir line { (e.grant agent { data := blend mask bytes (s.homeLine line), dirty := mask, claim := mask, here := false }) with
    st := 4 }).send (.data line agent)
/-- May it be: the fourth contention, two dies, and claims that do not overlap (R362)? -/
def privatises (e : DirEntry) (line x agent : Nat) (mask : BitVec 128) : Bool :=
  e.cnt == 3 && kindOf (128 * line) == 0 && decide (x < 4) && decide (agent < 4) && (e.copy x).dirty &&& mask == 0

/-- The home serves a request to an entry that is not busy and has its place (R360). -/
def State.serveHeld (s : State) (line : Nat) (r : Request) : State :=
  let e := s.dirEntry line
  let t := match r with
    | .evict _ _ => s
    | .read a mask =>
      if e.st == 4 then
        (if e.ag.getLsbD a then s.claimRead line a mask else (s.merge line).grantRead line a)
      else if e.exclusive then
        match e.holders.head? with
        | some x => if x = a then s else s.beginService line r [.fwd line x]
        | none => s.grantRead line a
      else s.grantRead line a
    | .own a mask bytes =>
      if e.st == 4 then
        (if e.ag.getLsbD a then s.claimOwn line a mask bytes else (s.merge line).grantOwn line a mask bytes)
      else if e.exclusive then
        match e.holders.head? with
        | some x =>
          if x = a then s.setDir line { (e.setCopy a ((e.copy a).write mask bytes)) with
            st := 3, host := if kindOf (128 * line) = 1 then 3 else 0 }
          else if privatises e line x a mask then s.privatise line x a mask bytes
          else s.beginService line r [.fwd line x]
        | none => s.grantOwn line a mask bytes
      else
        let others := e.holders.filter (· != a)
        if others.isEmpty then s.grantOwn line a mask bytes
        else s.beginService line r (others.map (Msg.inv line))
    | .homeWrite mask bytes clears =>
      if e.st == 4 then (s.merge line).performHome line mask bytes clears
      else if e.exclusive then
        match e.holders.head? with
        | some x => s.beginService line r [.fwd line x]
        | none => s.performHome line mask bytes clears
      else if e.holders.isEmpty then s.performHome line mask bytes clears
      else s.beginService line r (e.holders.map (Msg.inv line))
  t.touch line

/-- Does a request need an entry for its line? -/
def Request.holds : Request → Bool
  | .read _ _ => true
  | .own _ _ _ => true
  | _ => false
/-- The other entries of the line's set, and whether they take all of it (R365). -/
def State.rivals (s : State) (line : Nat) : List (Nat × DirEntry) :=
  s.mem.dir.filter fun e => e.1 != line && sameSet line e.1
def State.setFull (s : State) (line : Nat) : Bool :=
  decide (waysOf line ≤ s.mem.dir.length) && decide (waysOf line ≤ (s.rivals line).length)

/-- The home serves one request (R360). A request to a busy entry waits (R361); one that needs a new entry of a full set
evicts the way used least lately whose BUSY is clear, and waits until its line is back (R365). -/
def State.serve (s : State) (line : Nat) (r : Request) : State :=
  let e := s.dirEntry line
  if e.busy then s.setDir line { e with waiting := e.waiting ++ [r] }
  else if r.holds && e.ag == 0 && s.setFull line then
    match leastUsed (s.rivals line) with
    | none => { s with mem := { s.mem with stalled := s.mem.stalled ++ [(line, r)] } }
    | some v =>
      if v.2.st == 4 then (s.merge v.1).serveHeld line r
      else s.beginService v.1 (.evict line r) (v.2.holders.map (Msg.binv v.1))
  else s.serveHeld line r

/-- Requests that found their set busy come again when an entry of it is free. -/
def State.wake (s : State) (line : Nat) : State :=
  if s.mem.stalled.isEmpty then s
  else
    let l := s.mem.stalled.filter fun e => sameSet line e.1
    let s := { s with mem := { s.mem with stalled := s.mem.stalled.filter fun e => !sameSet line e.1 } }
    l.foldl (fun s e => s.serve e.1 e.2) s

/-- The service of a line ends, and the waiting requests are served in their order (R361). -/
def State.endService (s : State) (line : Nat) : State :=
  let e := s.dirEntry line
  let s := s.setDir line { e with busy := false, serving := none, waiting := [] }
  (e.waiting.foldl (fun s r => s.serve line r) s).wake line

/-- A request whose obstacles are gone is served from the home's bytes. -/
def State.proceed (s : State) (line : Nat) : State :=
  let e := s.dirEntry line
  match e.serving with
  | some (.homeWrite mask bytes clears) => (s.performHome line mask bytes clears).endService line
  | some (.own a mask bytes) => (s.grantOwn line a mask bytes).endService line
  | some (.read a _) => (s.grantRead line a).endService line
  | some (.evict l r) =>
    let t := s.setDir line { e with busy := false, serving := none, waiting := [] }
    (e.waiting.foldl (fun s r => s.serve line r) (t.serve l r)).wake line
  | none => s.endService line

/-- A forward reaches the holder (R361): for a read its copy goes to the requester and back to the home, and stays as S;
for an own it goes to the requester alone; for a write at the home it goes back. A holder that has given the line back has
nothing to send. -/
def State.onFwd (s : State) (line x : Nat) : State :=
  let e := s.dirEntry line
  let c := e.copy x
  if !AMap.has e.copies x then s
  else match e.serving with
  | some (.read a _) =>
    let s := (s.setDir line (e.setCopy x { c with dirty := 0 })).send (.fwdData line a c.data 0 false)
    (if x = 5 then s.shareSwitch line else s).send (.wbData line x c.data c.dirty true)
  | some (.own a mask bytes) =>
    ((s.leaves line x).setDir line { e with copies := AMap.drop e.copies x }).send
      (.fwdData line a (blend mask bytes c.data) (c.dirty ||| mask) true)
  | _ => ((s.leaves line x).setDir line { e with copies := AMap.drop e.copies x }).send (.wbData line x c.data c.dirty false)

/-- The holder's copy reaches the requester: S beside the holder, or M with one more contention (R360). DESIGN CHOICE (log 51): an
Own that is served as an ordinary transfer at CNT 3 leaves it at 3. -/
def State.onFwdData (s : State) (line a : Nat) (data : BitVec 1024) (dirty : BitVec 128) (own : Bool) : State :=
  let e := s.dirEntry line
  if own then
    let e := { e with
      ag := agBit a, st := 3, copies := [(a, { data := data, dirty := dirty })], cnt := if e.cnt == 3 then 3 else e.cnt + 1
      host := if kindOf (128 * line) = 1 then 3 else 0 }
    ((s.setDir line e).endService line).trimL2 a line
  else s.setDir line (e.setCopy a (if AMap.has e.copies a then { e.copy a with here := true } else { data := data }))

/-- An agent has given its copy back: its bit goes, a forward on its way to it finds nothing, and the request that waited for
it is served from the home (R361). -/
def State.gaveBack (s : State) (line x : Nat) : State :=
  let e := (s.dirEntry line).revoke x
  let requester := match e.serving with
    | some (.own b _ _) => b
    | _ => 6
  let s := (s.leaves line x).setDir line e
  let s := { s with mem := { s.mem with msgs := s.mem.msgs.filter fun m => m != .fwd line x && m != .inv line x && m != .binv line x } }
  if (e.holders.filter (· != requester)).isEmpty then s.proceed line else s

/-- A write-back is performed at the home: after a forward for a read the requester is a holder beside the sender, and BUSY
clears (R361). -/
def State.onWbData (s : State) (line x : Nat) (data : BitVec 1024) (mask : BitVec 128) (keep : Bool) : State :=
  let s := s.putHome line mask data
  let e := s.dirEntry line
  if !keep then s.gaveBack line x
  else match e.serving with
    | some (.read a _) =>
      let c : Copy := if AMap.has e.copies a then e.copy a else { data := s.homeLine line, here := false }
      ((s.setDir line { (e.grant a c) with st := 1 }).endService line).trimL2 a line
    | _ => s.endService line

/-- An invalidation, or a back-invalidation (R365), reaches a holder: a clean copy goes with an acknowledgement, a dirty one
with its bytes. -/
def State.onInv (s : State) (line a : Nat) : State :=
  let e := s.dirEntry line
  let c := e.copy a
  if !AMap.has e.copies a then s
  else
    let s := s.setDir line { e with copies := AMap.drop e.copies a }
    if e.exclusive && c.dirty != 0 then s.send (.wbData line a c.data c.dirty false) else s.send (.invAck line a)

/-- A grant reaches its agent. -/
def State.onData (s : State) (line a : Nat) : State :=
  let e := s.dirEntry line
  if AMap.has e.copies a then s.setDir line (e.setCopy a { e.copy a with here := true }) else s

/-- Deliver one message. -/
def State.onMsg (s : State) (m : Msg) : State :=
  match m with
  | .fwd line x => s.onFwd line x
  | .fwdData line a d dirty own => s.onFwdData line a d dirty own
  | .wbData line x d m keep => s.onWbData line x d m keep
  | .inv line a => s.onInv line a
  | .binv line a => s.onInv line a
  | .invAck line a => s.gaveBack line a
  | .data line a => s.onData line a

/-- The line a message is about. -/
def Msg.line : Msg → Nat
  | .fwd l _ => l
  | .fwdData l _ _ _ _ => l
  | .wbData l _ _ _ _ => l
  | .inv l _ => l
  | .binv l _ => l
  | .invAck l _ => l
  | .data l _ => l

/-- What the home asks of a holder reaches it after the copy that it has been granted. -/
def State.mayArrive (s : State) (m : Msg) : Bool :=
  match m with
  | .fwd l a => ((s.dirEntry l).copy a).here
  | .inv l a => ((s.dirEntry l).copy a).here
  | .binv l a => ((s.dirEntry l).copy a).here
  | _ => true

/-- Take the first message that satisfies a test out of the messages in flight. -/
def State.takeMsg (s : State) (p : Msg → Bool) : Option (Msg × State) :=
  match s.mem.msgs.find? fun m => p m && s.mayArrive m with
  | some m => some (m, { s with mem := { s.mem with msgs := s.mem.msgs.erase m } })
  | none => none

/-- Does a message stand before a request to a line: it is about the line, about an eviction for it, or about another line of
a set in which requests wait? -/
def State.concerns (s : State) (line : Nat) (m : Msg) : Bool :=
  m.line == line ||
  (match (s.dirEntry m.line).serving with
   | some (.evict l _) => l == line
   | _ => false) ||
  (!s.mem.stalled.isEmpty && sameSet line m.line)

/-- Let every message that concerns a line arrive, in order. -/
def State.settle : Nat → Nat → State → State
  | 0, _, s => s
  | n + 1, line, s =>
    match s.takeMsg (s.concerns line) with
    | some (m, t) => State.settle n line (t.onMsg m)
    | none => s

/-- A request and all that follows from it, as one unit: how an instruction's own access meets the directory. -/
def State.request (s : State) (line : Nat) (r : Request) : State :=
  State.settle 64 line ((State.settle 64 line s).serve line r)

/-- The state in which this module holds a line of a peer (R366). -/
def State.setPeer (s : State) (line : Nat) (st : BitVec 3) : State :=
  { s with mem := { s.mem with peerLines := AMap.set s.mem.peerLines line st } }

/-- A read served at the home slice as a home-die read (R360, R428): a holder in E or M writes back and keeps S; in P, claimed
bytes are merged. Of a line of a peer this module keeps S (R366). -/
def State.homeDieRead (s : State) (line : Nat) (mask : BitVec 128) : State :=
  let s := State.settle 64 line s
  let e := s.dirEntry line
  let t :=
    if kindOf (128 * line) = 2 then (if (AMap.get 0 s.mem.peerLines line).toNat < 2 then s else s.setPeer line 1)
    else if e.st == 4 then (if e.claims &&& mask == 0 then s else s.merge line)
    else if e.exclusive then
      match e.holders.head? with
      | some x =>
        let c := e.copy x
        let s := (s.putHome line c.dirty c.data).setDir line { (e.setCopy x { c with dirty := 0 }) with st := 1 }
        if x = 5 then s.shareSwitch line else s
      | none => s
    else s
  t.touch line

/-- Bring bytes of a line to a die (R360, R363): the state, the line, and which of its bytes are valid. A line of a peer comes
over the fabric, in E, or in S where other modules hold it, which the state does not show: a free value (log 8; R366). -/
def State.fetchLine (s : State) (die line : Nat) (mask : BitVec 128) : State × BitVec 1024 × BitVec 128 :=
  if homeDie line = some die then
    let s := s.homeDieRead line mask
    (s, s.homeLine line, ~~~((s.dirEntry line).claims))
  else if kindOf (128 * line) = 2 then
    (if AMap.has s.mem.peerLines line then s
     else
       let t := s.setPeer line (if Config.freeBit s.time.free then 1 else 2)
       { t with time := { t.time with free := t.time.free + 1 } }, s.homeLine line, BitVec.allOnes 128)
  else
    let s := State.settle 64 line s
    let e := s.dirEntry line
    let s :=
      if e.ag.getLsbD die then (if e.st == 4 then State.settle 64 line ((s.claimRead line die mask).touch line) else s)
      else s.request line (.read die mask)
    let e := s.dirEntry line
    (s, (e.copy die).data, if e.st == 4 then (e.copy die).claim else BitVec.allOnes 128)

/-- Perform the write-back of a core's dirty bytes (R357, R429): in its die's copy where that holds the line in E or M, silently,
or the bytes in its claim; in P otherwise as R363 has it; else the die owns the line and merges the bytes into what it is
granted. Lines of the home die are written at their home, lines of a peer over the fabric. -/
def State.performWrite (s : State) (die line : Nat) (mask : BitVec 128) (data : BitVec 1024) : State :=
  let s := s.unpoison line mask false
  if homeDie line = some die then s.request line (.homeWrite mask data)
  else if kindOf (128 * line) = 2 then (s.putHome line mask data).setPeer line 3
  else
    let s := State.settle 64 line s
    let e := s.dirEntry line
    if e.ag.getLsbD die && e.exclusive then
      s.setDir line { (e.setCopy die ((e.copy die).write mask data)) with host := if kindOf (128 * line) = 1 then 3 else 0 }
    else if e.ag.getLsbD die && e.st == 4 && mask &&& ~~~(e.copy die).claim == 0 then
      s.setDir line (e.setCopy die ((e.copy die).write mask data))
    else s.request line (.own die mask data)

/-- A byte that is on its way with a message: from a holder to the next, or to the home. -/
def State.byteInFlight (s : State) (line k : Nat) : Option Byte :=
  s.mem.msgs.findSome? fun m => match m with
    | .fwdData l _ d _ true => if l == line then some (lineByte d k) else none
    | .wbData l _ d w _ => if l == line && w.getLsbD k then some (lineByte d k) else none
    | _ => none

/-- The byte of an own request of a line. -/
def Request.byte (r : Request) (line own k : Nat) : Option Byte :=
  match r with
  | .own _ m d => if own == line && m.getLsbD k then some (lineByte d k) else none
  | .evict l (.own _ m d) => if l == line && m.getLsbD k then some (lineByte d k) else none
  | _ => none
/-- A byte that a request of a die carries to the home, the latest (R429): its L1 has handed it on. -/
def State.byteAsked (s : State) (line k : Nat) : Option Byte :=
  let e := s.dirEntry line
  (e.waiting.reverse.findSome? fun r => r.byte line line k) <|>
    (s.mem.stalled.reverse.findSome? fun r => r.2.byte line r.1 k) <|>
    s.mem.dir.findSome? fun d => d.2.serving.bind fun r => r.byte line d.1 k
/-- A byte in the coherence order of R336: on its way, or the copy that stands for the home, or the home (R357). -/
def State.coherentByte (s : State) (pa : Nat) : Byte :=
  let e := s.dirEntry (pa / 128)
  let k := pa % 128
  match s.byteAsked (pa / 128) k <|> s.byteInFlight (pa / 128) k with
  | some b => b
  | none =>
    match (if e.exclusive then e.holders.find? (AMap.has e.copies)
      else if e.st == 4 then e.holders.find? (fun a => (e.copy a).claim.getLsbD k) else none) with
    | some x => lineByte (e.copy x).data k
    | none => Store.get s.mem.bytes pa

/-- n bytes of memory at a physical address, little-endian, in the coherence order (R7, R336). -/
def State.physRead (s : State) (pa n : Nat) : Nat :=
  (List.range n).foldr (fun k x => x * 256 + (s.coherentByte (pa + k)).toNat) 0

/-- Write n bytes at a physical address at the home: any copies give way (R360). -/
def State.physWrite (s : State) (pa n x : Nat) : State :=
  s.request (pa / 128) (.homeWrite (byteMask (pa % 128) n) (BitVec.ofNat 1024 (x <<< (8 * (pa % 128)))))

end Sys2Proof.Machine
end

