-- ==== Sys2Proof/Machine/Tables.lean ====
section
/-! DEFINITION. Page tables (R213, R214, R460), and the translations that the TLB groups hold (R215). -/

namespace Sys2Proof.Machine

/-- Is data at a line refused as poisoned (R371, R462)? -/
def State.poisoned (s : State) (line : Nat) : Bool :=
  s.mem.poison.contains line ||
  (match homeDie line with
   | some d => s.lamp.failed.contains d
   | none => false) ||
  (kindOf (128 * line) == 2 && s.lamp.unreachable.contains (128 * line / 2 ^ 40 % 2 ^ 10))

/-- The offset in a page, and the physical address (R212). -/
def Leaf.offset (l : Leaf) (va : Nat) : Nat := if l.large then va % 0x200000 else va % 0x10000
def Leaf.phys (l : Leaf) (va : Nat) : Nat := l.pa + l.offset va

/-- The entry of an address space in the ASID root table (R460): the root, where it is valid and well formed. -/
def State.rootOf (s : State) (asid : Nat) : Option Nat :=
  let e := s.physRead (s.host.asidtab.toNat / 4096 % 2 ^ 40 * 4096 + 8 * asid) 8
  if e % 2 == 1 && e / 2 % 2 ^ 11 == 0 && e / 2 ^ 52 == 0 then some (e / 4096 * 4096) else none

/-- A leaf as a walk finds it (R213): where it lies, its bits, and whether it stands at the large-page level. -/
structure LeafAt where
  pos : Nat
  bits : Nat
  large : Bool
  deriving DecidableEq, Repr

/-- Is an entry a pointer, and where does it point (R213)? -/
def pointer (e : Nat) : Option Nat :=
  if e % 2 == 1 && e / 2 % 2 ^ 11 == 0 && e / 2 ^ 52 == 0 then some (e / 4096 * 4096) else none

/-- The lower bits of the five indices of a walk, and their widths, from the root down (R213). -/
def walkLevels : List (Nat × Nat) := [(47, 9), (38, 9), (29, 9), (21, 8), (16, 5)]

/-- The walk (R213): pointers to the leaf of a base or a large page; none where a pointer is missing or malformed. -/
def State.walkFrom (s : State) (va table : Nat) : List (Nat × Nat) → Option LeafAt
  | [] => none
  | (lo, w) :: r =>
    let pos := table + 16 * (va / 2 ^ lo % 2 ^ w)
    let e := s.physRead pos 16
    if lo = 16 then some { pos := pos, bits := e, large := false }
    else if lo = 21 && e.testBit 3 then some { pos := pos, bits := e, large := true }
    else match pointer e with
      | some t => s.walkFrom va t r
      | none => none
def State.walk (s : State) (root va : Nat) : Option LeafAt :=
  if va < 2 ^ 55 then s.walkFrom va root walkLevels else none

/-- The fields of a leaf (R213). -/
def leafFields (x : Nat) : Leaf :=
  { valid := x.testBit 0, flipped := x.testBit 6, rd := x.testBit 1, wr := x.testBit 2, large := x.testBit 4,
    tiled := x.testBit 5, sa := x.testBit 7, pa := x / 2 ^ 16 % 2 ^ 36 * 2 ^ 16, tcls := x / 2 ^ 52 % 16,
    dom := x / 2 ^ 56 % 256, hframe := x / 2 ^ 64 % 2 ^ 45 * 128 }

/-- May a physical address name a page (R212, R214)? -/
def frameLegal (pa : Nat) : Bool :=
  match kindOf pa with
  | 0 => decide (pa < Config.hbmBytes)
  | 1 => true
  | 2 => decide (pa % 2 ^ 40 < Config.hbmBytes)
  | _ => false

/-- Is a leaf well formed (R214)? -/
def LeafAt.legal (l : LeafAt) : Bool :=
  let x := l.bits
  let f := leafFields x
  decide (x < 2 ^ 109) && x / 256 % 256 == 0 && x.testBit 3 && f.large == l.large && (!l.large || f.pa % 2 ^ 21 == 0) &&
  frameLegal f.pa && !(f.valid && f.flipped) &&
  (if f.tiled then kindOf f.pa == 0 && f.hframe != 0 && decide (f.tcls ≤ 9) else f.hframe == 0 && f.tcls == 0)

/-- The leaf that maps an address, if it is valid and well formed. -/
def State.leafAt (s : State) (root va : Nat) : Option Leaf :=
  match s.walk root va with
  | some l => if l.legal && (leafFields l.bits).valid then some (leafFields l.bits) else none
  | none => none

/-- n bytes at a physical address; none where a line of them is refused as poisoned (R371). -/
def State.soundRead (s : State) (pa n : Nat) : Option Nat :=
  if (List.range ((pa + n - 1) / 128 - pa / 128 + 1)).any fun k => s.poisoned (pa / 128 + k) then none else some (s.physRead pa n)
/-- n bytes at a virtual address, as the command processor reads them through the leaves it finds; none where a page has no leaf,
or its data is refused. -/
def State.readThrough (s : State) (find : Nat → Option Leaf) (va n : Nat) : Option Nat :=
  let first := min n (65536 - va % 65536)
  match find va with
  | none => none
  | some l =>
    match s.soundRead (l.phys va) first with
    | none => none
    | some x =>
      if first = n then some x
      else match find (va + first) with
        | none => none
        | some m => (s.soundRead (m.phys (va + first)) (n - first)).map fun y => x + y * 2 ^ (8 * first)
/-- The same through the valid leaves of one page table; none also where the data is poisoned (log 52). -/
def State.readVirt (s : State) (root va n : Nat) : Option Nat := s.readThrough (s.leafAt root) va n
/-- A leaf that is present: valid, or left by a flip to the host (R56, R218). -/
def LeafAt.present (l : LeafAt) : Bool := l.legal && ((leafFields l.bits).valid || (leafFields l.bits).flipped)
/-- The same through the leaves that are present: a page that has flipped to the host flips back, and is no page fault (R56). -/
def State.readPresent (s : State) (root va n : Nat) : Option Nat :=
  s.readThrough (fun a => ((s.walk root a).filter LeafAt.present).map fun l => leafFields l.bits) va n

/-- The indices of a table's entries of some bytes that are not all zero: memory lists a byte of them, or an agent holds
their line. -/
def State.listedEntries (s : State) (table size entry : Nat) : List Nat :=
  let inside := fun (pa : Nat) => decide (table ≤ pa) && decide (pa < table + size)
  let held := s.mem.dir.flatMap fun e => (List.range (128 / entry)).map fun k => 128 * e.1 + entry * k
  (((s.mem.bytes.map Prod.fst ++ held).filter inside).map fun pa => (pa - table) / entry).eraseDups
/-- The leaves under a table, with the addresses they map. -/
def State.leavesUnder (s : State) (table va : Nat) : List (Nat × Nat) → List (Nat × LeafAt)
  | [] => []
  | (lo, w) :: r => (s.listedEntries table (16 * 2 ^ w) 16).flatMap fun i =>
      let pos := table + 16 * i
      let e := s.physRead pos 16
      let at_ := va + i * 2 ^ lo
      if lo = 16 then [(at_, { pos := pos, bits := e, large := false })]
      else if lo = 21 && e.testBit 3 then [(at_, { pos := pos, bits := e, large := true })]
      else match pointer e with
        | some t => s.leavesUnder t at_ r
        | none => []
/-- Every leaf of every address space that is present and well formed: the ASID, the address and the leaf. -/
def State.mappedLeaves (s : State) : List (Nat × Nat × LeafAt) :=
  (s.listedEntries (s.host.asidtab.toNat / 4096 % 2 ^ 40 * 4096) (8 * 65536) 8).flatMap fun asid =>
    match s.rootOf asid with
    | some root => ((s.leavesUnder root 0 walkLevels).filter fun e => e.2.legal && (e.2.bits.testBit 0 || e.2.bits.testBit 6)).map fun e => (asid, e.1, e.2)
    | none => []

/-- The cores of a TLB group: blocks of 2 rows by 3 columns of a die (R215). -/
def tlbGroup (core : Nat) : Nat := core / 72 * 12 + core % 72 / 9 / 2 * 3 + core % 9 / 3
/-- The translations of a core's TLB group. -/
def State.tlb (s : State) (core : Nat) : List TlbEntry := AMap.get [] s.mem.tlbs (tlbGroup core)
/-- Put translations of a grid into a TLB group (R56, R215): the oldest go where it is full. -/
def State.putTlb (s : State) (group : Nat) (l : List TlbEntry) : State :=
  let old := (AMap.get [] s.mem.tlbs group).filter fun e => !l.any fun f => f.grid == e.grid && f.page == e.page
  { s with mem := { s.mem with tlbs := AMap.set s.mem.tlbs group ((l ++ old).take Config.tlbEntries) } }
/-- Remove the translations that satisfy a test from every TLB group (R215, R218). -/
def State.dropTlb (s : State) (p : TlbEntry → Bool) : State :=
  { s with mem := { s.mem with tlbs := AMap.mapVals (fun _ l => l.filter fun e => !p e) s.mem.tlbs } }

/-- The leaf that translates an address for the executing group (R214, R215): from its TLB group, or else by a walk of the
page tables of its grid; none where the walk meets a missing or a malformed leaf. -/
def State.leafOf (s : State) (va : Nat) : Option Leaf :=
  match (s.tlb s.coreId).find? fun e => e.grid == s.gridId && e.page == va / 65536 with
  | some e => some e.leaf
  | none => s.leafAt s.grid.root va
/-- The walker refills the TLB group with the translation of an address (R215). -/
def State.refill (s : State) (va : Nat) : State :=
  if (s.tlb s.coreId).any fun e => e.grid == s.gridId && e.page == va / 65536 then s
  else match s.leafAt s.grid.root va with
    | some l => s.putTlb (tlbGroup s.coreId) [{ grid := s.gridId, page := va / 65536, leaf := l }]
    | none => s

end Sys2Proof.Machine
end

