-- ==== Sys2Proof/Machine/Translate.lean ====
section
/-! DEFINITION. Addresses: the apertures (R207), lease coverage and rights (R58, R264), pages and tiles (R212 to R214,
R221), and the order of the tests of rows 6 to 9 (R106). -/

namespace Sys2Proof.Machine

/-- What an access needs (R264). -/
inductive Need where
  | read
  | write
  | both
  deriving DecidableEq, Repr

def Need.reads : Need → Bool
  | .write => false
  | _ => true
def Need.writes : Need → Bool
  | .read => false
  | _ => true

/-- What an address names (R207). -/
inductive Aperture where
  | translated (va : Nat)
  | scratch (team off : Nat)
  | nothing
  | outside
  deriving DecidableEq, Repr

/-- The aperture of an address: scratch of this team or, through the window, of another position of the cluster. -/
def State.aperture (s : State) (a : DWord) : Aperture :=
  let x := a.toNat
  if x < 0x0080000000000000 then .translated x
  else if x < 0x00FFFFF000000000 then .nothing
  else if x < 0x00FFFFF100000000 then
    let o := x - 0x00FFFFF000000000
    if o < s.team.bytes then .scratch s.teamId o else .outside
  else if x < 0x0100000000000000 then
    let o := x - 0x00FFFFF100000000
    let p := o / 0x80000
    if p < s.grid.launch.width * s.grid.launch.height && decide (p < 12) && decide (o % 0x80000 < s.team.bytes) then
      .scratch (12 * s.clusterId + p) (o % 0x80000)
    else .outside
  else .nothing

/-- Does an address lie in a scratch aperture (R209)? -/
def inScratchAperture (a : DWord) : Bool := decide (0x00FFFFF000000000 ≤ a.toNat) && decide (a.toNat < 0x0100000000000000)

/-- Is this a page of the kernel's code (R56, R78)? -/
def Grid.codePage (g : Grid) (va : Nat) : Bool :=
  decide (g.kernel.base / 65536 ≤ va / 65536) && decide (va / 65536 * 65536 < g.kernel.base + g.kernel.size)

/-- Do the ranges and code pages of the lease permit an access (R56, R58)? -/
def Grid.covers (g : Grid) (va : Nat) (k : Need) : Bool :=
  let has := fun (bit : Nat) => g.ranges.any fun r => r.rights.getLsbD bit && decide (r.base ≤ va) && decide (va < r.base + r.len)
  (!k.reads || has 0 || g.codePage va) && (!k.writes || (has 1 && !g.codePage va))

/-- The tile that holds an address of a tiled page (R221). -/
def Leaf.tile (l : Leaf) (va : Nat) : Option TileRef :=
  if l.tiled then
    let i := l.offset va / 2 ^ (l.tcls + 5)
    some { header := l.hframe + 32 * i, base := l.pa + i * 2 ^ (l.tcls + 5), cls := l.tcls,
           va := va / 2 ^ (l.tcls + 5) * 2 ^ (l.tcls + 5) }
  else none

/-- Does a leaf's header frame hold the line of a physical address (R221)? -/
def Leaf.headerLine (l : Leaf) (pa : Nat) : Bool :=
  l.tiled && decide (l.hframe / 128 ≤ pa / 128) &&
    decide (pa / 128 ≤ (l.hframe + 32 * ((if l.large then 0x200000 else 0x10000) / 2 ^ (l.tcls + 5)) - 1) / 128)
/-- Is this a header line (R221): of a leased page, or of one that some page table describes? -/
def State.headerLine (s : State) (pa : Nat) : Bool :=
  kindOf pa == 0 &&
    (s.grids.any (fun g => g.2.live && g.2.leased && g.2.trans.any fun e => e.2.headerLine pa) ||
      s.mappedLeaves.any fun e => (leafFields e.2.2.bits).headerLine pa)

/-- Where an access goes: scratch of a team, or a leased page. -/
inductive Target where
  | scratch (team off : Nat)
  | memory (leaf : Leaf) (va pa : Nat)
  deriving DecidableEq, Repr

/-- The leased page of an address with the rights an access needs, ranges and leaf together (R58, R214). -/
def State.leased (s : State) (va : Nat) (k : Need) : Option Leaf :=
  if s.grid.covers va k then
    match s.leafOf va with
    | some l =>
      if (!k.reads || l.rd) && (!k.writes || l.wr) && !s.headerLine (l.phys va) then some l else none
    | none => none
  else none

/-- Row 7 and row 8 of R106 for one address: where it goes, or the class of its fault. -/
def State.target (s : State) (a : DWord) (k : Need) : Except Nat Target :=
  match s.aperture a with
  | .translated va =>
    match s.leased va k with
    | some l => .ok (.memory l va (l.phys va))
    | none => .error 0x07
  | .scratch t o => .ok (.scratch t o)
  | .nothing => .error 0x07
  | .outside => .error 0x06

/-- A fault that a lane's address meets: its class and the two addresses it reports. -/
structure AddrFault where
  cls : Nat
  adda : Addr
  addb : Addr := 0
  deriving DecidableEq, Repr

/-- Is an address aligned to a size (R208)? -/
def alignedTo (n : Nat) (a : DWord) : Bool := decide (a.toNat % n = 0)

/-- Rows 6 to 8 of R106 over the lanes' addresses in ascending lane order: the first row in which any fails decides, and
in it the lowest lane. `more` is the part of row 8 that depends on the access (R219). -/
def State.addressFault (s : State) (n : Nat) (k : Need) (more : Target → Bool) (l : List DWord) : Option AddrFault :=
  match l.find? (fun a => !alignedTo n a) with
  | some a => some { cls := 0x05, adda := a.setWidth 56 }
  | none =>
    let bad := fun (c : Nat) (a : DWord) => match s.target a k with
      | .error x => x == c
      | .ok t => c == 0x07 && !more t
    match l.find? (bad 0x06) with
    | some a => some { cls := 0x06, adda := a.setWidth 56 }
    | none =>
      match l.find? (bad 0x07) with
      | some a => some { cls := 0x07, adda := a.setWidth 56 }
      | none => none

/-- The fault of an instruction in the form its trap takes. -/
def State.raiseAddr (s : State) (f : AddrFault) : Out := s.raise f.cls f.adda f.addb

end Sys2Proof.Machine
end

