-- ==== Sys2Proof/Machine/Vector.lean ====
section
/-! DEFINITION. The vector instructions of M = 0x00 to 0x06 (R183 to R201): elementwise arithmetic, division and
transcendentals, bits and shifts, compares, selects and moves, the mixer, conversions, packing. -/

namespace Sys2Proof.Machine

/-- The draw of RSR for result element i in lane L, with the counter of a lane (R165): g63 is read like any register (R91, R92). -/
def State.draw (s : State) (i : Nat) (counterLane : Nat) : Nat :=
  (vmix (BitVec.ofNat 32 i) ((s.rdG 63).setWidth 32 ^^^ s.regs.getSc counterLane)).toNat

/-- The rounding counters advance in the lanes of a mask (R165), where the instruction rounds under RSR. -/
def State.bumpCounters (s : State) (rounds : Bool) (m : Mask) : State :=
  if rounds && modeRnd s.regs.gmode == 5 then
    (s.mark .scount m (some 0)).setRegs
      (lanes.foldl (fun r l => if m.has l then r.setSc l (r.getSc l + 1) else r) s.regs)
  else s

/-- The types an instruction accepts (R184). -/
inductive TypeSet where
  | arith
  | integer
  | wide
  | f32
  deriving DecidableEq, Repr

/-- The type of GMODE, where the set accepts it. -/
def TypeSet.pick (k : TypeSet) (m : Word) : Option Ty :=
  match k, tyOf (modeType m) with
  | .arith, some (.float f) => some (.float f)
  | .arith, some (.int t) => some (.int t)
  | .integer, some (.int t) => some (.int t)
  | .wide, some (.float f) => if f.width ≥ 16 then some (.float f) else none
  | .f32, some (.float f) => if f.width = 32 then some (.float f) else none
  | _, _ => none

/-- Apply a function at each element position of three lane slices (R185). -/
def perElem (w : Nat) (f : Nat → Nat → Nat → Nat → Nat) (x y z : Word) : Word :=
  fromElems w ((List.range (32 / w)).map fun e => f e (elem w x e) (elem w y e) (elem w z e))

/-- Does a slice hold a non-finite element? -/
def Ty.anyNonFinite (t : Ty) (x : Word) : Bool := (List.range (32 / t.width)).any fun e => t.nonFinite (elem t.width x e)

/-- What one lane of a typed instruction computes: its rounding carries the draw of each element. -/
def State.typedLane (s : State) (t : Ty) (f : Rounding → Nat → Nat → Nat → Nat) (d a b l : Nat) : Word :=
  perElem t.width (fun e => f (modeRounding s.regs.gmode (s.draw (l + 32 * e) l))) (s.rdV a l) (s.rdV b l) (s.rdV d l)

/-- The effect of a typed elementwise instruction (R187): the active lanes of vD, the rounding counters, NFT. -/
def State.typedEffect (s : State) (t : Ty) (rsr : Bool) (f : Rounding → Nat → Nat → Nat → Nat) (d a b : Nat)
    (lat : Option Nat) : State :=
  let act := s.active
  let res := s.typedLane t f d a b
  State.nonFinite (State.bumpCounters (s.wrV d act res lat) (rsr && match t with | .float _ => true | _ => false) act)
    (lanes.any fun l => act.has l && t.anyNonFinite (res l))

/-- A vector instruction: without an active lane it has no effect and raises no trap (R96). -/
def State.vector (s : State) (k : Out) : Out := if s.active = 0 then s.done else k

/-- A typed elementwise instruction. -/
def State.typed (s : State) (set : TypeSet) (rsr : Bool) (f : Ty → Rounding → Nat → Nat → Nat → Nat) (d a b : Nat)
    (lat : Option Nat) : Out :=
  s.vector (match set.pick s.regs.gmode with
    | none => s.illegalOperand
    | some t => (s.typedEffect t rsr (f t) d a b lat).done)

/-- An untyped elementwise instruction (R193, R195). -/
def State.bitwise (s : State) (f : Nat → Word) (d : Nat) : Out := s.vector ((s.wrV d s.active f latAlu).done)

/-- Floating and integer forms of an elementwise operation: the exact value of each, rounded or reduced once. -/
def elementwise (fl : Bool → Fl → Fl → Fl → Fl) (int : Int → Int → Int → Int) (t : Ty) (r : Rounding) (x y z : Nat) : Nat :=
  match t with
  | .float f => f.roundTo r (fl (r.rnd == 2) (f.input r.ftz x) (f.input r.ftz y) (f.input r.ftz z))
  | .int t => t.result r.sat (int (t.value x) (t.value y) (t.value z))
  | .vq2 => 0

/-- The exact values of R186 and R188, with the sign of an exact zero sum as R168 has it: a difference is the sum with the exact
negative, so that −0 minus +0 is −0 (log 15). -/
def addOp := elementwise (fun rdn x y _ => Fl.add rdn x y) (fun x y _ => x + y)
def subOp := elementwise (fun rdn x y _ => Fl.add rdn x y.neg) (fun x y _ => x - y)
def mulOp := elementwise (fun _ x y _ => Fl.mul x y) (fun x y _ => x * y)
def fmaOp := elementwise (fun rdn x y z => Fl.add rdn (Fl.mul x y) z) (fun x y z => x * y + z)
def fmsOp := elementwise (fun rdn x y z => Fl.add rdn (Fl.mul x y) z.neg) (fun x y z => x * y - z)
def fnmaOp := elementwise (fun rdn x y z => Fl.add rdn z (Fl.mul x y).neg) (fun x y z => z - x * y)
/-- `vmin` and `vmax` order −0 below +0 and round nothing (R188). -/
def minOp := elementwise (fun _ x y _ => Fl.min x y) (fun x y _ => min x y)
def maxOp := elementwise (fun _ x y _ => Fl.max x y) (fun x y _ => max x y)

/-- Change only the sign of a value that is no NaN. -/
def Fl.abs : Fl → Fl
  | .nan => .nan
  | .inf _ => .inf false
  | .fin _ m e => .fin false m e
def absOp := elementwise (fun _ x _ _ => x.abs) (fun x _ _ => if x < 0 then -x else x)
def negOp := elementwise (fun _ x _ _ => x.neg) (fun x _ _ => -x)

/-- The high half of the exact product by the type's signedness (R186). -/
def mulhOp (t : Ty) (_ : Rounding) (x y _ : Nat) : Nat :=
  match t with
  | .int t => ((t.value x * t.value y) / 2 ^ t.width % 2 ^ t.width).toNat
  | _ => 0

/-- A correctly rounded function of floating elements (R190). -/
def functionOp (g : Fmt → Rounding → Fl → Fl → Nat) (t : Ty) (r : Rounding) (x y _ : Nat) : Nat :=
  match t with
  | .float f => g f r (f.input r.ftz x) (f.input r.ftz y)
  | _ => 0
def divOp := functionOp (fun f r x y => f.div r x y)
def rcpOp := functionOp (fun f r x _ => f.div r (.fin false 1 0) x)
def sqrtOp := functionOp (fun f r x _ => f.sqrt r x)
def rsqOp := functionOp (fun f r x _ => f.rsqrt r x)
def exp2Op := functionOp (fun f r x _ => f.exp2 r x)
def log2Op := functionOp (fun f r x _ => f.log2 r x)

/-- R186: x + y. -/
def execVadd (_ : BitVec 3) (d a b : BitVec 7) (st : State) : Out :=
  st.typed .arith true addOp d.toNat a.toNat b.toNat latAlu
/-- R186: x − y. -/
def execVsub (_ : BitVec 3) (d a b : BitVec 7) (st : State) : Out :=
  st.typed .arith true subOp d.toNat a.toNat b.toNat latAlu
/-- R186: x × y. -/
def execVmul (_ : BitVec 3) (d a b : BitVec 7) (st : State) : Out :=
  st.typed .arith true mulOp d.toNat a.toNat b.toNat latAlu
/-- R186: the high half of the exact integer product, by the type's signedness. -/
def execVmulh (_ : BitVec 3) (d a b : BitVec 7) (st : State) : Out :=
  st.typed .integer false mulhOp d.toNat a.toNat b.toNat latAlu
/-- R186: x × y + z, rounded once. -/
def execVfma (_ : BitVec 3) (d a b : BitVec 7) (st : State) : Out :=
  st.typed .arith true fmaOp d.toNat a.toNat b.toNat latAlu
/-- R186: x × y − z, rounded once. -/
def execVfms (_ : BitVec 3) (d a b : BitVec 7) (st : State) : Out :=
  st.typed .arith true fmsOp d.toNat a.toNat b.toNat latAlu
/-- R186: z − x × y, rounded once. -/
def execVfnma (_ : BitVec 3) (d a b : BitVec 7) (st : State) : Out :=
  st.typed .arith true fnmaOp d.toNat a.toNat b.toNat latAlu
/-- R190, R191: x / y. -/
def execVdiv (_ : BitVec 3) (d a b : BitVec 7) (st : State) : Out :=
  st.typed .wide true divOp d.toNat a.toNat b.toNat latTrans
/-- R186, R188, R189: the lesser element. -/
def execVmin (_ : BitVec 3) (d a b : BitVec 7) (st : State) : Out :=
  st.typed .arith false minOp d.toNat a.toNat b.toNat latAlu
/-- R186, R188, R189: the greater element. -/
def execVmax (_ : BitVec 3) (d a b : BitVec 7) (st : State) : Out :=
  st.typed .arith false maxOp d.toNat a.toNat b.toNat latAlu
/-- R186, R188, R189: the magnitude. -/
def execVabs (_ : BitVec 3) (d a : BitVec 7) (st : State) : Out :=
  st.typed .arith false absOp d.toNat a.toNat a.toNat latAlu
/-- R186, R188, R189: the negation. -/
def execVneg (_ : BitVec 3) (d a : BitVec 7) (st : State) : Out :=
  st.typed .arith false negOp d.toNat a.toNat a.toNat latAlu
/-- R190, R191: 1 / x. -/
def execVrcp (_ : BitVec 3) (d a : BitVec 7) (st : State) : Out :=
  st.typed .wide true rcpOp d.toNat a.toNat a.toNat latTrans
/-- R190, R191: √x. -/
def execVsqrt (_ : BitVec 3) (d a : BitVec 7) (st : State) : Out :=
  st.typed .wide true sqrtOp d.toNat a.toNat a.toNat latTrans
/-- R190, R191: 1 / √x. -/
def execVrsq (_ : BitVec 3) (d a : BitVec 7) (st : State) : Out :=
  st.typed .wide true rsqOp d.toNat a.toNat a.toNat latTrans
/-- R190, R191: 2^x. -/
def execVexp2 (_ : BitVec 3) (d a : BitVec 7) (st : State) : Out :=
  st.typed .wide true exp2Op d.toNat a.toNat a.toNat latTrans
/-- R190, R191: log2(x). -/
def execVlog2 (_ : BitVec 3) (d a : BitVec 7) (st : State) : Out :=
  st.typed .wide true log2Op d.toNat a.toNat a.toNat latTrans

/-- The sum and its exact error (R179): the RNE sum, and the error or +0. -/
def twoSum (ftz : Bool) (x y : Word) : Word × Word :=
  let a := Fmt.f32.input ftz x.toNat
  let b := Fmt.f32.input ftz y.toNat
  let sum := Fl.add false a b
  let hi := Fmt.f32.roundTo { ftz := ftz } sum
  let err := if Fmt.f32.nonFinite hi then 0 else Fmt.f32.roundTo {} (Fl.add false sum (Fmt.f32.value hi).neg)
  (BitVec.ofNat 32 hi, BitVec.ofNat 32 (if err % 2 ^ 31 = 0 then 0 else err))

/-- The effect of `vtwosum`: both registers of the pair, NFT on the sum alone (R192). -/
def State.twoSumEffect (s : State) (d a b : Nat) : State :=
  let act := s.active
  let r := fun l => twoSum (modeFtz s.regs.gmode) (s.rdV a l) (s.rdV b l)
  State.nonFinite ((s.wrV d act (fun l => (r l).1) latAlu).wrV (d + 1) act (fun l => (r l).2) latAlu)
    (lanes.any fun l => act.has l && Fmt.f32.nonFinite (r l).1.toNat)

/-- R179, R192: the RNE sum and its exact error, in a pair. -/
def execVtwosum (_ : BitVec 3) (d a b : BitVec 7) (st : State) : Out :=
  st.vector (match TypeSet.f32.pick st.regs.gmode with
    | none => st.illegalOperand
    | some _ => (st.twoSumEffect d.toNat a.toNat b.toNat).done)

/-- R197: the counter-based mixer. -/
def execVmix (_ : BitVec 3) (d a b : BitVec 7) (st : State) : Out :=
  st.bitwise (fun l => vmix (st.rdV a.toNat l) (st.rdV b.toNat l)) d.toNat
/-- R195: vB where the lane predicate holds, else vD. -/
def execVsel (_ : BitVec 3) (d : BitVec 7) (a : BitVec 3) (b : BitVec 7) (st : State) : Out :=
  st.bitwise (fun l => if (st.rdP a.toNat).has l then st.rdV b.toNat l else st.rdV d.toNat l) d.toNat
/-- R195: a copy. -/
def execVmov (_ : BitVec 3) (d a : BitVec 7) (st : State) : Out := st.bitwise (fun l => st.rdV a.toNat l) d.toNat
/-- R195: the low word of a group register in every active lane. -/
def execVbc (_ : BitVec 3) (d : BitVec 7) (a : BitVec 6) (st : State) : Out :=
  st.bitwise (fun _ => (st.rdG a.toNat).extractLsb' 0 32) d.toNat
/-- R195: the high word of a group register in every active lane. -/
def execVbcHi (_ : BitVec 3) (d : BitVec 7) (a : BitVec 6) (st : State) : Out :=
  st.bitwise (fun _ => (st.rdG a.toNat).extractLsb' 32 32) d.toNat
/-- R196: one lane's value; an inactive source reads 0, and the test of the lane number is made in any case. -/
def execVlane (_ : BitVec 3) (d : BitVec 6) (a : BitVec 7) (b : BitVec 6) (st : State) : Out :=
  let n := (st.rdG b.toNat).toNat
  st.checked (decide (n < 32))
    (st.wrG d.toNat (if st.active.has n then zext 64 (st.rdV a.toNat n) else 0) latAlu).done

/-- Shifts of a lane slice (R193): a count of 32 or more empties it. -/
def shl32 (x y : Word) : Word := if y.toNat < 32 then x <<< y.toNat else 0
def shr32 (x y : Word) : Word := if y.toNat < 32 then x >>> y.toNat else 0
def sar32 (x y : Word) : Word := x.sshiftRight (min y.toNat 31)
/-- Leading zero bits, and one bits. -/
def leadingZeros {w : Nat} (x : BitVec w) : Nat := if x = 0 then w else w - 1 - Nat.log2 x.toNat
def oneBits {w : Nat} (x : BitVec w) : Nat := (List.range w).foldl (fun n i => if x.getLsbD i then n + 1 else n) 0

/-- R193: bitwise and. -/
def execVand (_ : BitVec 3) (d a b : BitVec 7) (st : State) : Out :=
  st.bitwise (fun l => st.rdV a.toNat l &&& st.rdV b.toNat l) d.toNat
/-- R193: bitwise or. -/
def execVor (_ : BitVec 3) (d a b : BitVec 7) (st : State) : Out :=
  st.bitwise (fun l => st.rdV a.toNat l ||| st.rdV b.toNat l) d.toNat
/-- R193: bitwise xor. -/
def execVxor (_ : BitVec 3) (d a b : BitVec 7) (st : State) : Out :=
  st.bitwise (fun l => st.rdV a.toNat l ^^^ st.rdV b.toNat l) d.toNat
/-- R193: complement. -/
def execVnot (_ : BitVec 3) (d a : BitVec 7) (st : State) : Out := st.bitwise (fun l => ~~~(st.rdV a.toNat l)) d.toNat
/-- R193: left shift. -/
def execVshl (_ : BitVec 3) (d a b : BitVec 7) (st : State) : Out :=
  st.bitwise (fun l => shl32 (st.rdV a.toNat l) (st.rdV b.toNat l)) d.toNat
/-- R193: logical right shift. -/
def execVshr (_ : BitVec 3) (d a b : BitVec 7) (st : State) : Out :=
  st.bitwise (fun l => shr32 (st.rdV a.toNat l) (st.rdV b.toNat l)) d.toNat
/-- R193: arithmetic right shift. -/
def execVsar (_ : BitVec 3) (d a b : BitVec 7) (st : State) : Out :=
  st.bitwise (fun l => sar32 (st.rdV a.toNat l) (st.rdV b.toNat l)) d.toNat
/-- R193: leading zero bits. -/
def execVclz (_ : BitVec 3) (d a : BitVec 7) (st : State) : Out :=
  st.bitwise (fun l => BitVec.ofNat 32 (leadingZeros (st.rdV a.toNat l))) d.toNat
/-- R193: one bits. -/
def execVpop (_ : BitVec 3) (d a : BitVec 7) (st : State) : Out :=
  st.bitwise (fun l => BitVec.ofNat 32 (oneBits (st.rdV a.toNat l))) d.toNat

/-- A comparison of element 0 (R194): of floating values, a NaN on either side given apart; or of integers. -/
inductive Cond where
  | eq
  | ne
  | lt
  | le
  | gt
  | ge
  | un
  deriving DecidableEq, Repr

/-- The truth of a condition from less and equal. -/
def Cond.holds (c : Cond) (less equal : Bool) : Bool :=
  match c with
  | .eq => equal
  | .ne => !equal
  | .lt => less && !equal
  | .le => less || equal
  | .gt => !less && !equal
  | .ge => !less || equal
  | .un => false

def compareElem (c : Cond) (ftz : Bool) (t : Ty) (x y : Nat) : Bool :=
  match t with
  | .float f =>
    let a := f.input ftz x
    let b := f.input ftz y
    if a == .nan || b == .nan then c == .ne || c == .un else c.holds (Fl.lt a b) (Fl.same a b)
  | .int t => c.holds (decide (t.value x < t.value y)) (decide (t.value x = t.value y))
  | .vq2 => false

/-- The lanes in which a condition holds. -/
def State.compareLanes (s : State) (c : Cond) (t : Ty) (a b : Nat) : Mask :=
  BitVec.ofBoolListLE (lanes.map fun l =>
    compareElem c (modeFtz s.regs.gmode) t (elem t.width (s.rdV a l) 0) (elem t.width (s.rdV b l) 0))

/-- A compare (R194): each active lane's bit of pD. -/
def State.compare (s : State) (c : Cond) (d a b : Nat) : Out :=
  s.vector (match TypeSet.arith.pick s.regs.gmode with
    | none => s.illegalOperand
    | some t => (s.wrP d s.active (s.compareLanes c t a b) latAlu).done)

/-- R194: eq. -/
def execVcmpEq (_ d : BitVec 3) (a b : BitVec 7) (st : State) : Out := st.compare .eq d.toNat a.toNat b.toNat
/-- R194: ne. -/
def execVcmpNe (_ d : BitVec 3) (a b : BitVec 7) (st : State) : Out := st.compare .ne d.toNat a.toNat b.toNat
/-- R194: lt. -/
def execVcmpLt (_ d : BitVec 3) (a b : BitVec 7) (st : State) : Out := st.compare .lt d.toNat a.toNat b.toNat
/-- R194: le. -/
def execVcmpLe (_ d : BitVec 3) (a b : BitVec 7) (st : State) : Out := st.compare .le d.toNat a.toNat b.toNat
/-- R194: gt. -/
def execVcmpGt (_ d : BitVec 3) (a b : BitVec 7) (st : State) : Out := st.compare .gt d.toNat a.toNat b.toNat
/-- R194: ge. -/
def execVcmpGe (_ d : BitVec 3) (a b : BitVec 7) (st : State) : Out := st.compare .ge d.toNat a.toNat b.toNat
/-- R194: un. -/
def execVcmpUn (_ d : BitVec 3) (a b : BitVec 7) (st : State) : Out := st.compare .un d.toNat a.toNat b.toNat

/-- The exact value of an element as a floating value. -/
def Ty.exact (t : Ty) (ftz : Bool) (x : Nat) : Fl :=
  match t with
  | .float f => f.input ftz x
  | .int t => Fl.ofUnits false (t.value x) 0
  | .vq2 => .nan

/-- Convert one element (R199, R200). -/
def convertElem (src dst : Ty) (r : Rounding) (x : Nat) : Nat :=
  match dst with
  | .float f => f.roundTo r (src.exact r.ftz x)
  | .int t =>
    match src with
    | .int u => t.result r.sat (u.value x)
    | _ =>
      match roundInt r (src.exact r.ftz x) with
      | none => 0
      | some (.error neg) => t.result true (if neg then t.low else t.high)
      | some (.ok n) => t.result true n
  | .vq2 => 0

/-- One lane of `vcvt` (R198): n = 32 / max(ws, wt) elements, the bits above them 0. -/
def State.convertLane (s : State) (src dst : Ty) (a l : Nat) : Word :=
  fromElems dst.width ((List.range (32 / max src.width dst.width)).map fun e =>
    convertElem src dst (modeRounding s.regs.gmode (s.draw (l + 32 * e) l)) (elem src.width (s.rdV a l) e))

def State.convertEffect (s : State) (src dst : Ty) (d a : Nat) : State :=
  let act := s.active
  let res := s.convertLane src dst a
  State.nonFinite (State.bumpCounters (s.wrV d act res latAlu) (convertRounds src dst) act)
    (lanes.any fun l => act.has l && dst.anyNonFinite (res l))

/-- `vcvt` (R198 to R200): the source type is TYPE. -/
def State.convert (s : State) (dst : Ty) (d a : Nat) : Out :=
  s.vector (match TypeSet.arith.pick s.regs.gmode with
    | none => s.illegalOperand
    | some src => (s.convertEffect src dst d a).done)

/-- R198: to f32. -/
def execVcvtF32 (_ : BitVec 3) (d a : BitVec 7) (st : State) : Out := st.convert (.float .f32) d.toNat a.toNat
/-- R198: to bf16. -/
def execVcvtBf16 (_ : BitVec 3) (d a : BitVec 7) (st : State) : Out := st.convert (.float .bf16) d.toNat a.toNat
/-- R198: to f16. -/
def execVcvtF16 (_ : BitVec 3) (d a : BitVec 7) (st : State) : Out := st.convert (.float .f16) d.toNat a.toNat
/-- R198: to e4m3. -/
def execVcvtE4m3 (_ : BitVec 3) (d a : BitVec 7) (st : State) : Out := st.convert (.float .e4m3) d.toNat a.toNat
/-- R198: to e5m2. -/
def execVcvtE5m2 (_ : BitVec 3) (d a : BitVec 7) (st : State) : Out := st.convert (.float .e5m2) d.toNat a.toNat
/-- R198: to i8. -/
def execVcvtI8 (_ : BitVec 3) (d a : BitVec 7) (st : State) : Out := st.convert (.int ⟨8, true⟩) d.toNat a.toNat
/-- R198: to n8. -/
def execVcvtN8 (_ : BitVec 3) (d a : BitVec 7) (st : State) : Out := st.convert (.int ⟨8, false⟩) d.toNat a.toNat
/-- R198: to i32. -/
def execVcvtI32 (_ : BitVec 3) (d a : BitVec 7) (st : State) : Out := st.convert (.int ⟨32, true⟩) d.toNat a.toNat
/-- R198: to n32. -/
def execVcvtN32 (_ : BitVec 3) (d a : BitVec 7) (st : State) : Out := st.convert (.int ⟨32, false⟩) d.toNat a.toNat
/-- R198: to i16. -/
def execVcvtI16 (_ : BitVec 3) (d a : BitVec 7) (st : State) : Out := st.convert (.int ⟨16, true⟩) d.toNat a.toNat
/-- R198: to n16. -/
def execVcvtN16 (_ : BitVec 3) (d a : BitVec 7) (st : State) : Out := st.convert (.int ⟨16, false⟩) d.toNat a.toNat

/-- R201: the low halves of two registers, joined. -/
def execVpack (_ : BitVec 3) (d a b : BitVec 7) (st : State) : Out :=
  st.bitwise (fun l => (st.rdV b.toNat l).extractLsb' 0 16 ++ (st.rdV a.toNat l).extractLsb' 0 16) d.toNat
/-- R201: the halves of a register, each zero-extended, in a pair. -/
def execVunpk (_ : BitVec 3) (d a : BitVec 7) (st : State) : Out :=
  st.vector ((st.wrV d.toNat st.active (fun l => zext 32 ((st.rdV a.toNat l).extractLsb' 0 16)) latAlu).wrV
    (d.toNat + 1) st.active (fun l => zext 32 ((st.rdV a.toNat l).extractLsb' 16 16)) latAlu).done

end Sys2Proof.Machine
end

