-- ==== Sys2Proof/Machine/Tiles.lean ====
section
/-! DEFINITION. Tiles, headers and shades (R221 to R236): the fields of a header, the view, the algebra of shades,
materialisation and type change, each edit of a tile one header change at its home. -/

namespace Sys2Proof.Machine

/-- The tiles that share a tile's line, itself among them: four of 32 bytes, two of 64, else one (R221). -/
def TileRef.mates (t : TileRef) : List TileRef :=
  if t.cls < 2 then
    let n := 2 ^ (t.cls + 5)
    let k := t.base % 128 / n
    (List.range (128 / n)).map fun i =>
      { header := t.header + 32 * i - 32 * k, base := t.base + n * i - n * k, cls := t.cls, va := t.va + n * i - n * k }
  else [t]
/-- The bytes of a line that lie in a tile. -/
def TileRef.within (t : TileRef) (line : Nat) : BitVec 128 :=
  if t.cls < 2 then byteMask (t.base % 128) (2 ^ (t.cls + 5))
  else if decide (t.base ≤ 128 * line) && decide (128 * line < t.base + 2 ^ (t.cls + 5)) then BitVec.allOnes 128 else 0

/-- A header's fields (R222). -/
structure Header where
  a : Word
  b : Word
  lo : Word
  hi : Word
  kind : Nat
  ty : Nat
  ready : Bool
  lock : Bool
  version : BitVec 16
  perm : BitVec 56
  xor : Nat
  deriving DecidableEq, Repr

/-- A header from its 32 bytes (R222). -/
def Header.ofBits (x : Nat) : Header :=
  let w := fun o n => x / 2 ^ (8 * o) % 2 ^ (8 * n)
  let ctl := w 16 2
  { a := BitVec.ofNat 32 (w 0 4), b := BitVec.ofNat 32 (w 4 4), lo := BitVec.ofNat 32 (w 8 4), hi := BitVec.ofNat 32 (w 12 4),
    kind := ctl % 4, ty := ctl / 4 % 16, ready := ctl.testBit 6, lock := ctl.testBit 7, version := BitVec.ofNat 16 (w 18 2),
    perm := BitVec.ofNat 56 (w 20 7), xor := w 27 2 % 2 ^ 14 }

/-- Read a header at its home. -/
def State.header (s : State) (pa : Nat) : Header := Header.ofBits (s.physRead pa 32)

/-- The control field, and the 32 bytes of a header as one number. -/
def Header.control (h : Header) : Nat :=
  h.kind + 4 * h.ty + (if h.ready then 64 else 0) + (if h.lock then 128 else 0)
def Header.bits (h : Header) : Nat :=
  h.a.toNat + h.b.toNat <<< 32 + h.lo.toNat <<< 64 + h.hi.toNat <<< 96 + h.control <<< 128 + h.version.toNat <<< 144
    + h.perm.toNat <<< 160 + h.xor <<< 216

/-- Write a header. -/
def State.putHeader (s : State) (pa : Nat) (h : Header) : State := s.physWrite pa 32 h.bits

/-- The identity permutation (R223). -/
def permIdentity : BitVec 56 := 0xDCBA9876543210#56
def Header.permAt (h : Header) (k : Nat) : Nat := (h.perm.extractLsb' (4 * k) 4).toNat
/-- The element width of a tile type in bytes: a vq2 tile is read as raw bytes. -/
def tyBytes (ty : Nat) : Nat :=
  match tyOf ty with
  | some (.float f) => f.width / 8
  | some (.int t) => t.width / 8
  | _ => 1
/-- The number e with 2^e elements in a tile (R222). -/
def Header.elemBits (h : Header) (cls : Nat) : Nat := cls + 5 - Nat.log2 (tyBytes h.ty)
/-- Is the shade identity (R223)? -/
def Header.identity (h : Header) : Bool := h.kind == 0 && h.perm == permIdentity && h.xor == 0
/-- The identity elementwise part (R226). -/
def Header.elementwiseIdentity (h : Header) : Bool := h.kind == 0
/-- Set the shade to identity (R223). -/
def Header.toIdentity (h : Header) : Header :=
  { h with a := 0x3F800000, b := 0, lo := 0xFF800000, hi := 0x7F800000, kind := 0, perm := permIdentity, xor := 0 }

/-- `P(j)`: bit k of the result is bit perm[k] of j (R225). -/
def permute (perm : Nat → Nat) (e j : Nat) : Nat :=
  (List.range e).foldl (fun x k => if j.testBit (perm k) then x + 2 ^ k else x) 0

/-- Round into a tile's element: RNE with saturation (R225). -/
def roundType (ty : Nat) (x : Fl) : Nat :=
  match tyOf ty with
  | some (.float f) => f.roundTo { sat := true } x
  | _ => 0

/-- The view of a value under a header's elementwise part (R225): a fill, or an affine map with its clamp. An integer tile
takes a fill's low bits. -/
def Header.shade (h : Header) (x : Nat) : Nat :=
  match h.kind with
  | 0 => x
  | 2 =>
    match tyOf h.ty with
    | some (.float f) => f.roundTo { sat := true } (Fmt.f32.value h.b.toNat)
    | _ => h.b.toNat % 2 ^ (8 * tyBytes h.ty)
  | _ =>
    match tyOf h.ty with
    | some (.float f) =>
      let v := f.value x
      let a := Fmt.f32.value h.a.toNat
      let b := Fmt.f32.value h.b.toNat
      let infinite := match v with | .inf _ => true | _ => false
      let zeroA := match a with | .fin _ m _ => m == 0 | _ => false
      if v == .nan || (zeroA && infinite) then f.nanCode
      else
        let t := Fl.add false (Fl.mul a v) b
        f.roundTo { sat := true } (Fl.clamp t (Fmt.f32.value h.lo.toNat) (Fmt.f32.value h.hi.toNat))
    | _ => x

/-- The payload index that view(j) reads (R225). -/
def Header.index (h : Header) (cls j : Nat) : Nat :=
  let e := h.elemBits cls
  h.xor ^^^ permute h.permAt e j

/-- view(j) of a tile, its payload read by a function from the byte offset (R225). -/
def Header.view (h : Header) (cls : Nat) (byte : Nat → Byte) (j : Nat) : Nat :=
  let w := tyBytes h.ty
  let i := h.index cls j
  h.shade ((List.range w).foldr (fun k x => x * 256 + (byte (i * w + k)).toNat) 0)

/-- Byte `o` of a tile as its readers see it: raw under an identity shade, in a vq2 tile, and in a torn one. -/
def Header.viewByte (h : Header) (cls : Nat) (byte : Nat → Byte) (o : Nat) : Byte :=
  if h.identity || h.ty == 7 || h.kind == 3 then byte o
  else
    let w := tyBytes h.ty
    BitVec.ofNat 8 (h.view cls byte (o / w) >>> (8 * (o % w)))

/-- Write a run of bytes at the home, line by line. -/
def State.physWriteRun (s : State) (pa : Nat) (bytes : List Byte) : State :=
  let lo := pa / 128
  let hi := (pa + bytes.length - 1) / 128
  if bytes.isEmpty then s
  else (List.range (hi - lo + 1)).foldl (fun s i =>
    let line := lo + i
    let at_ := fun k => 128 * line + k
    let inside := fun k => decide (pa ≤ at_ k) && decide (at_ k < pa + bytes.length)
    let mask := BitVec.ofBoolListLE ((List.range 128).map inside)
    s.request line (.homeWrite (mask.setWidth 128)
      (lineBytes fun k => if inside k then bytes.getD (at_ k - pa) 0 else 0))) s

/-- The bytes of a tile's payload as its view gives them (R229). -/
def State.viewBytes (s : State) (t : TileRef) (h : Header) : List Byte :=
  (List.range (2 ^ (t.cls + 5))).map fun o => h.viewByte t.cls (fun k => s.coherentByte (t.base + k)) o

/-- The payload bytes that a read of byte o of a tile needs under a header (R225). -/
def Header.needs (h : Header) (cls o : Nat) : List Nat :=
  if h.identity || h.ty == 7 then [o]
  else if h.kind == 2 then []
  else
    let w := tyBytes h.ty
    (List.range w).map fun k => h.index cls (o / w) * w + k
/-- The bytes of a tile that a read of n of its bytes from byte o needs under a header. -/
def TileRef.bytesFor (t : TileRef) (h : Header) (o n : Nat) : List Nat :=
  (List.range n).flatMap fun k => h.needs t.cls (o + k)
/-- Lines of a tile whose bytes a view takes from a line that is marked poisoned are marked too, once the tile is materialised
(DESIGN CHOICE, log 50): the spec does not say what becomes of such bytes. -/
def State.spoil (s : State) (t : TileRef) (h : Header) : State :=
  if s.mem.poison.isEmpty then s
  else
    let lines := (List.range (2 ^ (t.cls + 5))).filterMap fun o =>
      if (h.needs t.cls o).any (fun k => s.mem.poison.contains ((t.base + k) / 128)) then some ((t.base + o) / 128) else none
    { s with mem := { s.mem with poison := (lines.filter fun l => !s.mem.poison.contains l).eraseDups ++ s.mem.poison } }
/-- Materialise a tile that is not torn (R229), leaving the version to the whole change: the payload becomes its view, the
shade identity. -/
def State.materialise (s : State) (t : TileRef) (h : Header) : State × Header :=
  if h.identity || h.kind == 3 then (s, h)
  else ((s.physWriteRun t.base (s.viewBytes t h)).spoil t h, h.toIdentity)

/-- The version of a changed header (R222). -/
def Header.bump (h : Header) : Header := { h with version := h.version + 1 }
def State.commitHeader (s : State) (t : TileRef) (old new : Header) : State :=
  if old == new then s else s.putHeader t.header new.bump

/-- A write that reaches a tile at its home (R227, R229): the tile is materialised first, with one change of the version; a
torn tile takes raw bytes. -/
def State.tileWrite (s : State) (t : TileRef) (pa n x : Nat) : State :=
  let h := s.header t.header
  let (s, g) := s.materialise t h
  (s.commitHeader t h g).physWrite pa n x

/-- Convert a payload element between types of one width, as `vcvt` under RNE with SAT (R228). -/
def retypeElem (src dst x : Nat) : Nat :=
  match tyOf src, tyOf dst with
  | some a, some b => convertElem a b { sat := true } x
  | _, _ => x

/-- May a tile change its type (R228)? -/
def retypeLegal (src dst : Nat) : Bool :=
  src == dst || (src != 7 && dst != 7 && tyBytes src == tyBytes dst)

/-- Materialise and convert the payload in place (R227, R228). -/
def State.retype (s : State) (t : TileRef) (h : Header) (ty : Nat) : State × Header :=
  let (s, g) := s.materialise t h
  let w := tyBytes ty
  let elems := (List.range (2 ^ (t.cls + 5) / w)).map fun j => retypeElem h.ty ty (s.physRead (t.base + j * w) w)
  let bytes := elems.flatMap fun x => (List.range w).map fun k => BitVec.ofNat 8 (x >>> (8 * k))
  (s.physWriteRun t.base bytes, { g with ty := ty })

/-- A map to be composed after a tile's shade (R226). -/
inductive ShadeMap where
  | fill (c : Word)
  | affine (a b : Word)
  | clamp (lo hi : Word)
  | perm (p : BitVec 56) (x : Nat)
  deriving DecidableEq, Repr

/-- RNE of an exact f32 expression. -/
def rne32 (x : Fl) : Word := BitVec.ofNat 32 (Fmt.f32.roundTo {} x)
def val32 (x : Word) : Fl := Fmt.f32.value x.toNat
def fma32 (a x b : Word) : Word := rne32 (Fl.add false (Fl.mul (val32 a) (val32 x)) (val32 b))
def finite32 (x : Word) : Bool := !Fmt.f32.nonFinite x.toNat
def zero32 (x : Word) : Bool := x.toNat % 2 ^ 31 == 0
def lt32 (x y : Word) : Bool := Fl.lt (val32 x) (val32 y)
def min32 (x y : Word) : Word := if lt32 y x then y else x
def max32 (x y : Word) : Word := if lt32 x y then y else x

/-- A fill value as an integer tile keeps it (R224): the low bits of the type's width, sign- or zero-extended. -/
def fillValue (ty : Nat) (c : Word) : Word :=
  match tyOf ty with
  | some (.int t) => BitVec.ofInt 32 (t.value (c.toNat % 2 ^ t.width))
  | _ => c

/-- A fill of a tile: the permutation identity and the payload untouched (R226); the other shade fields as a fill
leaves them (R423): a 1.0, the bounds infinite. -/
def Header.fillWith (h : Header) (c : Word) : Header :=
  { h with a := 0x3F800000, b := fillValue h.ty c, lo := 0xFF800000, hi := 0x7F800000, kind := 2, perm := permIdentity, xor := 0 }

/-- The elementwise composition of R226, where it stays lazy; none where R227 materialises. -/
def Header.composeLazy (h : Header) : ShadeMap → Option Header
  | .fill c => some (h.fillWith c)
  | .affine a2 b2 =>
    if h.kind == 2 then
      let c := fma32 a2 h.b b2
      if finite32 c then some (h.fillWith c) else none
    else if zero32 a2 then some (h.fillWith b2)
    else if h.kind == 0 then
      some { h with a := a2, b := b2, lo := 0xFF800000, hi := 0x7F800000, kind := 1 }
    else
      let a := rne32 (Fl.mul (val32 a2) (val32 h.a))
      let b := fma32 a2 h.b b2
      let lo := fma32 a2 h.lo b2
      let hi := fma32 a2 h.hi b2
      let lost := (finite32 h.lo && !finite32 lo) || (finite32 h.hi && !finite32 hi)
      if !finite32 a || !finite32 b || zero32 a || lost then none
      else if a2.getLsbD 31 then some { h with a := a, b := b, lo := hi, hi := lo }
      else some { h with a := a, b := b, lo := lo, hi := hi }
  | .clamp l2 h2 =>
    if h.kind == 2 then
      let c := min32 (max32 h.b l2) h2
      if finite32 c then some (h.fillWith c) else none
    else if h.kind == 0 then some { h with a := 0x3F800000, b := 0, lo := l2, hi := h2, kind := 1 }
    else if lt32 h.hi l2 then (if finite32 l2 then some (h.fillWith l2) else none)
    else if lt32 h2 h.lo then (if finite32 h2 then some (h.fillWith h2) else none)
    else some { h with lo := max32 h.lo l2, hi := min32 h.hi h2 }
  | .perm p x =>
    if h.kind == 2 then some (h.fillWith h.b)
    else
      let at2 := fun k => (p.extractLsb' (4 * k) 4).toNat
      let q := (List.range 14).foldl (fun (acc : Nat) k => acc + at2 (h.permAt k) <<< (4 * k)) 0
      some { h with perm := BitVec.ofNat 56 q, xor := h.xor ^^^ permute h.permAt 14 x }

/-- The map M2 applied to one element eagerly, with the rounding of R225. -/
def ShadeMap.apply (m : ShadeMap) (h : Header) (x : Nat) : Nat :=
  let one : Header := { h.toIdentity with ty := h.ty }
  match Header.composeLazy one m with
  | some g => g.shade x
  | none => x

/-- Compose a map onto a tile's header (R226), materialising and applying it eagerly where the coefficients leave their
range (R227). -/
def State.compose (s : State) (t : TileRef) (h : Header) (m : ShadeMap) : State × Header :=
  match h.composeLazy m with
  | some g => (s, g)
  | none =>
    let (s, g) := s.materialise t h
    let w := tyBytes h.ty
    let elems := (List.range (2 ^ (t.cls + 5) / w)).map fun j => m.apply h (s.physRead (t.base + j * w) w)
    let bytes := elems.flatMap fun x => (List.range w).map fun k => BitVec.ofNat 8 (x >>> (8 * k))
    (s.physWriteRun t.base bytes, g)

/-- Does a tile type accept a shade (R224)? -/
def shadeAccepted (ty : Nat) : ShadeMap → Bool
  | .fill _ => ty != 7
  | .affine _ _ => decide (ty ≤ 4)
  | .clamp _ _ => decide (ty ≤ 4)
  | .perm _ _ => ty != 7

/-- The permutation test of R223 for a tile of 2^e elements. -/
def permLegal (e : Nat) (p : BitVec 56) (x : Nat) : Bool :=
  let at_ := fun k => (p.extractLsb' (4 * k) 4).toNat
  (List.range e).all (fun k => (List.range e).any fun j => at_ j == k) &&
  (List.range 14).all (fun k => decide (k < e) || at_ k == k) && decide (x < 2 ^ e)

/-- The two addresses a torn header records (R236). -/
def Header.torn1 (h : Header) : Addr := ((h.b ++ h.a : BitVec 64)).setWidth 56
def Header.torn2 (h : Header) : Addr := ((h.hi ++ h.lo : BitVec 64)).setWidth 56

end Sys2Proof.Machine
end

