-- ==== Sys2Proof/Machine/Cache.lean ====
section
/-! DEFINITION. The L1 of a core (R216, R217, R231, R232, R374 to R377) and the wick (R345 to R351): fills, write-backs,
self-invalidation, demands, releases and acquires. -/

namespace Sys2Proof.Machine

/-- A line of a core's L1. -/
def State.l1 (s : State) (core line : Nat) : L1Line := AMap.get {} (s.coreAt core).l1 line
/-- Keep a line, or forget it when it holds nothing. -/
def State.setL1 (s : State) (core line : Nat) (x : L1Line) : State :=
  let c := s.coreAt core
  s.setCoreAt core { c with l1 := if x.valid == 0 && x.dirty == 0 then AMap.drop c.l1 line else AMap.set c.l1 line x }
def State.dropL1 (s : State) (core line : Nat) : State :=
  let c := s.coreAt core
  s.setCoreAt core { c with l1 := AMap.drop c.l1 line }

/-- Does a sequence number come before another (R438)? -/
def seqBefore (a b : Word) : Bool := a != b && decide ((b - a).toNat < 2 ^ 31)

/-- The clusters of the replicas of a cluster, itself among them (R372): those of one grid and index. -/
def State.replicaClusters (s : State) (c : Nat) : List Nat :=
  let x := s.clusterAt c
  (s.clusters.filter fun e => e.2.live && e.2.grid == x.grid && e.2.cluidx == x.cluidx).map Prod.fst
/-- The groups that pair with a group, itself among them. -/
def State.partners (s : State) (gid : Nat) : List Nat := (s.replicaClusters (gid / 384)).map fun c => 384 * c + gid % 384
/-- The replica number of a group. -/
def State.replicaOf (s : State) (gid : Nat) : Nat := (s.clusterAt (gid / 384)).replica
/-- Does a group lead its set? -/
def State.leads (s : State) (gid : Nat) : Bool := s.replicaOf gid == (AMap.get {} s.groups gid).repl.leader
/-- Is the executing group a follower? -/
def State.follows (s : State) : Bool := s.replicated && !s.leads s.gid
/-- The core of the group that leads a group's set. -/
def State.leaderCore (s : State) (gid : Nat) : Option Nat :=
  ((s.partners gid).find? s.leads).map fun g => (AMap.get {} s.groups g).place.core

/-- The cores that hold a line as a verified shadow of a group whose leader is on a core (R377). -/
def State.shadowCores (s : State) (core line : Nat) : List Nat :=
  (s.cores.filter fun c => c.2.shadows.any fun g =>
    AMap.has g.2 line && (AMap.get {} g.2 line).verified && s.leaderCore g.1 == some core).map Prod.fst

/-- Materialise a tile as one change of its header (R227, R229); a torn one stays as it is. -/
def State.plainTile (s : State) (t : TileRef) : State :=
  let h := s.header t.header
  let (s, g) := s.materialise t h
  s.commitHeader t h g
/-- The tiles of a line of which a mask names bytes. -/
def touchedTiles (tile : Option TileRef) (line : Nat) (mask : BitVec 128) : List TileRef :=
  match tile with
  | some t => t.mates.filter fun u => u.within line &&& mask != 0
  | none => []

/-- Perform a core's write-back of masked bytes (R357), on a tiled page under R227 as a write that takes effect at its
arrival (R232): a tile shaded meanwhile is materialised, a torn one takes raw bytes (R236). -/
def State.performLine (s : State) (core line : Nat) (x : L1Line) : State :=
  ((touchedTiles x.tile line x.dirty).foldl State.plainTile s).performWrite (core / 72) line x.dirty x.data

/-- Write a line back (R216): its dirty bytes only; an unverified line stays (R374). The leader's core sends a notice to the
followers that hold the line as a verified shadow (R377). -/
def State.writeBack (s : State) (core line : Nat) : State :=
  let x := s.l1 core line
  if x.dirty == 0 || x.owner.isSome then s
  else
    let s := s.performLine core line x
    let s := s.setL1 core line { x with dirty := 0, tag := none, valid := x.valid ||| x.dirty }
    { s with mem := { s.mem with notices := s.mem.notices ++ (s.shadowCores core line).map (fun c => (c, line)) } }

/-- Write a line back and invalidate it. -/
def State.purge (s : State) (core line : Nat) : State :=
  if (s.l1 core line).owner.isSome then s else (s.writeBack core line).dropL1 core line

/-- Write back every line of a core that satisfies a test. -/
def State.writeBackAll (s : State) (core : Nat) (p : Nat → L1Line → Bool) : State :=
  ((s.coreAt core).l1.filter fun e => p e.1 e.2).foldl (fun s e => s.writeBack core e.1) s

/-- A mapping of the page of a physical address (R213), as a virtual address and a leaf: by the leases and by the page tables of
every address space. -/
def State.mappings (s : State) (pa : Nat) : List (Nat × Leaf) :=
  let covers := fun (l : Leaf) => l.valid && decide (l.pa ≤ pa) && decide (pa < l.pa + if l.large then 0x200000 else 0x10000)
  let at_ := fun (va : Nat) (l : Leaf) => let size := if l.large then 0x200000 else 0x10000
                                          (va / size * size + (pa - l.pa), l)
  (s.grids.flatMap fun g => if g.2.live && g.2.leased then
    (g.2.trans.filter fun e => covers e.2).map fun e => at_ (65536 * e.1) e.2 else []) ++
  (s.mappedLeaves.filter fun e => covers (leafFields e.2.2.bits)).map fun e => at_ e.2.1 (leafFields e.2.2.bits)
/-- The tile that holds a physical address (R221). -/
def State.tileOf (s : State) (pa : Nat) : Option TileRef := (s.mappings pa).findSome? fun e => e.2.tile e.1
/-- The tiles of a line of which a mask names bytes. -/
def State.lineTiles (s : State) (line : Nat) (mask : BitVec 128) : List TileRef := touchedTiles (s.tileOf (128 * line)) line mask
/-- Tiles that a write of bytes of a line reaches at their home are materialised first (R227). -/
def State.plainLine (s : State) (line : Nat) (mask : BitVec 128) : State := (s.lineTiles line mask).foldl State.plainTile s

/-- Does a line hold bytes of a tile? -/
def L1Line.ofTile (x : L1Line) (t : TileRef) : Bool :=
  match x.tile with
  | some u => u.mates.any fun v => v.header == t.header
  | none => false
/-- Headers stay only for tiles of which the core holds a line. -/
def CoreState.sweepHeaders (c : CoreState) : CoreState :=
  { c with headers := c.headers.filter fun h => c.l1.any fun e => match e.2.tile with
    | some t => t.mates.any fun u => u.header == h.1
    | none => false }

/-- The core of a follower group's leader writes back its copy of a line (R377): the home has the bytes of the shadow. -/
def State.leaderWrites (s : State) (g line : Nat) : State :=
  match s.leaderCore g with
  | some k => s.writeBack k line
  | none => s
/-- Self-invalidation (R350): every clean byte of the core's L1 goes, dirty bytes stay; a follower's verified shadow lines
go too (R377), the leader's copies of them written back first, so that the follower's next read finds its own write (R336). -/
def State.selfInvalidate (s : State) (core : Nat) : State :=
  let gone := (s.coreAt core).shadows.flatMap fun g => (g.2.filter fun e => e.2.verified).map fun e => (g.1, e.1)
  let s := gone.foldl (fun s e => s.leaderWrites e.1 e.2) s
  let c := s.coreAt core
  let l1 := (c.l1.map fun e => (e.1, { e.2 with valid := e.2.dirty })).filter fun e => !(e.2.valid == 0)
  s.setCoreAt core (CoreState.sweepHeaders
    { c with l1 := l1, shadows := AMap.mapVals (fun _ m => m.filter fun e => !e.2.verified) c.shadows })

/-- The cores whose L1 holds a line under another virtual address than one, in the TLB group of a core (R217). -/
def State.aliased (s : State) (core line : Nat) (virt : Nat × Nat) : List Nat :=
  (s.cores.filter fun c => tlbGroup c.1 == tlbGroup core && AMap.has c.2.l1 line && (AMap.get {} c.2.l1 line).virt != virt).map
    Prod.fst
/-- A fill under a second virtual address first writes back and invalidates the line held under the first, in every L1 of
the TLB group (R217). -/
def State.dropAliases (s : State) (core line : Nat) (virt : Nat × Nat) : State :=
  (s.aliased core line virt).foldl (fun s c => s.purge c line) s

/-- The first instruction that no replica of a group has issued yet (R375, R438). -/
def State.nextOfSet (s : State) (g : Nat) : Word :=
  (s.partners g).foldl (fun n k =>
    let t := (AMap.get {} s.groups k).ctx.regs.tseq
    if seqBefore n t then t else n) (AMap.get {} s.groups g).ctx.regs.tseq

/-- The group with the oldest unverified line of an L1 (R375). -/
def oldestOwner : AMap L1Line → Option (Nat × Nat)
  | [] => none
  | e :: r =>
    match e.2.owner, oldestOwner r with
    | some g, some b => if b.2 < e.2.since then some b else some (g, e.2.since)
    | some g, none => some (g, e.2.since)
    | none, b => b

/-- Lines of an L1 (R404: acqr counts up to 2,048). -/
def l1Lines : Nat := 2048
/-- The lines of an L1, shadow lines among them. -/
def CoreState.held (c : CoreState) : Nat := c.l1.length + (c.shadows.map fun g => g.2.length).sum
/-- Make room for one more line: the first line that may leave, and that the access under way does not need, is written back
and goes. The choice is the model's (log 7). -/
def State.makeRoom (s : State) (core line : Nat) (keep : List Nat) : State :=
  let c := s.coreAt core
  if AMap.has c.l1 line || decide (c.held < l1Lines) then s
  else match c.l1.find? (fun e => e.2.owner.isNone && !keep.contains e.1) with
    | some e => s.purge core e.1
    | none => s
/-- The lines that may leave an L1 for an access to some lines: ordinary lines that are not unverified (R374). -/
def CoreState.spare (c : CoreState) (keep : List Nat) : Nat :=
  (c.l1.filter fun e => e.2.owner.isNone && !keep.contains e.1).length
/-- Do the lines that an access brings find room (R375)? -/
def CoreState.roomFor (c : CoreState) (lines : List Nat) : Bool :=
  decide (c.held + (lines.filter fun l => !AMap.has c.l1 l).length ≤ l1Lines + c.spare lines)

/-- An access waits for room in an L1 (R375, R377): a verified shadow line leaves once its leader's core has written its copy
back, of which a notice comes; where there is none, the group with the oldest unverified line is to make a forced compare. -/
def State.fullUp (s : State) (core : Nat) : State :=
  let c := s.coreAt core
  match c.shadows.findSome? (fun g => (g.2.find? fun e => e.2.verified).map fun e => (g.1, e.1)) with
  | some (g, line) =>
    match s.leaderCore g with
    | some k => s.writeBack k line
    | none => s
  | none =>
    let waiting := c.shadows.flatMap fun g => g.2.map fun e => (e.1, { e.2 with owner := some g.1 })
    match oldestOwner (c.l1 ++ waiting) with
    | some (g, _) => s.setCoreAt core { c with full := some (g, if (s.partners g).contains s.gid then s.tseq else s.nextOfSet g) }
    | none => s

/-- A line's wick (R345). -/
def State.wick (s : State) (line : Nat) : Wick := AMap.get {} s.mem.wicks line
def State.setWick (s : State) (line : Nat) (w : Wick) : State :=
  { s with mem := { s.mem with wicks := AMap.set s.mem.wicks line w } }
/-- The core a wick names. -/
def Wick.coreId (w : Wick) : Nat := 72 * w.die.toNat + w.core.toNat
/-- Does a wick name another core whose covered lines are not written back? -/
def Wick.demands (w : Wick) (core : Nat) : Bool := w.v && !w.dr && w.coreId != core

/-- A tag at or before an epoch (R347). -/
def atOrBefore (t e : BitVec 20) : Bool := decide ((e - t).toNat < 2 ^ 19)

/-- Is a request the Own of a die, for itself or behind an eviction? -/
def Request.ownOf (r : Request) (die : Nat) : Bool :=
  match r with
  | .own a _ _ => a == die
  | .evict _ (.own a _ _) => a == die
  | _ => false
/-- The lines at which a write-back of a die is on its way to its home (R429): in service, waiting there, or for a set. -/
def State.ownLinesOf (s : State) (die : Nat) : List Nat :=
  (s.mem.dir.filter fun e => (e.2.serving.toList ++ e.2.waiting).any (·.ownOf die)).map Prod.fst ++
    (s.mem.stalled.filter fun e => e.2.ownOf die).map Prod.fst
/-- Has a die a write-back on its way to a home (R429)? -/
def State.ownPending (s : State) (die : Nat) : Bool := !(s.ownLinesOf die).isEmpty
/-- The demand of R348 on the core that a wick names: it writes back every line tagged at or before the epoch, and once every
such write-back has been performed (R357, R429) the line's wick, if it still names that core and epoch, gets DR. -/
def State.demand (s : State) (line : Nat) (w : Wick) : State :=
  let s := s.writeBackAll w.coreId fun _ x => match x.tag with
    | some t => atOrBefore t w.epoch
    | none => false
  let s := (s.ownLinesOf w.die.toNat).foldl (fun s l => State.settle 64 l s) s
  let v := s.wick line
  if !s.ownPending w.die.toNat && v.v && v.die == w.die && v.core == w.core && v.epoch == w.epoch then
    s.setWick line { v with dr := true }
  else s

/-- Does a demand on the core of a wick wait (R374): it holds a covered line that is unverified? -/
def State.demandWaits (s : State) (w : Wick) : Bool :=
  (s.coreAt w.coreId).l1.any fun e => e.2.owner.isSome && (match e.2.tag with
    | some t => atOrBefore t w.epoch
    | none => false)

/-- Keep a wick that a fill or a poll returned (R351): a newer one replaces the older of the line; a full record's oldest
is demanded at once, and stays while its demand waits. -/
def State.recordWick (s : State) (core line : Nat) : State :=
  let w := s.wick line
  if kindOf (128 * line) == 0 && w.demands core then
    let c := s.coreAt core
    let r := c.wickRec.filter fun e => e.1 != line
    let kept := s.setCoreAt core { c with wickRec := r ++ [(line, w)] }
    match r with
    | (l, v) :: rest =>
      if r.length < Config.wickRecord || s.demandWaits v then kept
      else (s.setCoreAt core { c with wickRec := rest ++ [(line, w)] }).demand l v
    | [] => kept
  else s

/-- Fill bytes of a line into an L1 (R216, R217, R360, R363): dirty bytes keep their values, and the tile they were stored
under. -/
def State.fillLine (s : State) (core line : Nat) (virt : Nat × Nat) (tile : Option TileRef) (need : BitVec 128)
    (keep : List Nat) : State :=
  let s := (s.dropAliases core line virt).makeRoom core line keep
  let (s, data, valid) := s.fetchLine (core / 72) line need
  let x := s.l1 core line
  let s := s.setL1 core line { x with
    data := blend x.dirty x.data data, valid := valid ||| x.dirty, virt := virt,
    tile := (if x.dirty == 0 then tile else x.tile)
    filled := if AMap.has (s.coreAt core).l1 line then x.filled else s.time.cycle }
  s.recordWick core line

/-- Does a line lie in a tile's payload? -/
def TileRef.holds (t : TileRef) (line : Nat) : Bool :=
  decide (t.base / 128 ≤ line) && decide (128 * line < t.base + 2 ^ (t.cls + 5))
/-- The lines of a tile that a core holds, under any address. -/
def CoreState.tileLines (c : CoreState) (t : TileRef) : List Nat :=
  (c.l1.filter fun e => e.2.ofTile t || t.holds e.1).map Prod.fst

/-- Write back and drop a core's lines of a tile, and its header. -/
def State.dropTile (s : State) (core : Nat) (t : TileRef) : State :=
  let s := ((s.coreAt core).tileLines t).foldl (fun s l => s.purge core l) s
  let c := s.coreAt core
  s.setCoreAt core (CoreState.sweepHeaders { c with headers := AMap.drop c.headers t.header })

/-- The header under which a core holds a tile. -/
def State.heldHeader (s : State) (core : Nat) (t : TileRef) : Option Header :=
  let c := s.coreAt core
  if AMap.has c.headers t.header then some (Header.ofBits (AMap.get 0 c.headers t.header).toNat) else none
/-- Does a core hold a tile under no header, or under one of another version than its home's (R231)? -/
def State.stale (s : State) (core : Nat) (t : TileRef) : Bool :=
  match s.heldHeader core t with
  | some h => h.version != (s.header t.header).version
  | none => true

/-- Does an L1 hold a byte, under a virtual address (R216)? -/
def State.l1Has (s : State) (core : Nat) (virt : Nat × Nat) (pa : Nat) : Bool :=
  let x := s.l1 core (pa / 128)
  x.virt == virt && x.valid.getLsbD (pa % 128)

/-- Does a core hold them under the header it has? -/
def State.servedTile (s : State) (core asid : Nat) (t : TileRef) (o n : Nat) : Bool :=
  match s.heldHeader core t with
  | some h => (t.bytesFor h o n).all fun k => s.l1Has core (asid, (t.va + k) / 128) (t.base + k)
  | none => false
/-- The lines that a read of n bytes of a tile may need: under the header that the core holds, and under its home's. -/
def State.tileNeeds (s : State) (core : Nat) (t : TileRef) (o n : Nat) : List Nat :=
  (((s.heldHeader core t).toList ++ [s.header t.header]).flatMap fun h =>
    (t.bytesFor h o n).map fun k => (t.base + k) / 128).eraseDups

/-- A core takes the headers of a tile and of those that share its line (R231). -/
def State.takeHeaders (s : State) (core : Nat) (t : TileRef) : State :=
  let c := s.coreAt core
  s.setCoreAt core { c with headers := t.mates.foldl (fun m u =>
    AMap.set m u.header (BitVec.ofNat 256 (s.header u.header).bits)) c.headers }
/-- A fill of lines of a tile first writes back and invalidates what the TLB group holds of the tile under other addresses (R217):
those write-backs may materialise it, and come before the pair of header and payload that the fill takes (R230). -/
def State.dropTileAliases (s : State) (core asid : Nat) (t : TileRef) : State :=
  s.cores.foldl (fun s c =>
    if tlbGroup c.1 == tlbGroup core then
      (c.2.l1.filter fun e => t.holds e.1 && e.2.virt != (asid, (t.va + (128 * e.1 - t.base)) / 128)).foldl (fun s e => s.purge c.1 e.1) s
    else s) s
/-- The shadow lines that the groups of a core hold verified of a tile leave, with the leader's copies written back (R377), where
its header has come to be another (R231). -/
def State.dropTileShadows (s : State) (core : Nat) (t : TileRef) : State :=
  let mine := fun (e : Nat × L1Line) => e.2.verified && e.2.ofTile t
  if (s.coreAt core).shadows.isEmpty then s
  else
    let gone := (s.coreAt core).shadows.flatMap fun g => (g.2.filter mine).map fun e => (g.1, e.1)
    let s := gone.foldl (fun s e => s.leaderWrites e.1 e.2) s
    let c := s.coreAt core
    s.setCoreAt core { c with shadows := AMap.mapVals (fun _ m => m.filter fun e => !mine e) c.shadows }

/-- Bring what a load of n bytes of a tile needs into the L1, under one header version (R231). A line comes with the headers of
all tiles in it; a tile held under another version goes first. -/
def State.fillTile (s : State) (core asid : Nat) (t : TileRef) (o n : Nat) (keep : List Nat) : State :=
  if s.servedTile core asid t o n then s
  else
    let s := if t.mates.any (s.stale core) then s.dropTile core t else s
    let s := s.dropTileAliases core asid t
    let s := if (s.header t.header).identity then s else s.dropTileShadows core t
    let s := s.takeHeaders core t
    (t.bytesFor (s.header t.header) o n).foldl (fun s k =>
      let pa := t.base + k
      let virt := (asid, (t.va + k) / 128)
      if s.l1Has core virt pa then s
      else s.fillLine core (pa / 128) virt (some t) (byteMask (pa % 128) 1) keep) s

/-- Drop the clean bytes of a core's lines of a tile (R353). -/
def State.dropClean (s : State) (core : Nat) (t : TileRef) : State :=
  let c := s.coreAt core
  let l1 := (c.l1.map fun e => if e.2.ofTile t || t.holds e.1 then (e.1, { e.2 with valid := e.2.dirty }) else e).filter
    fun e => !(e.2.valid == 0)
  s.setCoreAt core (CoreState.sweepHeaders { c with l1 := l1 })

/-- Drop a core's clean copies of bytes that have been read past them (R336): of a tile all its clean bytes. -/
def State.dropRead (s : State) (core : Nat) (tile : Option TileRef) (pa n : Nat) : State :=
  match tile with
  | some t => if ((s.coreAt core).tileLines t).isEmpty then s else s.dropClean core t
  | none =>
    if AMap.has (s.coreAt core).l1 (pa / 128) then
      let x := s.l1 core (pa / 128)
      s.setL1 core (pa / 128) { x with valid := x.valid &&& (x.dirty ||| ~~~(byteMask (pa % 128) n)) }
    else s

/-- n bytes of a core's L1 from a physical address, through the view of the tile they lie in. -/
def State.l1Byte (s : State) (core pa : Nat) : Byte := lineByte (s.l1 core (pa / 128)).data (pa % 128)
def State.l1Read (s : State) (core : Nat) (tile : Option TileRef) (pa n : Nat) : Nat :=
  let byte := fun k => match tile with
    | some t =>
      match s.heldHeader core t with
      | some h => h.viewByte t.cls (fun i => s.l1Byte core (t.base + i)) (pa + k - t.base)
      | none => s.l1Byte core (pa + k)
    | none => s.l1Byte core (pa + k)
  (List.range n).foldr (fun k x => x * 256 + (byte k).toNat) 0

/-- Place bytes in an L1 as dirty (R216); in replica mode the line is the group's unverified one, and what it held dirty and
verified goes to the home first, since a restart discards the line (R374, R384). -/
def State.l1Write (s : State) (core : Nat) (virt : Nat × Nat) (tile : Option TileRef) (owner : Option Nat)
    (keep : List Nat) (pa n x : Nat) : State :=
  let line := pa / 128
  let s := (s.dropAliases core line virt).makeRoom core line keep
  let s := if owner.isSome then s.writeBack core line else s
  let y := s.l1 core line
  let m := byteMask (pa % 128) n
  s.setL1 core line { y with
    data := blend m (BitVec.ofNat 1024 (x <<< (8 * (pa % 128)))) y.data, valid := y.valid ||| m, dirty := y.dirty ||| m,
    virt := virt, tile := tile, owner := owner <|> y.owner
    since := (if owner.isSome && y.owner.isNone then s.time.cycle else y.since)
    filled := if AMap.has (s.coreAt core).l1 line then y.filled else s.time.cycle }

/-- A read at the coherence point: tiled pages through the view at the home (R230). -/
def State.homeRead (s : State) (tile : Option TileRef) (pa n : Nat) : Nat :=
  match tile with
  | some t =>
    let h := s.header t.header
    (List.range n).foldr (fun k x =>
      x * 256 + (h.viewByte t.cls (fun i => s.coherentByte (t.base + i)) (pa + k - t.base)).toNat) 0
  | none => s.physRead pa n

/-- A write at the home. -/
def State.homeWrite (s : State) (tile : Option TileRef) (pa n x : Nat) : State :=
  match tile with
  | some t => s.tileWrite t pa n x
  | none => s.physWrite pa n x

/-- Does an acquire at a scope need self-invalidation, by the wicks found (R346, R348)? Not where every variable lies in
device HBM under a wick that names the acquirer's own core, short of system scope. -/
def State.mustInvalidate (s : State) (core scope : Nat) (lines : List Nat) : Bool :=
  scope == 5 || lines.isEmpty || lines.any fun l =>
    kindOf (128 * l) != 0 || !((s.wick l).v && (s.wick l).coreId == core)
/-- The demand that an access to a line makes, where its wick names another core with DR 0 (R348, R349). -/
def State.demandLine (s : State) (core line : Nat) : State :=
  let w := s.wick line
  if w.demands core then s.demand line w else s

/-- The lazy part of a release (R347): a new epoch, and every dirty line without a tag takes it. A counter that passes a
multiple of 2^18 leaves an epoch write-back to be made. -/
def State.newEpoch (s : State) (core : Nat) : State :=
  let c := s.coreAt core
  let e := c.epoch + 1
  let s := s.setCoreAt core { c with
    epoch := e
    l1 := AMap.mapVals (fun _ x => if x.dirty != 0 && x.tag.isNone && x.owner.isNone then { x with tag := some e } else x) c.l1 }
  if e.toNat % 2 ^ 18 == 0 then { s with mem := { s.mem with epochDue := s.mem.epochDue ++ [core] } } else s

/-- Before an atomic or a release at the home of a line whose wick names another core with DR 0: the demand (R349), and
the line leaves the other cores' records of their own lines (R347). -/
def State.beforeHome (s : State) (core line : Nat) : State :=
  let s := s.demandLine core line
  { s with cores := s.cores.map fun c =>
    if c.1 == core then c else (c.1, { c.2 with ownRec := c.2.ownRec.filter (· != line) }) }

/-- After a release at the home: the wick names the core with its epoch (R347). -/
def State.nameWick (s : State) (core line : Nat) : State :=
  let c := s.coreAt core
  let own := (line :: c.ownRec.filter (· != line)).take Config.ownLines
  (s.setCoreAt core { c with ownRec := own }).setWick line
    { v := true, dr := false, die := BitVec.ofNat 2 (core / 72), core := BitVec.ofNat 7 (core % 72), epoch := c.epoch }

/-- The eager part of a release (R346). -/
def State.writeBackDirty (s : State) (core : Nat) : State := s.writeBackAll core fun _ _ => true

/-- A release by the executing split at a scope, around the performance of its write (R346, R347, R349): at group and
team scope nothing is written back; from cluster scope the lazy path where the variable lies in device HBM, else, and at
system scope, the eager one. -/
def State.releaseAround (s : State) (scope : Nat) (lines : List Nat) (perform : State → State) : State :=
  let core := s.coreId
  if scope < 2 then perform s
  else
    let hbm := lines.filter fun l => kindOf (128 * l) == 0
    let s := if scope == 5 || hbm.length < lines.length || lines.isEmpty then s.writeBackDirty core else s
    let s := if hbm.isEmpty then s else s.newEpoch core
    let s := hbm.foldl (fun s l => s.beforeHome core l) s
    hbm.foldl (fun s l => s.nameWick core l) (perform s)

/-- An acquire by the executing split at a scope, of variables in the given lines of memory (R346, R348): of none where the
variable lies in scratch. -/
def State.acquireAt (s : State) (scope : Nat) (lines : List Nat) : State :=
  let core := s.coreId
  if scope < 2 then s
  else
    let goes := s.mustInvalidate core scope lines
    let s := (lines.filter fun l => kindOf (128 * l) == 0).foldl (fun s l => s.demandLine core l) s
    if goes then s.selfInvalidate core else s

/-- The wicks that `fence.acq` demands at cluster scope or wider (R351): those of the record, but for a follower those that name
its leader's core, whose L1 it never reaches (R374). -/
def State.recorded (s : State) : List (Nat × Wick) :=
  if s.follows then s.core.wickRec.filter fun e => s.leaderCore s.gid != some e.2.coreId else s.core.wickRec
/-- Those demands, with the record emptied of them; then self-invalidation. -/
def State.acquireRecorded (s : State) : State :=
  let core := s.coreId
  let r := s.recorded
  let s := r.foldl (fun s e => s.demand e.1 e.2) s
  (s.setCore { s.core with wickRec := s.core.wickRec.filter fun e => !r.contains e }).selfInvalidate core

end Sys2Proof.Machine
end

