-- ==== Sys2Proof/Machine/Signature.lean ====
section
/-! DEFINITION. Replica sets and signatures (R372, R378 to R381), the forced compare, and the turn of deterministic mode
(R392). -/

namespace Sys2Proof.Machine

/-- One byte into a CRC-64 of ECMA-182, most significant bit first (R378). -/
def crcBits : Nat → DWord → DWord
  | 0, c => c
  | k + 1, c => crcBits k (if c.getLsbD 63 then (c <<< 1) ^^^ 0x42F0E1EBA9EA3693#64 else c <<< 1)
def crcByte (c : DWord) (b : Byte) : DWord := crcBits 8 (c ^^^ (zext 64 b <<< 56))
def crc (c : DWord) (l : List Byte) : DWord := l.foldl crcByte c

/-- n bytes of a number, little-endian. -/
def leBytes (n x : Nat) : List Byte := (List.range n).map fun k => BitVec.ofNat 8 (x >>> (8 * k))

/-- One record of the stream (R379). -/
def sigRecord (addr : Nat) (code : Nat) (data : List Byte) : List Byte := leBytes 8 addr ++ [BitVec.ofNat 8 code] ++ data

/-- Add records to the group's signature, in replica mode. -/
def State.sign (s : State) (l : List Byte) : State :=
  if s.replicated then s.setGrp { s.grp with repl := { s.grp.repl with sig := crc s.grp.repl.sig l } } else s

/-- A command's record among those of its group, in program order (R379), whatever the order of completion. -/
def insertRec (e : EngineRec) : List EngineRec → List EngineRec
  | [] => [e]
  | x :: r => if seqBefore e.tseq x.tseq then e :: x :: r else x :: insertRec e r
/-- The records of the engine commands whose completion the group has acquired (R379, R380). -/
def Replica.folded (r : Replica) : List Byte :=
  (r.engine.filter fun e => e.acquired).flatMap fun e => sigRecord e.num (0x30 + e.ctx) (leBytes 8 e.crc.toNat)
/-- Take those records into the signature. -/
def Replica.fold (r : Replica) : Replica :=
  { r with sig := crc r.sig r.folded, engine := r.engine.filter fun e => !e.acquired }
/-- The signature of a stream closed with a release record and the count of atomics (R379). -/
def Replica.closed (r : Replica) (closing : List Byte) : DWord := crc (crc r.fold.sig closing) (leBytes 4 r.atomics.toNat)

/-- A compare (R381) that comes before an operation: the stream is closed with the record and the count of atomics, the
signature goes over the wires, and the split waits; once the compare has matched, the operation proceeds. -/
def State.compareFirst (s : State) (closing : List Byte) (k : Out) : Out :=
  if !s.replicated || s.spl.token then k
  else if s.grp.repl.skip then
    .next (s.setGrp { s.grp with repl := { s.grp.repl with skip := false, sig := 0, atomics := 0 } }
      |>.setSpl { s.spl with token := true })
  else
    let r := s.grp.repl
    .next ((s.setGrp { s.grp with repl := { r.fold with sent := some (r.closed closing), forced := false, since := s.time.cycle } }).waitFor .compare)

/-- A forced compare (R375, R387, R421, R478). -/
def forcedRecord : List Byte := sigRecord 0 0x47 []

/-- A forced compare that the instruction needs before it can be performed; after a match the instruction is tried
again. -/
def State.compareForced (s : State) : Out :=
  let r := s.grp.repl
  .next ((s.setGrp { s.grp with repl := { r.fold with sent := some (r.closed forcedRecord), forced := true, since := s.time.cycle } }).waitFor .compare)

/-- Does the executing group make a forced compare before its next instruction: an L1 is full of unverified lines, the oldest
the group's or its leader's (R375)? -/
def State.compareDue (s : State) : Bool :=
  s.replicated && s.cores.any fun c => match c.2.full with
    | some (g, n) => (s.partners s.gid).contains g && !seqBefore s.tseq n
    | none => false

/-- The team's index in the grid (R21). -/
def State.teamIndex (s : State) : Nat :=
  s.cluster.cluidx * (s.grid.launch.width * s.grid.launch.height) + s.pos
/-- The member that the executing split is at a level (R408). -/
def State.member (s : State) (level : Nat) : Nat := if level = 0 then s.slot else s.gid
/-- The phase that a wait at a barrier is for (R409): the member's target phase as it stands, where it waits for that. -/
def State.phaseOf (s : State) (level num : Nat) (phase : Word) (own : Bool) : Word :=
  let t := (s.barrier level num).targets
  if own && AMap.has t (s.member level) then AMap.get 0 t (s.member level) else phase
/-- The barrier of an arrival, among those of its grid. -/
def State.arrivalPlace (s : State) (level : Nat) : Nat :=
  if level = 2 then 4 * s.cluster.cluidx + s.cluster.replica else s.cluster.replica
/-- Has another team arrived in this period for a phase of a cluster or grid barrier, so that its wait is held until the serial phase
(R394, R409)? -/
def State.heldPhase (s : State) (level num : Nat) (phase : Word) : Bool :=
  s.deterministic && s.grid.det.arrived.any fun a =>
    a.level == level && a.place == s.arrivalPlace level && a.num == num && a.phase == phase && a.team != s.teamIndex
/-- Is what leaves a waiting split out of the minimum of clocks still to come (R392)? -/
def State.stillWaits (s : State) : Wait → Bool
  | .barrier level num phase own =>
    let p := s.phaseOf level num phase own
    !(s.barrier level num).passed p || s.heldPhase level num p
  | .timeline ctx n => decide ((s.ctx ctx).counter.toNat < n.toNat)
  | .ready va =>
    match (s.leafOf va).bind fun l => l.tile va with
    | some t => !((s.header t.header).ready || (s.header t.header).kind == 3)
    | none => false
  | .period n => !decide ((s.grid.det.period - n).toNat < 2 ^ 31)
  | .held _ => true
  | .phase grid period => (s.gridAt grid).live && (s.gridAt grid).det.period == period
  | _ => false
/-- Is a split of a group left out of the minimum of clocks (R392)? -/
def State.leftOut (s : State) (g slot : Nat) (x : Split) : Bool := x.live && x.wait.any (s.at_ g slot).stillWaits

/-- Do the clock and index of group `g` come at or after those of `me` (R392)? -/
def State.clockAfter (s : State) (me g : Nat) : Bool :=
  let a := (AMap.get {} s.groups me).ctx.regs.clock.toNat
  let b := (AMap.get {} s.groups g).ctx.regs.clock.toNat
  let idx := fun (g : Nat) => ((s.clusterAt (g / 384)).cluidx, g % 384)
  decide (a < b) || (decide (a = b) && (decide ((idx me).1 < (idx g).1) || (decide ((idx me).1 = (idx g).1) && decide ((idx me).2 ≤ (idx g).2))))

/-- A group's clock moves forward (R392, R418). -/
def Group.moveClock (g : Group) (now : DWord) : Group :=
  { g with
    ctx := { g.ctx with regs := { g.ctx.regs with clock := now } }
    repl := { g.repl with jumped := g.repl.jumped + (now - g.ctx.regs.clock) } }
/-- A group's place in its instruction stream: the instructions it has retired (R373, R417). -/
def Group.place_ (g : Group) : DWord := g.ctx.regs.clock - g.repl.jumped
/-- The clocks of the groups of a deterministic grid that an operation at a clock releases from a wait (R392). -/
def State.releaseClocks (s : State) (now : DWord) (p : Nat → Nat → Split → Bool) : State :=
  if s.deterministic then
    let here := s.gridGroups s.gridId
    { s with groups := AMap.mapVals (fun g x =>
      if g != s.gid && here.contains g && x.ctx.splits.any (fun e => e.2.live && p g e.1 e.2) then
        let c := x.ctx.regs.clock
        x.moveClock ((if c.toNat < now.toNat then now else c) + 1)
      else x) s.groups }
  else s

/-- Has the executing group the turn: is its clock the least among the grid's live groups that do not wait (R392)? In both
modes the leaders' clocks decide (R396). -/
def State.hasTurn (s : State) : Bool :=
  (s.gridGroups s.gridId).all fun g =>
    g == s.gid || !s.leads g ||
    (AMap.get {} s.groups g).ctx.splits.any (fun e => s.leftOut g e.1 e.2) || s.clockAfter s.gid g

/-- Has the leader of the executing group's set retired the executing instruction? Each replica runs the same stream (R373). -/
def State.leaderPassed (s : State) : Bool :=
  match (s.partners s.gid).find? s.leads with
  | some g =>
    let x : Group := AMap.get {} s.groups g
    !x.live || decide (s.grp.place_.toNat < x.place_.toNat)
  | none => true
/-- May the executing group perform a synchronising operation now (R392, R396)? -/
def State.myTurn (s : State) : Bool := if s.follows then s.leaderPassed else s.hasTurn
/-- A follower's synchronising operation waits until the leader has performed its own (R396), after the compare that comes before
it. -/
def State.afterLeader (s : State) (k : Out) : Out :=
  if s.deterministic && s.follows && !s.leaderPassed then .next (s.waitFor .turn) else k

/-- A synchronising operation of a deterministic grid issues at its turn (R392); a follower goes with its leader (R396). -/
def State.inTurn (s : State) (sync : Bool) (k : Out) : Out :=
  if s.deterministic && sync && !s.follows && !s.hasTurn then .next (s.waitFor .turn) else k

end Sys2Proof.Machine
end

