-- ==== Sys2Proof/Machine/Memory.lean ====
section
/-! DEFINITION. What an instruction's access does to memory (R209, R219, R244, R263 to R267, R374 to R376, R391, R478):
where it may have to wait, the data state it meets, and reads and writes through the L1 or at the home. -/

namespace Sys2Proof.Machine

/-- Scratch bytes: 2^20 addresses for each team. -/
def scratchKey (team off : Nat) : Nat := team * 2 ^ 20 + off
def State.scratchRead (s : State) (team off n : Nat) : Nat :=
  (List.range n).foldr (fun k x => x * 256 + (Store.get s.mem.scratch (scratchKey team (off + k))).toNat) 0
def putScratch (m : Store 8) (key : Nat) (x : Nat) : Nat → Store 8
  | 0 => m
  | n + 1 => putScratch (Store.set m key (BitVec.ofNat 8 x)) (key + 1) (x / 256) n
def State.scratchWrite (s : State) (team off n x : Nat) : State :=
  { s with mem := { s.mem with scratch := putScratch s.mem.scratch (scratchKey team off) x n } }

/-- Where a byte of scratch lies among the bytes that R240 speaks of, apart from memory. -/
def seenKey (team off : Nat) : Nat := 2 ^ 60 + scratchKey team off
/-- A write of the program to some bytes comes after what a command of the team wrote there: later commands see it (R241). -/
def State.forgetUnseen (s : State) (key n : Nat) : State :=
  if s.team.unseen.isEmpty then s
  else s.setTeam { s.team with unseen := s.team.unseen.filter fun e => !(decide (key ≤ e.key) && decide (e.key < key + n)) }
/-- Where a place's bytes lie. -/
def Target.key : Target → Nat
  | .scratch team off => seenKey team off
  | .memory _ _ pa => pa

/-- Is no data anywhere refused as poisoned? -/
def State.allSound (s : State) : Bool := s.mem.poison.isEmpty && s.lamp.failed.isEmpty && s.lamp.unreachable.isEmpty
/-- The bytes of a tile from which an access to n of its bytes takes its values: the view of those it reads, and of the whole
tile where it materialises it (R225, R227). -/
def TileRef.sources (t : TileRef) (h : Header) (k : Need) (o n : Nat) : List Nat :=
  if k.writes && !h.identity then t.bytesFor h 0 (2 ^ (t.cls + 5)) else t.bytesFor h o n
/-- Row 9 of R106 for one lane's access to n bytes: a torn tile before a poisoned line (R236, R265, R371), be it the line of the
address or one from which its view or a materialisation takes bytes. A header that cannot be read says nothing. -/
def State.dataFault (s : State) (n : Nat) (k : Need) (a : DWord) (t : Target) : Option AddrFault :=
  match t with
  | .scratch _ _ => none
  | .memory leaf va pa =>
    let lost : AddrFault := { cls := 0x09, adda := a.setWidth 56 }
    match leaf.tile va with
    | none => if s.poisoned (pa / 128) then some lost else none
    | some t =>
      let h := s.header t.header
      if s.poisoned (t.header / 128) then some lost
      else if h.kind == 3 then some { cls := 0x08, adda := h.torn1, addb := h.torn2 }
      else if s.poisoned (pa / 128) ||
        (!s.allSound && (t.sources h k (pa - t.base) n).any fun o => s.poisoned ((t.base + o) / 128)) then some lost
      else none

/-- The ownership of a line in the executing grid (R390). -/
def State.ownership (s : State) (line : Nat) : Own := AMap.get {} s.grid.det.own line
/-- How a deterministic team's access to a line is served (R391): normally, through the buffer, or not before the serial
phase. -/
inductive Served where
  | direct
  | buffered
  | held
  deriving DecidableEq, Repr
def State.served (s : State) (line : Nat) : Served :=
  if !s.deterministic || kindOf (128 * line) != 0 then .direct
  else
    let o := s.ownership line
    if o.state == 1 then (if o.team.toNat == s.teamIndex then .direct else .held) else .buffered

/-- The lines a team has buffered. -/
def Team.bufferedLines (t : Team) : List Nat := (t.wbuf.map BufWrite.line).eraseDups

/-- Is the access carried uncached to a host page, as the plain PCIe personality has it (R219)? -/
def State.plainPcie (s : State) : Bool := !s.host.link.getLsbD 0
def State.uncached (s : State) (pa : Nat) : Bool := kindOf pa == 1 && s.plainPcie

/-- Does an access go past the L1: uncached, or to host or peer memory in deterministic mode, where it is a synchronising
operation performed at its home (R391, R392)? -/
def State.bypasses (s : State) (pa : Nat) : Bool := s.uncached pa || (s.deterministic && kindOf pa != 0)

/-- The lines that a read of n bytes of a place may bring into the L1, with the virtual lines they are held under (R216,
R231). -/
def State.lineNeeds (s : State) (leaf : Leaf) (va pa n : Nat) : List Nat :=
  match leaf.tile va with
  | some t => s.tileNeeds s.coreId t (pa - t.base) n
  | none => [pa / 128]
def virtOf (asid va pa line : Nat) : Nat × Nat := (asid, va / 128 + line - pa / 128)
/-- The lines of L1s that an access touches: those it is served from, those of a tile held under another version or read at
its home (R231, R274), and for an access through the L1 the same lines under another virtual address (R217). -/
def State.touches (s : State) (leaf : Leaf) (va pa n : Nat) (atHome : Bool) : List (Nat × Nat) :=
  let lines := s.lineNeeds leaf va pa n
  let more := match leaf.tile va with
    | some t => if atHome || t.mates.any (s.stale s.coreId) then s.core.tileLines t else []
    | none => []
  (lines ++ more).map (fun l => (s.coreId, l)) ++
    (if atHome then [] else lines.flatMap fun l =>
      (s.aliased s.coreId l (virtOf s.grid.asid va pa l)).map fun c => (c, l))
/-- Does another group hold a line of an L1 unverified (R374)? A replica of the writing group is no such group. -/
def State.foreign (s : State) (core line : Nat) : Bool :=
  match (s.l1 core line).owner with
  | some g => g != s.gid && !(s.partners s.gid).contains g
  | none => false

/-- Do some bytes of a team's scratch lie under an entry of the range scoreboard (R244)? -/
def State.underLock (s : State) (team off n : Nat) : Bool :=
  (s.coreAt (s.teamAt team).core).locks.any fun l => l.scratch == team && decide (l.lo < off + n) && decide (off ≤ l.hi)
/-- What an access waits for (R235, R244, R374, R391). `atHome` says that it is performed at the home. -/
def State.blocked (s : State) (t : Target) (n : Nat) (atHome : Bool) : Option Wait :=
  match t with
  | .scratch team off =>
    if s.underLock team off n then some (.range team off n) else none
  | .memory leaf va pa =>
    let line := pa / 128
    if s.host.atomics.any (fun o => o.gid == s.gid && o.lanes.any fun e => e.2.1 / 128 == line) then some (.line line)
    else if atHome && s.cores.any (fun c => s.foreign c.1 line) then some (.line line)
    else if let some x := (s.touches leaf va pa n atHome).find? fun e => s.foreign e.1 e.2 then some (.line x.2)
    else if s.served line == .held then some (.held [line])
    else match leaf.tile va with
      | some t => if (s.header t.header).lock then some (.lock t.header) else none
      | none => none

/-- The lines that some places touch. -/
def linesOf (l : List Target) : List Nat :=
  (l.filterMap fun t => match t with
    | .scratch _ _ => none
    | .memory _ _ pa => some (pa / 128)).eraseDups
/-- The lines among some that are private to another team (R391). -/
def State.linesHeld (s : State) (l : List Nat) : List Nat := l.filter fun x => s.served x == .held
/-- Would writes of some lines exceed the team's buffer (R393)? -/
def State.bufferFull (s : State) (l : List Nat) : Bool :=
  let fresh := l.filter fun x => s.served x == .buffered && !s.team.bufferedLines.contains x
  !fresh.isEmpty && decide (Config.bufferLines < s.team.bufferedLines.length + fresh.length)
/-- Does an access of a deterministic team wait for the serial phase: it reaches a line private to another team (R391), or
its writes would exceed the team's buffer (R393)? -/
def State.holdsBack (s : State) (l : List Nat) (write atHome : Bool) : Bool :=
  s.deterministic && (!(s.linesHeld l).isEmpty || (write && !atHome && s.bufferFull l))
/-- What it waits for then: a line that is held, or room in the buffer, which leaves the group in the minimum of clocks (R392, R393). -/
def State.heldWait (s : State) (l : List Nat) : Wait := if (s.linesHeld l).isEmpty then .full l else .held (s.linesHeld l)

/-- The follower group's own shadow of a byte (R376). -/
def State.shadowByte (s : State) (pa : Nat) : Option Byte :=
  let x := AMap.get {} (AMap.get [] s.core.shadows s.gid) (pa / 128)
  if x.dirty.getLsbD (pa % 128) then some (lineByte x.data (pa % 128)) else none
/-- A team's own buffered byte: the latest write (R391). -/
def State.bufferedByte (s : State) (pa : Nat) : Option Byte :=
  match s.team.wbuf.find? (fun w => w.line == pa / 128 && w.mask.getLsbD (pa % 128)) with
  | some w => some (lineByte w.data (pa % 128))
  | none => none

/-- Does the instruction of a line request still await its result (R89)? -/
def State.missOpen (s : State) (m : Miss) : Bool :=
  (m.gid == s.gid && m.tseq == s.tseq) ||
    (AMap.get {} s.groups m.gid).inflight.any fun e => e.tseq == m.tseq && e.ready.isNone
/-- A line request of the executing instruction (R220), for a lane's address: it takes an ordinary entry, or is rejected for the first
time. -/
def State.noteMiss (s : State) (va line : Nat) : State :=
  let c := s.core
  let l := c.misses.filter s.missOpen
  if l.any (fun m => m.line == line && m.gid == s.gid && m.tseq == s.tseq) then s
  else
    let free := decide ((l.filter fun m => m.entry == 1).length < Config.mshrOrdinary)
    s.setCore { c with misses := l ++
      [{ line := line, gid := s.gid, tseq := s.tseq, va := va, age := if free then 0 else 1, entry := if free then 1 else 0 }] }

/-- A request of the executing instruction at a place's home, past the L1, until its result is back (R369, R462). -/
def State.noteRequest (s : State) (t : Target) : State :=
  match t with
  | .scratch _ _ => s
  | .memory _ va pa =>
    let c := s.core
    s.setCore { c with misses := c.misses.filter s.missOpen ++ [{ line := pa / 128, gid := s.gid, tseq := s.tseq, va := va, entry := 3 }] }
/-- Is an access to a place served through the L1 (R216, R391)? -/
def State.throughL1 (s : State) (pa : Nat) : Bool := !s.bypasses pa && s.served (pa / 128) == .direct
/-- Does the L1 hold what a read of n bytes of a place needs, under its address and one header version (R216, R231)? -/
def State.hits (s : State) (leaf : Leaf) (va pa n : Nat) : Bool :=
  match leaf.tile va with
  | some t => s.servedTile s.coreId s.grid.asid t (pa - t.base) n
  | none => (List.range n).all fun k => s.l1Has s.coreId (s.grid.asid, va / 128) (pa + k)
/-- Bring what a load needs into the L1, where it is served from there: each line that is missed, with the translation (R215, R216,
R220). The lines that the whole instruction needs stay. -/
def State.prepare (s : State) (t : Target) (n : Nat) (keep : List Nat) : State :=
  match t with
  | .scratch _ _ => s
  | .memory leaf va pa =>
    if s.throughL1 pa && s.hits leaf va pa n then s
    else if !s.throughL1 pa then s.refill va
    else
      let s := s.refill va
      let s := (s.lineNeeds leaf va pa n).foldl (fun s l => s.noteMiss va l) s
      match leaf.tile va with
      | some t => s.fillTile s.coreId s.grid.asid t (pa - t.base) n keep
      | none => s.fillLine s.coreId (pa / 128) (s.grid.asid, va / 128) none (byteMask (pa % 128) n) keep
/-- The lines that an instruction's places bring into the L1. -/
def State.lineKeep (s : State) (n : Nat) (p : List (DWord × Target)) : List Nat :=
  (p.flatMap fun e => match e.2 with
    | .scratch _ _ => []
    | .memory leaf va pa => if s.throughL1 pa then s.lineNeeds leaf va pa n else []).eraseDups
/-- Has a replica of the executing group issued a later instruction already? -/
def State.partnerAhead (s : State) : Bool :=
  (s.partners s.gid).any fun g => seqBefore (s.tseq + 1) (AMap.get {} s.groups g).ctx.regs.tseq
/-- An access through the L1 goes on once its lines find room (R375). Where the oldest unverified line is of the group's own set,
the forced compare comes before this instruction itself; DESIGN CHOICE (log 7): where a replica is past it already, so that no
compare can come here, the access goes on, and the compare comes before the first instruction that none has issued. -/
def State.withRoom (s : State) (lines : List Nat) (go : Out) : Out :=
  if s.core.roomFor lines then go
  else
    let t := s.fullUp s.coreId
    match t.core.full with
    | some (g, _) =>
      if !(s.partners s.gid).contains g then .next (t.waitFor (.room lines))
      else if s.partnerAhead then
        match go with
        | .next u => .next (u.setCoreAt s.coreId { u.coreAt s.coreId with full := some (g, u.nextOfSet g) })
        | o => o
      else t.compareForced
    | none => .next (t.waitFor (.room lines))

/-- Lay the group's own shadow and buffered bytes over what was read. -/
def State.overlay (s : State) (pa n x : Nat) : Nat :=
  (List.range n).foldr (fun k y => y * 256 +
    (((s.shadowByte (pa + k)) <|> (if s.deterministic then s.bufferedByte (pa + k) else none)).getD
      (BitVec.ofNat 8 (x >>> (8 * k)))).toNat) 0

/-- What a prepared load returns (R265, R267). -/
def State.loaded (s : State) (t : Target) (n : Nat) : Nat :=
  match t with
  | .scratch team off => s.scratchRead team off n
  | .memory leaf va pa =>
    s.overlay pa n
      (if s.throughL1 pa then s.l1Read s.coreId (leaf.tile va) pa n else s.homeRead (leaf.tile va) pa n)

/-- The group's verified shadow lines of a line, or of a tile, leave the core, with the leader's copies written back (R376, R377). -/
def State.dropShadow (s : State) (tile : Option TileRef) (line : Nat) : State :=
  let gone := fun (e : Nat × L1Line) => e.2.verified && match tile with
    | some t => e.2.ofTile t || t.holds e.1
    | none => e.1 == line
  let old := AMap.get [] s.core.shadows s.gid
  if old.any gone then
    let s := (old.filter gone).foldl (fun s e => s.leaderWrites s.gid e.1) s
    s.setCore { s.core with shadows := AMap.set s.core.shadows s.gid (old.filter fun e => !gone e) }
  else s
/-- Write back and invalidate the core's copy of a line before an access at the home (R274); a tile goes with its header. A
follower's shadow of it goes too, so that the group reads what the access left (log 55). -/
def State.giveUp (s : State) (leaf : Leaf) (va pa : Nat) : State :=
  (match leaf.tile va with
   | some t => s.dropTile s.coreId t
   | none => s.purge s.coreId (pa / 128)).dropShadow (leaf.tile va) (pa / 128)
def State.giveUps (s : State) (p : List (DWord × Target)) : State :=
  p.foldl (fun s e => match e.2 with
    | .scratch _ _ => s
    | .memory leaf va pa => s.giveUp leaf va pa) s

/-- A read of n bytes is served at the home slices of its lines (R428). -/
def State.homeReads (s : State) (tile : Option TileRef) (pa n : Nat) : State :=
  let at_ := match tile with
    | some t => (t.bytesFor (s.header t.header) (pa - t.base) n).map (t.base + ·)
    | none => (List.range n).map (pa + ·)
  (at_.map (· / 128)).eraseDups.foldl (fun s l =>
    s.homeDieRead l (BitVec.ofBoolListLE ((List.range 128).map fun k => at_.contains (128 * l + k)) |>.setWidth 128)) s

/-- A read at the coherence point (R274). -/
def State.readHome (s : State) (t : Target) (n : Nat) : State × Nat :=
  match t with
  | .scratch team off => (s, s.scratchRead team off n)
  | .memory leaf va pa =>
    let s := (((s.refill va).noteRequest t).giveUp leaf va pa).homeReads (leaf.tile va) pa n
    (s, s.overlay pa n (s.homeRead (leaf.tile va) pa n))

/-- Has another team written a place by a release in this period, so that an acquire of it is held (R394)? -/
def State.heldAcquire (s : State) (n : Nat) : Target → Bool
  | .scratch _ _ => false
  | .memory _ _ pa => s.deterministic && s.grid.det.released.any fun e =>
      e.2 != s.teamIndex && decide (pa / 8 ≤ e.1) && decide (e.1 ≤ (pa + n - 1) / 8)
/-- Does a unit that a release has written lie in n bytes from an address? -/
def Determ.names (d : Determ) (pa n : Nat) : Bool :=
  d.released.any fun e => decide (pa / 8 ≤ e.1) && decide (e.1 ≤ (pa + n - 1) / 8)
/-- The other, deterministic grid of which a team has written a place by a release in its present period, with that period: an acquire
of it is held until that grid's serial phase, which commits what the release covers (R341, R394). -/
def State.releasedBy (s : State) (n : Nat) : Target → Option (Nat × Word)
  | .scratch _ _ => none
  | .memory _ _ pa => (s.grids.find? fun e => e.1 != s.gridId && e.2.live && e.2.det.names pa n).map fun e => (e.1, e.2.det.period)
/-- An acquire at a scope of some places waits for serial phases (R394): its own grid's, or another's. -/
def State.afterPhases (s : State) (scope : Option Nat) (n : Nat) (p : List Target) (go : Out) : Out :=
  if !scope.any (2 ≤ ·) then go
  else if p.any (s.heldAcquire n) then .next (s.waitFor (.held []))
  else match p.findSome? (s.releasedBy n) with
    | some x => .next (s.waitFor (.phase x.1 x.2))
    | none => go
/-- Note that the executing group reads such places (R394). -/
def State.noteHeard (s : State) (n : Nat) (l : List Target) : State :=
  let s := if l.any (s.heldAcquire n) then s.setGrp { s.grp with heard := true } else s
  match l.findSome? (s.releasedBy n) with
  | some x => s.setGrp { s.grp with heardOf := x :: s.grp.heardOf.filter fun e => e.1 != x.1 }
  | none => s

/-- Dirty bytes of the executing core's own L1 over what was read (R272). -/
def State.ownDirty (s : State) (pa n x : Nat) : Nat :=
  (List.range n).foldr (fun k y =>
    let l := s.l1 s.coreId ((pa + k) / 128)
    y * 256 + (if l.dirty.getLsbD ((pa + k) % 128) then (lineByte l.data ((pa + k) % 128)).toNat else x / 2 ^ (8 * k) % 256)) 0

/-- A read at the coherence point with the dirty bytes of the split's own L1 merged (R272): at the home slice for device
memory, in the die's L2 for host memory over CXL. -/
def State.pollRead (s : State) (t : Target) (n : Nat) : Nat :=
  match t with
  | .scratch team off => s.scratchRead team off n
  | .memory leaf va pa => s.overlay pa n (s.ownDirty pa n (s.homeRead (leaf.tile va) pa n))
/-- What such a read leaves behind: the translation, the home's service, where it is no acquire the wick (R343, R351), and no
clean copy from which a later load would read an older write (R336, log 56). -/
def State.polled (s : State) (t : Target) (n : Nat) (wick : Bool) : State :=
  match t with
  | .scratch _ _ => s
  | .memory leaf va pa =>
    let s := (s.refill va).noteRequest t
    let s := if s.uncached pa then s
      else if kindOf pa == 1 then (s.fetchLine (s.coreId / 72) (pa / 128) (byteMask (pa % 128) n)).1
      else s.homeReads (leaf.tile va) pa n
    ((if wick then s.recordWick s.coreId (pa / 128) else s).dropRead s.coreId (leaf.tile va) pa n).noteHeard n [t]

/-- A deterministic team's buffered bytes, over which an operation at the home is performed (R336, R391), leave its buffer. -/
def State.unbuffer (s : State) (pa n : Nat) : State :=
  if s.deterministic && !s.team.wbuf.isEmpty then
    s.setTeam { s.team with wbuf := (s.team.wbuf.map fun w =>
      if w.line == pa / 128 then { w with mask := w.mask &&& ~~~(byteMask (pa % 128) n) } else w).filter (·.mask != 0) }
  else s
/-- A write at the home (R227, R274). -/
def State.writeHome (s : State) (t : Target) (n x : Nat) : State :=
  let s := s.forgetUnseen t.key n
  match t with
  | .scratch team off => s.scratchWrite team off n x
  | .memory leaf va pa => (((s.refill va).giveUp leaf va pa).homeWrite (leaf.tile va) pa n x).unbuffer pa n

/-- A deterministic team's buffered write, newest first (R391). -/
def State.bufferWrite (s : State) (agent num pa n x : Nat) : State :=
  s.setTeam { s.team with wbuf :=
    { line := pa / 128, mask := byteMask (pa % 128) n, data := BitVec.ofNat 1024 (x <<< (8 * (pa % 128))), agent := agent,
      num := num } :: s.team.wbuf }

/-- A follower's store goes into its shadow (R376). A verified shadow line goes first, once the leader's copy is written back: it
stands at the home then, where a restart leaves it (R377, R384). -/
def State.shadowWrite (s : State) (virt : Nat × Nat) (tile : Option TileRef) (keep : List Nat) (pa n x : Nat) : State :=
  let held := AMap.has (AMap.get [] s.core.shadows s.gid) (pa / 128)
  let old : L1Line := AMap.get {} (AMap.get [] s.core.shadows s.gid) (pa / 128)
  let s := if old.verified then s.leaderWrites s.gid (pa / 128) else s
  let s := if held then s else s.makeRoom s.coreId (pa / 128) keep
  let c := s.core
  let m := AMap.get [] c.shadows s.gid
  let y : L1Line := if old.verified then {} else old
  let b := byteMask (pa % 128) n
  let y := { y with
    data := blend b (BitVec.ofNat 1024 (x <<< (8 * (pa % 128)))) y.data, valid := y.valid ||| b, dirty := y.dirty ||| b,
    since := (if y.dirty == 0 || y.verified then s.time.cycle else y.since), verified := false, virt := virt, tile := tile }
  s.setCore { c with shadows := AMap.set c.shadows s.gid (AMap.set m (pa / 128) y) }

/-- Does a store to a tiled page go to its home: the L1 holds no identity header of the tile (R232)? -/
def State.storesAtHome (s : State) (leaf : Leaf) (va pa : Nat) : Bool :=
  s.bypasses pa || match leaf.tile va with
    | some t =>
      match s.heldHeader s.coreId t with
      | some h => !h.identity
      | none => true
    | none => false

/-- Is the write one that a replica holds until its compare (R478): a plain host write, or a store to a tile whose shade is
not identity? All replicas decide by the shade alone, whatever header an L1 holds (log 57). -/
def State.holdsWrite (s : State) (leaf : Leaf) (va pa : Nat) : Bool :=
  s.replicated && (s.bypasses pa || match leaf.tile va with
    | some t => !(s.header t.header).identity
    | none => false)

/-- Does the executing core hold a line for the executing group under its address, so that a store to it needs no translation
(R215, R217)? -/
def State.holdsLine (s : State) (va pa : Nat) : Bool :=
  let m := if s.follows then AMap.get [] s.core.shadows s.gid else s.core.l1
  s.throughL1 pa && AMap.has m (pa / 128) && (AMap.get {} m (pa / 128)).virt == (s.grid.asid, va / 128)
/-- The header of an identity tile comes with a leader's store where its L1 does not hold it, so that the store is placed there as
unverified bytes, which do not leave the core before a compare (R232, R374; log 57). -/
def State.withHeader (s : State) (leaf : Leaf) (va : Nat) : State :=
  match leaf.tile va with
  | some t =>
    if !s.replicated || s.follows || (s.heldHeader s.coreId t).any (·.identity) then s
    else (s.dropTile s.coreId t).takeHeaders s.coreId t
  | none => s
/-- A plain store (R271, R232, R374, R376, R391, R478). -/
def State.storePlain (s : State) (t : Target) (keep : List Nat) (n x : Nat) : State :=
  let s := s.forgetUnseen t.key n
  match t with
  | .scratch team off => s.scratchWrite team off n x
  | .memory leaf va pa =>
    let s := if s.holdsLine va pa then s else s.refill va
    if s.served (pa / 128) == .buffered then s.bufferWrite s.groupIdx s.regs.clock.toNat pa n x
    else if s.holdsWrite leaf va pa then
      s.setGrp { s.grp with repl := { s.grp.repl with writes :=
        s.grp.repl.writes ++ [{ parts := [(pa, n, x)], tiles := (leaf.tile va).toList }] } }
    else if s.follows then s.shadowWrite (s.grid.asid, va / 128) (leaf.tile va) keep pa n x
    else
      let s := s.withHeader leaf va
      if s.storesAtHome leaf va pa then s.writeHome t n x
      else s.l1Write s.coreId (s.grid.asid, va / 128) (leaf.tile va) (if s.replicated then some s.gid else none) keep pa n x

/-- The lines that the executing group holds unverified on its core: the leader's in the L1, a follower's as shadows. -/
def State.ownUnverified (s : State) : List (Nat × L1Line) :=
  s.core.l1.filter (fun e => e.2.owner == some s.gid) ++ (AMap.get [] s.core.shadows s.gid).filter fun e => !e.2.verified
/-- Does an access touch a byte the group holds unwritten, would the next held write be one too many (R478), or are bytes of
its line unverified under another virtual address, or bytes of its tile unverified that another has shaded since, so that they
cannot be written back first (R217, R231, R374, log 55)? -/
def State.needsForced (s : State) (t : Target) (n : Nat) (write : Bool) : Bool :=
  match t with
  | .scratch _ _ => false
  | .memory leaf va pa =>
    s.grp.repl.writes.any (fun w => w.parts.any fun e => decide (e.1 < pa + n) && decide (pa < e.1 + e.2.1)) ||
    (write && s.holdsWrite leaf va pa && decide (64 ≤ s.grp.repl.writes.length)) ||
    s.ownUnverified.any fun e => (e.1 == pa / 128 && e.2.virt != (s.grid.asid, va / 128)) ||
      (leaf.tile va).any fun t => (e.2.ofTile t || t.holds e.1) && !(s.header t.header).identity
/-- Would the writes of an instruction that the group holds take it past 64 (R478)? -/
def State.heldFull (s : State) (k : Need) (p : List (DWord × Target)) : Bool :=
  let more := (p.filter fun e => match e.2 with
    | .scratch _ _ => false
    | .memory leaf va pa => s.holdsWrite leaf va pa).length
  k.writes && decide (0 < more) && decide (64 < s.grp.repl.writes.length + more)
/-- Does an access at the home touch a line, or a tile, that the group itself holds unverified? Its own earlier writes come
before it (R267), and they cannot leave the core before a compare (R374): a forced compare comes first (log 55). -/
def State.atHomeForced (s : State) (t : Target) : Bool :=
  match t with
  | .scratch _ _ => false
  | .memory leaf va pa => s.ownUnverified.any fun e => match leaf.tile va with
      | some t => e.2.ofTile t || t.holds e.1
      | none => e.1 == pa / 128

/-- Note the places of a release (R394). -/
def State.noteRelease (s : State) (n : Nat) (l : List (DWord × Target)) : State :=
  if s.deterministic then
    let units := l.flatMap fun e => match e.2 with
      | .scratch _ _ => []
      | .memory _ _ pa => (List.range ((n + 7) / 8)).map fun k => (pa / 8 + k, s.teamIndex)
    s.setGrid { s.grid with det := { s.grid.det with released := units ++ s.grid.det.released } }
  else s

/-- The same of an access that is a release or none. -/
def State.noteReleased (s : State) (scope : Option Nat) (n : Nat) (l : List (DWord × Target)) : State :=
  if scope.isSome then s.noteRelease n l else s
/-- Is an access synchronising in deterministic mode by what it reaches: another team's scratch, host or peer memory
(R392)? -/
def State.reachesOut (s : State) : Target → Bool
  | .scratch team _ => team != s.teamId
  | .memory _ _ pa => kindOf pa != 0

/-- The places of the lanes' addresses, once rows 7 and 8 have passed. -/
def State.places (s : State) (k : Need) (l : List DWord) : List (DWord × Target) :=
  l.filterMap fun a => match s.target a k with
    | .ok t => some (a, t)
    | .error _ => none

/-- Has the group AtomicOps on their way that a later operation waits for: those that acquire, and for a release all of them
(R277, R340, R472)? -/
def State.atomicsOpen (s : State) (gid : Nat) (all : Bool) : Bool :=
  s.host.atomics.any fun o => o.gid == gid && (all || o.acq.isSome)
/-- An operation that releases, or acquires what earlier accesses have read, comes after the group's AtomicOps (R340). -/
def State.afterAtomics (s : State) (all : Bool) (go : Out) : Out :=
  if s.atomicsOpen s.gid all then .next (s.waitFor (.atomics all)) else go
/-- An operation that makes the demands of some wicks waits where a covered line is unverified (R374). -/
def State.afterDemands (s : State) (l : List Wick) (go : Out) : Out :=
  match l.find? s.demandWaits with
  | some w => .next (s.waitFor (.demand w.coreId w.epoch))
  | none => go
/-- The wicks of some lines that name another core with DR 0; a follower demands nothing. -/
def State.wicksOf (s : State) (lines : List Nat) : List Wick :=
  if s.follows then [] else ((lines.filter fun l => kindOf (128 * l) == 0).map s.wick).filter fun w => w.demands s.coreId

/-- What an access to some places waits for before it is made: AtomicOps that acquire, a forced compare, the serial phase, or
what holds a line. -/
def State.waits (s : State) (n : Nat) (k : Need) (atHome : Bool) (p : List (DWord × Target)) (go : Out) : Out :=
  if s.atomicsOpen s.gid false then .next (s.waitFor (.atomics false))
  else if (!atHome && s.heldFull k p) || p.any fun e => s.needsForced e.2 n k.writes then s.compareForced
  else if s.holdsBack (linesOf (p.map Prod.snd)) k.writes atHome then
    .next (s.waitFor (s.heldWait (linesOf (p.map Prod.snd))))
  else match p.findSome? (fun e => s.blocked e.2 n atHome) with
    | some w => .next (s.waitFor w)
    | none => go

/-- Everything an access meets before it is made: rows 6 to 8, the turn, a forced compare, a wait, row 9; then the access
on the lanes' places. -/
def State.access (s : State) (n : Nat) (k : Need) (more : Target → Bool) (sync atHome : Bool) (l : List DWord)
    (perform : List (DWord × Target) → Out) : Out :=
  match s.addressFault n k more l with
  | some f => s.raiseAddr f
  | none =>
    let p := s.places k l
    let out := p.any fun e => s.reachesOut e.2
    s.inTurn (sync || out) ((if out && !sync then s.afterLeader else id)
      (s.waits n k atHome p (match p.findSome? (fun e => s.dataFault n k e.1 e.2) with
        | some f => s.raiseAddr f
        | none => perform p)))

/-- The active lanes in ascending order. -/
def State.activeLanes (s : State) : List Nat := lanes.filter fun l => s.active.has l

end Sys2Proof.Machine
end

