-- ==== Sys2Proof/Machine/Uses.lean ====
section
/-! DEFINITION. What an instruction uses: the registers that it reads and writes (R81, R89, R91), whether its active lanes
follow the guard (R97), and its vector registers against the kernel's count (R81). -/

namespace Sys2Proof.Machine

/-- The registers of an instruction. -/
structure Uses where
  reads : List Reg := []
  writes : List Reg := []
  /-- does it read p(GUARD)? -/
  guard : Bool := false
  /-- the guard of an engine command, which it reads without waiting for it (R89, R127) -/
  late : List Reg := []
  deriving DecidableEq, Repr

def blockV (n k : Nat) : List Reg := (List.range k).map fun i => .v (n + i)
def blockG (n k : Nat) : List Reg := (List.range k).map fun i => .g (n + i)

/-- The lengths of the A and B fragments of a type (R251). -/
def fragmentLength (ty : Nat) : Nat := if ty == 0 then 4 else if ty == 7 then 2 else 8
/-- The registers of an `mma`: the format register and, by the format word of the lowest active lane, the fragments. -/
def mmaBlocks (st : State) (f a b : Nat) : List Reg :=
  let w := (st.rdV f ((lanes.find? fun l => st.active.has l).getD 0)).toNat
  .v f :: (blockV a (fragmentLength (w % 16)) ++
    blockV b (fragmentLength (w / 16 % 16) + (if w / 2 ^ 12 % 16 == 1 then 1 else 0)))
/-- The operand block of `cpym` and `cpyr` (R316), cut at the end of the file. -/
def multiBlock (st : State) (g : Nat) : List Reg :=
  blockG g (min (64 - g) (3 + ((st.rdG (g + 1)).toNat / 2 ^ 56) % 8))
/-- Does a `csred` take its pairs from registers (R317, R330)? -/
def csredReg (st : State) (g : Nat) : Bool := (st.rdG (g + 3)).getLsbD 59
def pairBlock (st : State) (g v : Nat) : List Reg := if csredReg st g then blockV v 2 else []
/-- The second data register of a `pst` with elements of 4 bytes (R295). -/
def pstBlock (st : State) (d b : Nat) : List Reg :=
  if (st.rdG (b + 1)).toNat / 2 ^ 32 % 4 == 2 then [.v (d + 1)] else []

/-- What an instruction reads and writes by its fields. -/
def State.names (st : State) : Instr → Uses
  | .vadd _ d a b =>
    { reads := [.v a.toNat, .v b.toNat], writes := [.v d.toNat], guard := true }
  | .vsub _ d a b =>
    { reads := [.v a.toNat, .v b.toNat], writes := [.v d.toNat], guard := true }
  | .vmul _ d a b =>
    { reads := [.v a.toNat, .v b.toNat], writes := [.v d.toNat], guard := true }
  | .vmulh _ d a b =>
    { reads := [.v a.toNat, .v b.toNat], writes := [.v d.toNat], guard := true }
  | .vfma _ d a b =>
    { reads := [.v a.toNat, .v b.toNat, .v d.toNat], writes := [.v d.toNat], guard := true }
  | .vfms _ d a b =>
    { reads := [.v a.toNat, .v b.toNat, .v d.toNat], writes := [.v d.toNat], guard := true }
  | .vfnma _ d a b =>
    { reads := [.v a.toNat, .v b.toNat, .v d.toNat], writes := [.v d.toNat], guard := true }
  | .vdiv _ d a b =>
    { reads := [.v a.toNat, .v b.toNat], writes := [.v d.toNat], guard := true }
  | .vmin _ d a b =>
    { reads := [.v a.toNat, .v b.toNat], writes := [.v d.toNat], guard := true }
  | .vmax _ d a b =>
    { reads := [.v a.toNat, .v b.toNat], writes := [.v d.toNat], guard := true }
  | .vabs _ d a => { reads := [.v a.toNat], writes := [.v d.toNat], guard := true }
  | .vneg _ d a => { reads := [.v a.toNat], writes := [.v d.toNat], guard := true }
  | .vrcp _ d a => { reads := [.v a.toNat], writes := [.v d.toNat], guard := true }
  | .vsqrt _ d a => { reads := [.v a.toNat], writes := [.v d.toNat], guard := true }
  | .vrsq _ d a => { reads := [.v a.toNat], writes := [.v d.toNat], guard := true }
  | .vtwosum _ d a b =>
    { reads := [.v a.toNat, .v b.toNat], writes := blockV d.toNat 2, guard := true }
  | .vexp2 _ d a => { reads := [.v a.toNat], writes := [.v d.toNat], guard := true }
  | .vlog2 _ d a => { reads := [.v a.toNat], writes := [.v d.toNat], guard := true }
  | .vmix _ d a b =>
    { reads := [.v a.toNat, .v b.toNat], writes := [.v d.toNat], guard := true }
  | .vsel _ d a b =>
    { reads := [.p a.toNat, .v b.toNat, .v d.toNat], writes := [.v d.toNat], guard := true }
  | .vmov _ d a => { reads := [.v a.toNat], writes := [.v d.toNat], guard := true }
  | .vbc _ d a => { reads := [.g a.toNat], writes := [.v d.toNat], guard := true }
  | .vbcHi _ d a => { reads := [.g a.toNat], writes := [.v d.toNat], guard := true }
  | .vlane _ d a b =>
    { reads := [.v a.toNat, .g b.toNat], writes := [.g d.toNat], guard := true }
  | .vand _ d a b =>
    { reads := [.v a.toNat, .v b.toNat], writes := [.v d.toNat], guard := true }
  | .vor _ d a b =>
    { reads := [.v a.toNat, .v b.toNat], writes := [.v d.toNat], guard := true }
  | .vxor _ d a b =>
    { reads := [.v a.toNat, .v b.toNat], writes := [.v d.toNat], guard := true }
  | .vnot _ d a => { reads := [.v a.toNat], writes := [.v d.toNat], guard := true }
  | .vshl _ d a b =>
    { reads := [.v a.toNat, .v b.toNat], writes := [.v d.toNat], guard := true }
  | .vshr _ d a b =>
    { reads := [.v a.toNat, .v b.toNat], writes := [.v d.toNat], guard := true }
  | .vsar _ d a b =>
    { reads := [.v a.toNat, .v b.toNat], writes := [.v d.toNat], guard := true }
  | .vclz _ d a => { reads := [.v a.toNat], writes := [.v d.toNat], guard := true }
  | .vpop _ d a => { reads := [.v a.toNat], writes := [.v d.toNat], guard := true }
  | .vcmpEq _ d a b =>
    { reads := [.v a.toNat, .v b.toNat], writes := [.p d.toNat], guard := true }
  | .vcmpNe _ d a b =>
    { reads := [.v a.toNat, .v b.toNat], writes := [.p d.toNat], guard := true }
  | .vcmpLt _ d a b =>
    { reads := [.v a.toNat, .v b.toNat], writes := [.p d.toNat], guard := true }
  | .vcmpLe _ d a b =>
    { reads := [.v a.toNat, .v b.toNat], writes := [.p d.toNat], guard := true }
  | .vcmpGt _ d a b =>
    { reads := [.v a.toNat, .v b.toNat], writes := [.p d.toNat], guard := true }
  | .vcmpGe _ d a b =>
    { reads := [.v a.toNat, .v b.toNat], writes := [.p d.toNat], guard := true }
  | .vcmpUn _ d a b =>
    { reads := [.v a.toNat, .v b.toNat], writes := [.p d.toNat], guard := true }
  | .vcvtF32 _ d a => { reads := [.v a.toNat], writes := [.v d.toNat], guard := true }
  | .vcvtBf16 _ d a => { reads := [.v a.toNat], writes := [.v d.toNat], guard := true }
  | .vcvtF16 _ d a => { reads := [.v a.toNat], writes := [.v d.toNat], guard := true }
  | .vcvtE4m3 _ d a => { reads := [.v a.toNat], writes := [.v d.toNat], guard := true }
  | .vcvtE5m2 _ d a => { reads := [.v a.toNat], writes := [.v d.toNat], guard := true }
  | .vcvtI8 _ d a => { reads := [.v a.toNat], writes := [.v d.toNat], guard := true }
  | .vcvtN8 _ d a => { reads := [.v a.toNat], writes := [.v d.toNat], guard := true }
  | .vcvtI32 _ d a => { reads := [.v a.toNat], writes := [.v d.toNat], guard := true }
  | .vcvtN32 _ d a => { reads := [.v a.toNat], writes := [.v d.toNat], guard := true }
  | .vcvtI16 _ d a => { reads := [.v a.toNat], writes := [.v d.toNat], guard := true }
  | .vcvtN16 _ d a => { reads := [.v a.toNat], writes := [.v d.toNat], guard := true }
  | .vpack _ d a b =>
    { reads := [.v a.toNat, .v b.toNat], writes := [.v d.toNat], guard := true }
  | .vunpk _ d a => { reads := [.v a.toNat], writes := blockV d.toNat 2, guard := true }
  | .vperm _ d a b =>
    { reads := [.v a.toNat, .v b.toNat], writes := [.v d.toNat], guard := true }
  | .vbfly _ d a b =>
    { reads := [.v a.toNat, .g b.toNat], writes := [.v d.toNat], guard := true }
  | .vrot _ d a b =>
    { reads := [.v a.toNat, .g b.toNat], writes := [.v d.toNat], guard := true }
  | .vbcl _ d a b =>
    { reads := [.v a.toNat, .g b.toNat], writes := [.v d.toNat], guard := true }
  | .vredAdd _ d a => { reads := [.v a.toNat], writes := [.g d.toNat], guard := true }
  | .vredMin _ d a => { reads := [.v a.toNat], writes := [.g d.toNat], guard := true }
  | .vredMax _ d a => { reads := [.v a.toNat], writes := [.g d.toNat], guard := true }
  | .pand _ d a b =>
    { reads := [.p a.toNat, .p b.toNat], writes := [.p d.toNat], guard := true }
  | .por _ d a b =>
    { reads := [.p a.toNat, .p b.toNat], writes := [.p d.toNat], guard := true }
  | .pxor _ d a b =>
    { reads := [.p a.toNat, .p b.toNat], writes := [.p d.toNat], guard := true }
  | .pnot _ d a => { reads := [.p a.toNat], writes := [.p d.toNat], guard := true }
  | .qany _ d a => { reads := [.p a.toNat], writes := [.q d.toNat], guard := true }
  | .qall _ d a => { reads := [.p a.toNat], writes := [.q d.toNat], guard := true }
  | .pballot _ d a => { reads := [.p a.toNat], writes := [.g d.toNat], guard := true }
  | .pmask _ d a => { reads := [.g a.toNat], writes := [.p d.toNat], guard := true }
  | .ldB8 _ d a b =>
    { reads := [.g a.toNat, .v b.toNat], writes := [.v d.toNat], guard := true }
  | .ldB16 _ d a b =>
    { reads := [.g a.toNat, .v b.toNat], writes := [.v d.toNat], guard := true }
  | .ldB32 _ d a b =>
    { reads := [.g a.toNat, .v b.toNat], writes := [.v d.toNat], guard := true }
  | .ldB64 _ d a b =>
    { reads := [.g a.toNat, .v b.toNat], writes := blockV d.toNat 2, guard := true }
  | .ldB128 _ d a b =>
    { reads := [.g a.toNat, .v b.toNat], writes := blockV d.toNat 4, guard := true }
  | .ldPollB32 _ d a b =>
    { reads := [.g a.toNat, .v b.toNat], writes := [.v d.toNat], guard := true }
  | .ldPollB64 _ d a b =>
    { reads := [.g a.toNat, .v b.toNat], writes := blockV d.toNat 2, guard := true }
  | .gld _ d a b => { reads := [.g a.toNat, .g b.toNat], writes := [.g d.toNat] }
  | .stB8 _ d a b => { reads := [.g a.toNat, .v b.toNat, .v d.toNat], guard := true }
  | .stB16 _ d a b => { reads := [.g a.toNat, .v b.toNat, .v d.toNat], guard := true }
  | .stB32 _ d a b => { reads := [.g a.toNat, .v b.toNat, .v d.toNat], guard := true }
  | .stB64 _ d a b =>
    { reads := [.g a.toNat, .v b.toNat] ++ blockV d.toNat 2, guard := true }
  | .stB128 _ d a b =>
    { reads := [.g a.toNat, .v b.toNat] ++ blockV d.toNat 4, guard := true }
  | .gst _ d a b => { reads := [.g a.toNat, .g b.toNat, .g d.toNat] }
  | .ldSys _ d a b =>
    { reads := [.g a.toNat, .v b.toNat], writes := blockV d.toNat 2, guard := true }
  | .stSys _ d a b =>
    { reads := [.g a.toNat, .v b.toNat] ++ blockV d.toNat 2, guard := true }
  | .atomAdd _ w _ v a b =>
    { reads := [.g a.toNat, .v b.toNat] ++ blockV v.toNat (if w == 0 then 1 else 2), writes := blockV v.toNat (if w == 0 then 1 else 2), guard := true }
  | .atomSub _ w _ v a b =>
    { reads := [.g a.toNat, .v b.toNat] ++ blockV v.toNat (if w == 0 then 1 else 2), writes := blockV v.toNat (if w == 0 then 1 else 2), guard := true }
  | .atomMin _ w _ v a b =>
    { reads := [.g a.toNat, .v b.toNat] ++ blockV v.toNat (if w == 0 then 1 else 2), writes := blockV v.toNat (if w == 0 then 1 else 2), guard := true }
  | .atomMax _ w _ v a b =>
    { reads := [.g a.toNat, .v b.toNat] ++ blockV v.toNat (if w == 0 then 1 else 2), writes := blockV v.toNat (if w == 0 then 1 else 2), guard := true }
  | .atomMinn _ w _ v a b =>
    { reads := [.g a.toNat, .v b.toNat] ++ blockV v.toNat (if w == 0 then 1 else 2), writes := blockV v.toNat (if w == 0 then 1 else 2), guard := true }
  | .atomMaxn _ w _ v a b =>
    { reads := [.g a.toNat, .v b.toNat] ++ blockV v.toNat (if w == 0 then 1 else 2), writes := blockV v.toNat (if w == 0 then 1 else 2), guard := true }
  | .atomAnd _ w _ v a b =>
    { reads := [.g a.toNat, .v b.toNat] ++ blockV v.toNat (if w == 0 then 1 else 2), writes := blockV v.toNat (if w == 0 then 1 else 2), guard := true }
  | .atomOr _ w _ v a b =>
    { reads := [.g a.toNat, .v b.toNat] ++ blockV v.toNat (if w == 0 then 1 else 2), writes := blockV v.toNat (if w == 0 then 1 else 2), guard := true }
  | .atomXor _ w _ v a b =>
    { reads := [.g a.toNat, .v b.toNat] ++ blockV v.toNat (if w == 0 then 1 else 2), writes := blockV v.toNat (if w == 0 then 1 else 2), guard := true }
  | .atomExch _ w _ v a b =>
    { reads := [.g a.toNat, .v b.toNat] ++ blockV v.toNat (if w == 0 then 1 else 2), writes := blockV v.toNat (if w == 0 then 1 else 2), guard := true }
  | .atomCas _ w _ v a b =>
    { reads := [.g a.toNat, .v b.toNat] ++ blockV v.toNat (if w == 0 then 2 else 4), writes := blockV v.toNat (if w == 0 then 1 else 2), guard := true }
  | .atomfFaddF32 _ _ v a b =>
    { reads := [.g a.toNat, .v b.toNat, .v v.toNat], writes := [.v v.toNat], guard := true }
  | .atomfFaddBf16x2 _ _ v a b =>
    { reads := [.g a.toNat, .v b.toNat, .v v.toNat], writes := [.v v.toNat], guard := true }
  | .atomfFminF32 _ _ v a b =>
    { reads := [.g a.toNat, .v b.toNat, .v v.toNat], writes := [.v v.toNat], guard := true }
  | .atomfFmaxF32 _ _ v a b =>
    { reads := [.g a.toNat, .v b.toNat, .v v.toNat], writes := [.v v.toNat], guard := true }
  | .cas128 _ _ v a b =>
    { reads := [.g a.toNat, .v b.toNat] ++ blockV v.toNat 8, writes := blockV v.toNat 4, guard := true }
  | .redAdd _ w _ v a b =>
    { reads := [.g a.toNat, .v b.toNat] ++ blockV v.toNat (if w == 0 then 1 else 2), guard := true }
  | .redSub _ w _ v a b =>
    { reads := [.g a.toNat, .v b.toNat] ++ blockV v.toNat (if w == 0 then 1 else 2), guard := true }
  | .redMin _ w _ v a b =>
    { reads := [.g a.toNat, .v b.toNat] ++ blockV v.toNat (if w == 0 then 1 else 2), guard := true }
  | .redMax _ w _ v a b =>
    { reads := [.g a.toNat, .v b.toNat] ++ blockV v.toNat (if w == 0 then 1 else 2), guard := true }
  | .redMinn _ w _ v a b =>
    { reads := [.g a.toNat, .v b.toNat] ++ blockV v.toNat (if w == 0 then 1 else 2), guard := true }
  | .redMaxn _ w _ v a b =>
    { reads := [.g a.toNat, .v b.toNat] ++ blockV v.toNat (if w == 0 then 1 else 2), guard := true }
  | .redAnd _ w _ v a b =>
    { reads := [.g a.toNat, .v b.toNat] ++ blockV v.toNat (if w == 0 then 1 else 2), guard := true }
  | .redOr _ w _ v a b =>
    { reads := [.g a.toNat, .v b.toNat] ++ blockV v.toNat (if w == 0 then 1 else 2), guard := true }
  | .redXor _ w _ v a b =>
    { reads := [.g a.toNat, .v b.toNat] ++ blockV v.toNat (if w == 0 then 1 else 2), guard := true }
  | .redFaddF32 _ _ v a b => { reads := [.g a.toNat, .v b.toNat, .v v.toNat], guard := true }
  | .redFaddBf16x2 _ _ v a b => { reads := [.g a.toNat, .v b.toNat, .v v.toNat], guard := true }
  | .redFminF32 _ _ v a b => { reads := [.g a.toNat, .v b.toNat, .v v.toNat], guard := true }
  | .redFmaxF32 _ _ v a b => { reads := [.g a.toNat, .v b.toNat, .v v.toNat], guard := true }
  | .sfil _ d a b => { reads := [.g a.toNat, .g b.toNat, .g d.toNat] }
  | .sscl _ d a b => { reads := [.g a.toNat, .g b.toNat, .g d.toNat] }
  | .soff _ d a b => { reads := [.g a.toNat, .g b.toNat, .g d.toNat] }
  | .sclp _ d a b => { reads := [.g a.toNat, .g b.toNat, .g d.toNat] }
  | .spmt _ d a b => { reads := [.g a.toNat, .g b.toNat, .g d.toNat, .g (b.toNat + 1)] }
  | .smat _ d a => { reads := [.g a.toNat, .g d.toNat] }
  | .shdr _ d a => { reads := [.g a.toNat], writes := blockG d.toNat 4 }
  | .pst _ d a b =>
    { reads := [.g a.toNat, .g b.toNat, .v d.toNat, .g (b.toNat + 1)] ++ pstBlock st d.toNat b.toNat, guard := true }
  | .mma _ _ f a b => { reads := mmaBlocks st f.toNat a.toNat b.toNat, guard := true }
  | .mscale _ _ a => { reads := [.v a.toNat], guard := true }
  | .mzero _ _ => {}
  | .mzeroOpen _ _ => {}
  | .mdrain _ d _ _ b =>
    { reads := [.g b.toNat, .g (b.toNat + 1)], writes := blockV d.toNat 8, guard := true }
  | .mdrs _ d _ _ => { reads := blockG d.toNat 4, guard := true }
  | .mdrp _ d _ => { reads := [.g d.toNat], guard := true }
  | .mcbk _ _ a b => { reads := [.g a.toNat, .g b.toNat] }
  | .gmov _ d a => { reads := [.g a.toNat], writes := [.g d.toNat] }
  | .gadd _ d a b => { reads := [.g a.toNat, .g b.toNat], writes := [.g d.toNat] }
  | .gsub _ d a b => { reads := [.g a.toNat, .g b.toNat], writes := [.g d.toNat] }
  | .gmul _ d a b => { reads := [.g a.toNat, .g b.toNat], writes := [.g d.toNat] }
  | .gmulh _ d a b => { reads := [.g a.toNat, .g b.toNat], writes := [.g d.toNat] }
  | .gand _ d a b => { reads := [.g a.toNat, .g b.toNat], writes := [.g d.toNat] }
  | .gor _ d a b => { reads := [.g a.toNat, .g b.toNat], writes := [.g d.toNat] }
  | .gxor _ d a b => { reads := [.g a.toNat, .g b.toNat], writes := [.g d.toNat] }
  | .gshl _ d a b => { reads := [.g a.toNat, .g b.toNat], writes := [.g d.toNat] }
  | .gshr _ d a b => { reads := [.g a.toNat, .g b.toNat], writes := [.g d.toNat] }
  | .gsar _ d a b => { reads := [.g a.toNat, .g b.toNat], writes := [.g d.toNat] }
  | .gmin _ d a b => { reads := [.g a.toNat, .g b.toNat], writes := [.g d.toNat] }
  | .gmax _ d a b => { reads := [.g a.toNat, .g b.toNat], writes := [.g d.toNat] }
  | .gminn _ d a b => { reads := [.g a.toNat, .g b.toNat], writes := [.g d.toNat] }
  | .gmaxn _ d a b => { reads := [.g a.toNat, .g b.toNat], writes := [.g d.toNat] }
  | .gsel _ d a b =>
    { reads := [.q a.toNat, .g b.toNat, .g d.toNat], writes := [.g d.toNat] }
  | .gclz _ d a => { reads := [.g a.toNat], writes := [.g d.toNat] }
  | .gpop _ d a => { reads := [.g a.toNat], writes := [.g d.toNat] }
  | .gcmpEq _ d a b => { reads := [.g a.toNat, .g b.toNat], writes := [.q d.toNat] }
  | .gcmpNe _ d a b => { reads := [.g a.toNat, .g b.toNat], writes := [.q d.toNat] }
  | .gcmpLt _ d a b => { reads := [.g a.toNat, .g b.toNat], writes := [.q d.toNat] }
  | .gcmpLe _ d a b => { reads := [.g a.toNat, .g b.toNat], writes := [.q d.toNat] }
  | .gcmpLtn _ d a b => { reads := [.g a.toNat, .g b.toNat], writes := [.q d.toNat] }
  | .gcmpLen _ d a b => { reads := [.g a.toNat, .g b.toNat], writes := [.q d.toNat] }
  | .qand _ d a b => { reads := [.q a.toNat, .q b.toNat], writes := [.q d.toNat] }
  | .qor _ d a b => { reads := [.q a.toNat, .q b.toNat], writes := [.q d.toNat] }
  | .qxor _ d a b => { reads := [.q a.toNat, .q b.toNat], writes := [.q d.toNat] }
  | .qnot _ d a => { reads := [.q a.toNat], writes := [.q d.toNat] }
  | .smode _ a => { reads := [.g a.toNat] }
  | .gmode _ d => { writes := [.g d.toNat] }
  | .gldi _ d _ => { writes := [.g d.toNat] }
  | .gldh _ d _ => { reads := [.g d.toNat], writes := [.g d.toNat] }
  | .gaddi _ d _ => { reads := [.g d.toNat], writes := [.g d.toNat] }
  | .smodi _ d _ _ => { writes := [.g d.toNat] }
  | .br _ _ => {}
  | .brq _ c _ => { reads := [.q c.toNat] }
  | .call _ _ => {}
  | .rcv _ _ => {}
  | .brd _ c _ => { reads := [.p c.toNat] }
  | .cpy _ q _ g => { reads := blockG g.toNat 3, late := [.q q.toNat] }
  | .cpyt _ q _ g => { reads := blockG g.toNat 4, late := [.q q.toNat] }
  | .cpyx _ q _ g v => { reads := [.v v.toNat] ++ blockG g.toNat 4, guard := true, late := [.q q.toNat] }
  | .cpym _ q _ g => { reads := multiBlock st g.toNat, late := [.q q.toNat] }
  | .cpyr _ q _ g => { reads := multiBlock st g.toNat, late := [.q q.toNat] }
  | .tlr _ g _ => { writes := [.g g.toNat] }
  | .tlw _ g _ => { reads := [.g g.toNat] }
  | .collAr _ q g => { reads := blockG g.toNat 4, late := [.q q.toNat] }
  | .collRs _ q g => { reads := blockG g.toNat 4, late := [.q q.toNat] }
  | .collAg _ q g => { reads := blockG g.toNat 4, late := [.q q.toNat] }
  | .csred _ q g v =>
    { reads := blockG g.toNat 4 ++ pairBlock st g.toNat v.toNat, guard := csredReg st g.toNat, late := [.q q.toNat] }
  | .cprio _ g => { reads := [.g g.toNat] }
  | .fence _ _ _ => {}
  | .ldaGrp _ d a b => { reads := [.g a.toNat, .g b.toNat], writes := [.g d.toNat] }
  | .ldaTeam _ d a b => { reads := [.g a.toNat, .g b.toNat], writes := [.g d.toNat] }
  | .ldaClu _ d a b => { reads := [.g a.toNat, .g b.toNat], writes := [.g d.toNat] }
  | .ldaDie _ d a b => { reads := [.g a.toNat, .g b.toNat], writes := [.g d.toNat] }
  | .ldaDev _ d a b => { reads := [.g a.toNat, .g b.toNat], writes := [.g d.toNat] }
  | .ldaSys _ d a b => { reads := [.g a.toNat, .g b.toNat], writes := [.g d.toNat] }
  | .acqr _ g h => { reads := [.g g.toNat], writes := [.g h.toNat] }
  | .stlGrp _ d a b => { reads := [.g a.toNat, .g b.toNat, .g d.toNat] }
  | .stlTeam _ d a b => { reads := [.g a.toNat, .g b.toNat, .g d.toNat] }
  | .stlClu _ d a b => { reads := [.g a.toNat, .g b.toNat, .g d.toNat] }
  | .stlDie _ d a b => { reads := [.g a.toNat, .g b.toNat, .g d.toNat] }
  | .stlDev _ d a b => { reads := [.g a.toNat, .g b.toNat, .g d.toNat] }
  | .stlSys _ d a b => { reads := [.g a.toNat, .g b.toNat, .g d.toNat] }
  | .bar _ _ _ => {}
  | .bara _ _ _ => {}
  | .barw _ _ _ => {}
  | .barc _ _ g => { reads := [.g g.toNat] }
  | .trdy _ g => { reads := [.g g.toNat] }
  | .twt _ g => { reads := [.g g.toNat] }
  | .snuff _ g => { reads := [.g g.toNat] }
  | .dclk _ g => { writes := [.g g.toNat] }
  | .dsync _ => {}
  | .rsig _ g => { writes := [.g g.toNat] }
  | .rchk _ => {}
  | .nop _ => {}
  | .exit _ => {}
  | .ret _ => {}
  | .jmpg _ g => { reads := [.g g.toNat] }
  | .pdem _ => {}
  | .safe _ _ => {}
  | .trap _ _ => {}
  | .tret _ => {}
  | .rdsp _ d r => { writes := [if spVector r then .v d.toNat else .g d.toNat] }
  | .wrsp _ d r => { reads := [if spVector r then .v d.toNat else .g d.toNat] }
  | .spawn _ k _ => { reads := blockV (4 * k.toNat) 4 ++ blockG 0 16, guard := true }
  | .bflush _ => {}
  | .launch _ g => { reads := [.g g.toNat], writes := [.g g.toNat] }
  | .role _ _ => {}
  | .qctlWrite _ _ => {}
  | .qbaseWrite _ _ => {}
  | .qtailDoorbell _ _ => {}
  | .qstatClear _ _ => {}
  | .registerWrite _ _ => {}
  | .imageLoad _ _ => {}
  | .recordRead => {}
  | .launchArbitration => {}
  | .launchAgeRise _ => {}
  | .leaseInstall _ => {}
  | .clusterAdmit _ _ => {}
  | .preemptRequest _ _ => {}
  | .preemptWithdraw _ => {}
  | .clusterPreempt _ _ => {}
  | .clusterPark _ _ => {}
  | .clusterUnpark _ => {}
  | .clusterResume _ _ => {}
  | .binTimerExpiry _ _ => {}
  | .binGroupStart _ _ => {}
  | .spawnResume _ _ => {}
  | .clusterEnd _ => {}
  | .gridRetire _ => {}
  | .deferredFault _ _ _ _ _ _ => {}
  | .nonFiniteTrap _ => {}
  | .safePointDistance _ _ => {}
  | .splitUrgent _ _ => {}
  | .variableLatencyResult _ _ => {}
  | .mshrRetry _ _ => {}
  | .mshrAged _ _ => {}
  | .matrixEngineAccept _ => {}
  | .guardResolve _ _ => {}
  | .engineCommandStart _ _ => {}
  | .engineCommandComplete _ _ _ => {}
  | .collectiveChunkBoundary _ => {}
  | .peerAdd _ => {}
  | .read _ _ => {}
  | .own _ _ _ _ => {}
  | .homeWrite _ _ _ => {}
  | .claimAccess _ _ _ => {}
  | .fwd _ => {}
  | .fwdData _ => {}
  | .wbData _ => {}
  | .inv _ _ => {}
  | .invAck _ _ => {}
  | .binv _ _ => {}
  | .demand _ => {}
  | .demandAck _ => {}
  | .epochWriteback _ => {}
  | .tiledLineDrop _ _ => {}
  | .pageFlipToHost _ _ => {}
  | .pairTorn _ _ _ => {}
  | .snpData _ => {}
  | .snpInv _ => {}
  | .snpCur _ => {}
  | .memRd _ => {}
  | .memWr _ _ _ => {}
  | .hostAtomicop _ _ _ _ _ => {}
  | .hostBar2Access _ _ _ _ => {}
  | .atomicopCompletion _ _ _ => {}
  | .replicaSig _ => {}
  | .compareTimeout _ => {}
  | .rendezvousOperands _ => {}
  | .rendezvousTimeout _ => {}
  | .ldaForwardTimeout _ => {}
  | .replicaNotice _ _ => {}
  | .periodEnd _ => {}
  | .serialPhase _ => {}
  | .snuffCancel _ => {}
  | .dieFailure _ => {}
  | .peerUnreachable _ => {}
  | .pageRetire _ _ => {}
  | .sensorLimit _ _ => {}
  | .coolantFlowTimeout => {}
  | .reset => {}
  | .dieTrainingComplete _ => {}
  | .firmwareUpdate _ _ => {}
  | .firmwareFallback => {}
  | .illegalInstruction _ => {}
  | .instructionFetch _ _ => {}
  | .data _ _ => {}
  | .replicaResult _ => {}

/-- The instructions that draw with g63 under RSR, by TYPE (R165). -/
def drawsSeed (m : Word) : Instr → Bool
  | .vadd _ _ _ _ => drawsArith m
  | .vsub _ _ _ _ => drawsArith m
  | .vmul _ _ _ _ => drawsArith m
  | .vfma _ _ _ _ => drawsArith m
  | .vfms _ _ _ _ => drawsArith m
  | .vfnma _ _ _ _ => drawsArith m
  | .vdiv _ _ _ _ => drawsArith m
  | .vrcp _ _ _ => drawsArith m
  | .vsqrt _ _ _ => drawsArith m
  | .vrsq _ _ _ => drawsArith m
  | .vexp2 _ _ _ => drawsArith m
  | .vlog2 _ _ _ => drawsArith m
  | .vredAdd _ _ _ => drawsArith m
  | .vcvtF32 _ _ _ => drawsConvert m (.float .f32)
  | .vcvtBf16 _ _ _ => drawsConvert m (.float .bf16)
  | .vcvtF16 _ _ _ => drawsConvert m (.float .f16)
  | .vcvtE4m3 _ _ _ => drawsConvert m (.float .e4m3)
  | .vcvtE5m2 _ _ _ => drawsConvert m (.float .e5m2)
  | .vcvtI8 _ _ _ => drawsConvert m (.int ⟨8, true⟩)
  | .vcvtN8 _ _ _ => drawsConvert m (.int ⟨8, false⟩)
  | .vcvtI32 _ _ _ => drawsConvert m (.int ⟨32, true⟩)
  | .vcvtN32 _ _ _ => drawsConvert m (.int ⟨32, false⟩)
  | .vcvtI16 _ _ _ => drawsConvert m (.int ⟨16, true⟩)
  | .vcvtN16 _ _ _ => drawsConvert m (.int ⟨16, false⟩)
  | .mdrain _ _ _ _ _ => true
  | .mdrs _ _ _ _ => true
  | _ => false

/-- What an instruction reads and writes (R89, R91): where it rounds under RSR, g63 too (R165). -/
def State.uses (st : State) (i : Instr) : Uses :=
  let u := st.names i
  if modeRnd st.regs.gmode == 5 && drawsSeed st.regs.gmode i then { u with reads := .g 63 :: u.reads } else u

/-- One more than the highest vector register that a word names (R81, R102): the count a kernel must have. -/
def vectorEnd : Instr → Nat
  | .vadd _ d a b => max (max (a.toNat + 1) (b.toNat + 1)) (d.toNat + 1)
  | .vsub _ d a b => max (max (a.toNat + 1) (b.toNat + 1)) (d.toNat + 1)
  | .vmul _ d a b => max (max (a.toNat + 1) (b.toNat + 1)) (d.toNat + 1)
  | .vmulh _ d a b => max (max (a.toNat + 1) (b.toNat + 1)) (d.toNat + 1)
  | .vfma _ d a b => max (max (a.toNat + 1) (b.toNat + 1)) (d.toNat + 1)
  | .vfms _ d a b => max (max (a.toNat + 1) (b.toNat + 1)) (d.toNat + 1)
  | .vfnma _ d a b => max (max (a.toNat + 1) (b.toNat + 1)) (d.toNat + 1)
  | .vdiv _ d a b => max (max (a.toNat + 1) (b.toNat + 1)) (d.toNat + 1)
  | .vmin _ d a b => max (max (a.toNat + 1) (b.toNat + 1)) (d.toNat + 1)
  | .vmax _ d a b => max (max (a.toNat + 1) (b.toNat + 1)) (d.toNat + 1)
  | .vabs _ d a => max (a.toNat + 1) (d.toNat + 1)
  | .vneg _ d a => max (a.toNat + 1) (d.toNat + 1)
  | .vrcp _ d a => max (a.toNat + 1) (d.toNat + 1)
  | .vsqrt _ d a => max (a.toNat + 1) (d.toNat + 1)
  | .vrsq _ d a => max (a.toNat + 1) (d.toNat + 1)
  | .vtwosum _ d a b => max (max (a.toNat + 1) (b.toNat + 1)) (d.toNat + 2)
  | .vexp2 _ d a => max (a.toNat + 1) (d.toNat + 1)
  | .vlog2 _ d a => max (a.toNat + 1) (d.toNat + 1)
  | .vmix _ d a b => max (max (a.toNat + 1) (b.toNat + 1)) (d.toNat + 1)
  | .vsel _ d _ b => max (b.toNat + 1) (d.toNat + 1)
  | .vmov _ d a => max (a.toNat + 1) (d.toNat + 1)
  | .vbc _ d _ => d.toNat + 1
  | .vbcHi _ d _ => d.toNat + 1
  | .vlane _ _ a _ => a.toNat + 1
  | .vand _ d a b => max (max (a.toNat + 1) (b.toNat + 1)) (d.toNat + 1)
  | .vor _ d a b => max (max (a.toNat + 1) (b.toNat + 1)) (d.toNat + 1)
  | .vxor _ d a b => max (max (a.toNat + 1) (b.toNat + 1)) (d.toNat + 1)
  | .vnot _ d a => max (a.toNat + 1) (d.toNat + 1)
  | .vshl _ d a b => max (max (a.toNat + 1) (b.toNat + 1)) (d.toNat + 1)
  | .vshr _ d a b => max (max (a.toNat + 1) (b.toNat + 1)) (d.toNat + 1)
  | .vsar _ d a b => max (max (a.toNat + 1) (b.toNat + 1)) (d.toNat + 1)
  | .vclz _ d a => max (a.toNat + 1) (d.toNat + 1)
  | .vpop _ d a => max (a.toNat + 1) (d.toNat + 1)
  | .vcmpEq _ _ a b => max (a.toNat + 1) (b.toNat + 1)
  | .vcmpNe _ _ a b => max (a.toNat + 1) (b.toNat + 1)
  | .vcmpLt _ _ a b => max (a.toNat + 1) (b.toNat + 1)
  | .vcmpLe _ _ a b => max (a.toNat + 1) (b.toNat + 1)
  | .vcmpGt _ _ a b => max (a.toNat + 1) (b.toNat + 1)
  | .vcmpGe _ _ a b => max (a.toNat + 1) (b.toNat + 1)
  | .vcmpUn _ _ a b => max (a.toNat + 1) (b.toNat + 1)
  | .vcvtF32 _ d a => max (a.toNat + 1) (d.toNat + 1)
  | .vcvtBf16 _ d a => max (a.toNat + 1) (d.toNat + 1)
  | .vcvtF16 _ d a => max (a.toNat + 1) (d.toNat + 1)
  | .vcvtE4m3 _ d a => max (a.toNat + 1) (d.toNat + 1)
  | .vcvtE5m2 _ d a => max (a.toNat + 1) (d.toNat + 1)
  | .vcvtI8 _ d a => max (a.toNat + 1) (d.toNat + 1)
  | .vcvtN8 _ d a => max (a.toNat + 1) (d.toNat + 1)
  | .vcvtI32 _ d a => max (a.toNat + 1) (d.toNat + 1)
  | .vcvtN32 _ d a => max (a.toNat + 1) (d.toNat + 1)
  | .vcvtI16 _ d a => max (a.toNat + 1) (d.toNat + 1)
  | .vcvtN16 _ d a => max (a.toNat + 1) (d.toNat + 1)
  | .vpack _ d a b => max (max (a.toNat + 1) (b.toNat + 1)) (d.toNat + 1)
  | .vunpk _ d a => max (a.toNat + 1) (d.toNat + 2)
  | .vperm _ d a b => max (max (a.toNat + 1) (b.toNat + 1)) (d.toNat + 1)
  | .vbfly _ d a _ => max (a.toNat + 1) (d.toNat + 1)
  | .vrot _ d a _ => max (a.toNat + 1) (d.toNat + 1)
  | .vbcl _ d a _ => max (a.toNat + 1) (d.toNat + 1)
  | .vredAdd _ _ a => a.toNat + 1
  | .vredMin _ _ a => a.toNat + 1
  | .vredMax _ _ a => a.toNat + 1
  | .pand _ _ _ _ => 0
  | .por _ _ _ _ => 0
  | .pxor _ _ _ _ => 0
  | .pnot _ _ _ => 0
  | .qany _ _ _ => 0
  | .qall _ _ _ => 0
  | .pballot _ _ _ => 0
  | .pmask _ _ _ => 0
  | .ldB8 _ d _ b => max (b.toNat + 1) (d.toNat + 1)
  | .ldB16 _ d _ b => max (b.toNat + 1) (d.toNat + 1)
  | .ldB32 _ d _ b => max (b.toNat + 1) (d.toNat + 1)
  | .ldB64 _ d _ b => max (b.toNat + 1) (d.toNat + 2)
  | .ldB128 _ d _ b => max (b.toNat + 1) (d.toNat + 4)
  | .ldPollB32 _ d _ b => max (b.toNat + 1) (d.toNat + 1)
  | .ldPollB64 _ d _ b => max (b.toNat + 1) (d.toNat + 2)
  | .gld _ _ _ _ => 0
  | .stB8 _ d _ b => max (b.toNat + 1) (d.toNat + 1)
  | .stB16 _ d _ b => max (b.toNat + 1) (d.toNat + 1)
  | .stB32 _ d _ b => max (b.toNat + 1) (d.toNat + 1)
  | .stB64 _ d _ b => max (b.toNat + 1) (d.toNat + 2)
  | .stB128 _ d _ b => max (b.toNat + 1) (d.toNat + 4)
  | .gst _ _ _ _ => 0
  | .ldSys _ d _ b => max (b.toNat + 1) (d.toNat + 2)
  | .stSys _ d _ b => max (b.toNat + 1) (d.toNat + 2)
  | .atomAdd _ w _ v _ b => max (b.toNat + 1) (v.toNat + (if w == 0 then 1 else 2))
  | .atomSub _ w _ v _ b => max (b.toNat + 1) (v.toNat + (if w == 0 then 1 else 2))
  | .atomMin _ w _ v _ b => max (b.toNat + 1) (v.toNat + (if w == 0 then 1 else 2))
  | .atomMax _ w _ v _ b => max (b.toNat + 1) (v.toNat + (if w == 0 then 1 else 2))
  | .atomMinn _ w _ v _ b => max (b.toNat + 1) (v.toNat + (if w == 0 then 1 else 2))
  | .atomMaxn _ w _ v _ b => max (b.toNat + 1) (v.toNat + (if w == 0 then 1 else 2))
  | .atomAnd _ w _ v _ b => max (b.toNat + 1) (v.toNat + (if w == 0 then 1 else 2))
  | .atomOr _ w _ v _ b => max (b.toNat + 1) (v.toNat + (if w == 0 then 1 else 2))
  | .atomXor _ w _ v _ b => max (b.toNat + 1) (v.toNat + (if w == 0 then 1 else 2))
  | .atomExch _ w _ v _ b => max (b.toNat + 1) (v.toNat + (if w == 0 then 1 else 2))
  | .atomCas _ w _ v _ b => max (max (b.toNat + 1) (v.toNat + (if w == 0 then 2 else 4))) (v.toNat + (if w == 0 then 1 else 2))
  | .atomfFaddF32 _ _ v _ b => max (b.toNat + 1) (v.toNat + 1)
  | .atomfFaddBf16x2 _ _ v _ b => max (b.toNat + 1) (v.toNat + 1)
  | .atomfFminF32 _ _ v _ b => max (b.toNat + 1) (v.toNat + 1)
  | .atomfFmaxF32 _ _ v _ b => max (b.toNat + 1) (v.toNat + 1)
  | .cas128 _ _ v _ b => max (max (b.toNat + 1) (v.toNat + 8)) (v.toNat + 4)
  | .redAdd _ w _ v _ b => max (b.toNat + 1) (v.toNat + (if w == 0 then 1 else 2))
  | .redSub _ w _ v _ b => max (b.toNat + 1) (v.toNat + (if w == 0 then 1 else 2))
  | .redMin _ w _ v _ b => max (b.toNat + 1) (v.toNat + (if w == 0 then 1 else 2))
  | .redMax _ w _ v _ b => max (b.toNat + 1) (v.toNat + (if w == 0 then 1 else 2))
  | .redMinn _ w _ v _ b => max (b.toNat + 1) (v.toNat + (if w == 0 then 1 else 2))
  | .redMaxn _ w _ v _ b => max (b.toNat + 1) (v.toNat + (if w == 0 then 1 else 2))
  | .redAnd _ w _ v _ b => max (b.toNat + 1) (v.toNat + (if w == 0 then 1 else 2))
  | .redOr _ w _ v _ b => max (b.toNat + 1) (v.toNat + (if w == 0 then 1 else 2))
  | .redXor _ w _ v _ b => max (b.toNat + 1) (v.toNat + (if w == 0 then 1 else 2))
  | .redFaddF32 _ _ v _ b => max (b.toNat + 1) (v.toNat + 1)
  | .redFaddBf16x2 _ _ v _ b => max (b.toNat + 1) (v.toNat + 1)
  | .redFminF32 _ _ v _ b => max (b.toNat + 1) (v.toNat + 1)
  | .redFmaxF32 _ _ v _ b => max (b.toNat + 1) (v.toNat + 1)
  | .sfil _ _ _ _ => 0
  | .sscl _ _ _ _ => 0
  | .soff _ _ _ _ => 0
  | .sclp _ _ _ _ => 0
  | .spmt _ _ _ _ => 0
  | .smat _ _ _ => 0
  | .shdr _ _ _ => 0
  | .pst _ d _ _ => d.toNat + 1
  | .mma _ _ f a b => max (max (f.toNat + 1) (a.toNat + 1)) (b.toNat + 1)
  | .mscale _ _ a => a.toNat + 1
  | .mzero _ _ => 0
  | .mzeroOpen _ _ => 0
  | .mdrain _ d _ _ _ => d.toNat + 8
  | .mdrs _ _ _ _ => 0
  | .mdrp _ _ _ => 0
  | .mcbk _ _ _ _ => 0
  | .gmov _ _ _ => 0
  | .gadd _ _ _ _ => 0
  | .gsub _ _ _ _ => 0
  | .gmul _ _ _ _ => 0
  | .gmulh _ _ _ _ => 0
  | .gand _ _ _ _ => 0
  | .gor _ _ _ _ => 0
  | .gxor _ _ _ _ => 0
  | .gshl _ _ _ _ => 0
  | .gshr _ _ _ _ => 0
  | .gsar _ _ _ _ => 0
  | .gmin _ _ _ _ => 0
  | .gmax _ _ _ _ => 0
  | .gminn _ _ _ _ => 0
  | .gmaxn _ _ _ _ => 0
  | .gsel _ _ _ _ => 0
  | .gclz _ _ _ => 0
  | .gpop _ _ _ => 0
  | .gcmpEq _ _ _ _ => 0
  | .gcmpNe _ _ _ _ => 0
  | .gcmpLt _ _ _ _ => 0
  | .gcmpLe _ _ _ _ => 0
  | .gcmpLtn _ _ _ _ => 0
  | .gcmpLen _ _ _ _ => 0
  | .qand _ _ _ _ => 0
  | .qor _ _ _ _ => 0
  | .qxor _ _ _ _ => 0
  | .qnot _ _ _ => 0
  | .smode _ _ => 0
  | .gmode _ _ => 0
  | .gldi _ _ _ => 0
  | .gldh _ _ _ => 0
  | .gaddi _ _ _ => 0
  | .smodi _ _ _ _ => 0
  | .br _ _ => 0
  | .brq _ _ _ => 0
  | .call _ _ => 0
  | .rcv _ _ => 0
  | .brd _ _ _ => 0
  | .cpy _ _ _ _ => 0
  | .cpyt _ _ _ _ => 0
  | .cpyx _ _ _ _ v => v.toNat + 1
  | .cpym _ _ _ _ => 0
  | .cpyr _ _ _ _ => 0
  | .tlr _ _ _ => 0
  | .tlw _ _ _ => 0
  | .collAr _ _ _ => 0
  | .collRs _ _ _ => 0
  | .collAg _ _ _ => 0
  | .csred _ _ _ v => v.toNat + 1
  | .cprio _ _ => 0
  | .fence _ _ _ => 0
  | .ldaGrp _ _ _ _ => 0
  | .ldaTeam _ _ _ _ => 0
  | .ldaClu _ _ _ _ => 0
  | .ldaDie _ _ _ _ => 0
  | .ldaDev _ _ _ _ => 0
  | .ldaSys _ _ _ _ => 0
  | .acqr _ _ _ => 0
  | .stlGrp _ _ _ _ => 0
  | .stlTeam _ _ _ _ => 0
  | .stlClu _ _ _ _ => 0
  | .stlDie _ _ _ _ => 0
  | .stlDev _ _ _ _ => 0
  | .stlSys _ _ _ _ => 0
  | .bar _ _ _ => 0
  | .bara _ _ _ => 0
  | .barw _ _ _ => 0
  | .barc _ _ _ => 0
  | .trdy _ _ => 0
  | .twt _ _ => 0
  | .snuff _ _ => 0
  | .dclk _ _ => 0
  | .dsync _ => 0
  | .rsig _ _ => 0
  | .rchk _ => 0
  | .nop _ => 0
  | .exit _ => 0
  | .ret _ => 0
  | .jmpg _ _ => 0
  | .pdem _ => 0
  | .safe _ _ => 0
  | .trap _ _ => 0
  | .tret _ => 0
  | .rdsp _ d r => (if spVector r then d.toNat + 1 else 0)
  | .wrsp _ d r => if spVector r then d.toNat + 1 else 0
  | .spawn _ k _ => 4 * k.toNat + 4
  | .bflush _ => 0
  | .launch _ _ => 0
  | .role _ _ => 0
  | .qctlWrite _ _ => 0
  | .qbaseWrite _ _ => 0
  | .qtailDoorbell _ _ => 0
  | .qstatClear _ _ => 0
  | .registerWrite _ _ => 0
  | .imageLoad _ _ => 0
  | .recordRead => 0
  | .launchArbitration => 0
  | .launchAgeRise _ => 0
  | .leaseInstall _ => 0
  | .clusterAdmit _ _ => 0
  | .preemptRequest _ _ => 0
  | .preemptWithdraw _ => 0
  | .clusterPreempt _ _ => 0
  | .clusterPark _ _ => 0
  | .clusterUnpark _ => 0
  | .clusterResume _ _ => 0
  | .binTimerExpiry _ _ => 0
  | .binGroupStart _ _ => 0
  | .spawnResume _ _ => 0
  | .clusterEnd _ => 0
  | .gridRetire _ => 0
  | .deferredFault _ _ _ _ _ _ => 0
  | .nonFiniteTrap _ => 0
  | .safePointDistance _ _ => 0
  | .splitUrgent _ _ => 0
  | .variableLatencyResult _ _ => 0
  | .mshrRetry _ _ => 0
  | .mshrAged _ _ => 0
  | .matrixEngineAccept _ => 0
  | .guardResolve _ _ => 0
  | .engineCommandStart _ _ => 0
  | .engineCommandComplete _ _ _ => 0
  | .collectiveChunkBoundary _ => 0
  | .peerAdd _ => 0
  | .read _ _ => 0
  | .own _ _ _ _ => 0
  | .homeWrite _ _ _ => 0
  | .claimAccess _ _ _ => 0
  | .fwd _ => 0
  | .fwdData _ => 0
  | .wbData _ => 0
  | .inv _ _ => 0
  | .invAck _ _ => 0
  | .binv _ _ => 0
  | .demand _ => 0
  | .demandAck _ => 0
  | .epochWriteback _ => 0
  | .tiledLineDrop _ _ => 0
  | .pageFlipToHost _ _ => 0
  | .pairTorn _ _ _ => 0
  | .snpData _ => 0
  | .snpInv _ => 0
  | .snpCur _ => 0
  | .memRd _ => 0
  | .memWr _ _ _ => 0
  | .hostAtomicop _ _ _ _ _ => 0
  | .hostBar2Access _ _ _ _ => 0
  | .atomicopCompletion _ _ _ => 0
  | .replicaSig _ => 0
  | .compareTimeout _ => 0
  | .rendezvousOperands _ => 0
  | .rendezvousTimeout _ => 0
  | .ldaForwardTimeout _ => 0
  | .replicaNotice _ _ => 0
  | .periodEnd _ => 0
  | .serialPhase _ => 0
  | .snuffCancel _ => 0
  | .dieFailure _ => 0
  | .peerUnreachable _ => 0
  | .pageRetire _ _ => 0
  | .sensorLimit _ _ => 0
  | .coolantFlowTimeout => 0
  | .reset => 0
  | .dieTrainingComplete _ => 0
  | .firmwareUpdate _ _ => 0
  | .firmwareFallback => 0
  | .illegalInstruction _ => 0
  | .instructionFetch _ _ => 0
  | .data _ _ => 0
  | .replicaResult _ => 0

/-- Do the vector fields of a word lie below the kernel's count (R81)? -/
def inRegs (i : Instr) (regs : Nat) : Bool := decide (vectorEnd i ≤ regs)

end Sys2Proof.Machine
end

