-- ==== Sys2Proof/Machine/Issue.lean ====
section
/-! DEFINITION. Fetch, readiness and the choice of a split (R109 to R112, R141), demotion (R121 to R123), the tests of rows 1
to 3 of R106, and what follows an instruction: pops, arrivals and merges (R117 to R119) and the results that have become
readable. -/

namespace Sys2Proof.Machine

/-- The instruction word at an address of the grid's code pages (R78, R141). -/
def State.fetch (s : State) (pc : Addr) : Option Word :=
  if s.grid.codePage pc.toNat then
    match s.leafOf pc.toNat with
    | some l =>
      if l.rd && !s.poisoned (l.phys pc.toNat / 128) then some (BitVec.ofNat 32 (s.physRead (l.phys pc.toNat) 4)) else none
    | none => none
  else none

/-- The word of a split that has arrived (R109, R141). -/
def State.wordAt (s : State) (slot : Nat) : Option Word := (s.splitAt slot).word

/-- The instruction of a word, where R105 does not refuse it. -/
def State.accepted (s : State) (w : Word) : Option Instr :=
  match decode w with
  | .ok i => if inRegs i s.grid.kernel.regs then some i else none
  | .error _ => none

/-- The engine context that a command enters (R237). -/
def contextOf : Instr → Option Nat
  | .cpy _ _ c _ => some c.toNat
  | .cpyt _ _ c _ => some c.toNat
  | .cpyx _ _ c _ _ => some c.toNat
  | .cpym _ _ c _ => some c.toNat
  | .cpyr _ _ c _ => some c.toNat
  | .sfil _ _ _ _ => some 1
  | .sscl _ _ _ _ => some 1
  | .soff _ _ _ _ => some 1
  | .sclp _ _ _ _ => some 1
  | .spmt _ _ _ _ => some 1
  | .smat _ _ _ => some 1
  | .mdrs _ _ _ _ => some 2
  | .mdrp _ _ _ => some 2
  | .collAr _ _ _ => some 3
  | .collRs _ _ _ => some 3
  | .collAg _ _ _ => some 3
  | .csred _ _ _ _ => some 3
  | _ => none

/-- Does an instruction enter the matrix input queue (R237, R301)? -/
def entersMatrix : Instr → Bool
  | .mma _ _ _ _ _ => true
  | .mscale _ _ _ => true
  | .mzero _ _ => true
  | .mzeroOpen _ _ => true
  | .mdrain _ _ _ _ _ => true
  | .mdrs _ _ _ _ => true
  | .mdrp _ _ _ => true
  | .mcbk _ _ _ _ => true
  | _ => false

/-- Class A of a role (R111). -/
def classA (role : BitVec 2) : Instr → Bool
  | .cpy _ _ _ _ => role == 1
  | .cpyt _ _ _ _ => role == 1
  | .cpyx _ _ _ _ _ => role == 1
  | .cpym _ _ _ _ => role == 1
  | .cpyr _ _ _ _ => role == 1
  | .mma _ _ _ _ _ => role == 2
  | .mzero _ _ => role == 2
  | .mzeroOpen _ _ => role == 2
  | .mcbk _ _ _ _ => role == 2
  | .mscale _ _ _ => role == 3
  | .mdrain _ _ _ _ _ => role == 3
  | .mdrs _ _ _ _ => role == 3
  | .mdrp _ _ _ => role == 3
  | .vexp2 _ _ _ => role == 3
  | _ => false

/-- Has every queue that an instruction enters a free entry (R109, R113, R237, R242)? -/
def State.engineRoom (s : State) (i : Instr) : Bool :=
  (match contextOf i with
   | some x => decide (((s.ctx x).queue.filter fun c => !c.done).length < Config.contextQueue)
   | none => true) &&
  (!entersMatrix i || decide (s.core.matrix.length < Config.matrixQueue))

/-- Is what a split of the executing group waits for there (R109)? -/
def State.waitOver (s : State) (slot : Nat) (w : Wait) : Bool :=
  match w with
  | .barrier _ _ _ _ => !(s.at_ s.gid slot).stillWaits w
  | .timeline _ _ => !s.stillWaits w
  | .ready _ => !s.stillWaits w
  | .period _ => !s.stillWaits w
  | .held _ => false
  | .phase _ _ => !s.stillWaits w
  | .spawn _ _ _ => false
  | .turn => (s.at_ s.gid slot).myTurn
  | .full lines => !(s.at_ s.gid slot).bufferFull lines
  | .compare => (s.splitAt slot).token
  | .rendezvous =>
    let r := s.grp.repl
    r.agreed == some (r.number + 1) || r.log.any (fun e => e.number == r.number + 1) || !r.forwarded.isEmpty
  | .line l =>
    !(s.cores.any fun c => s.foreign c.1 l) &&
    !(s.host.atomics.any fun o => o.gid == s.gid && o.lanes.any fun e => e.2.1 / 128 == l)
  | .range team off n => !s.underLock team off n
  | .lock h => !(s.header h).lock
  | .room lines => s.core.roomFor lines
  | .demand core epoch => !s.demandWaits { core := BitVec.ofNat 7 (core % 72), die := BitVec.ofNat 2 (core / 72), epoch := epoch }
  | .atomics all => !s.atomicsOpen s.gid all

/-- The state in which the next instruction reads its operands: each issue draws its own free values (log 1). -/
def State.atIssue (s : State) : State := { s with time := { s.time with free := s.time.free + 1 } }

/-- Does any register of an instruction await an outstanding result (R89)? A vector register or lane predicate in some lane
of the split, a group register or predicate in the whole group. -/
def State.awaits (s : State) (i : Instr) : Bool :=
  let u := s.atIssue.uses i
  let regs := u.reads ++ u.writes ++ (if u.guard then [.p (modeGuard s.regs.gmode)] else [])
  s.grp.inflight.any fun e => e.ready.isNone && regs.contains e.reg && match e.reg with
    | .v _ => e.slot == s.slot || e.lanes &&& s.spl.mask != 0
    | .p _ => e.slot == s.slot || e.lanes &&& s.spl.mask != 0
    | _ => true

/-- How a split stands in a cycle (R109): ready; not ready by its stall bound or its scoreboard alone; or by another
condition. -/
inductive Standing where
  | ready
  | soon
  | no
  deriving DecidableEq, Repr

/-- Does the executing group issue at all: it lives, its cluster is active, its grid has not failed and nothing has stopped
it (R60, R393, R437, R449)? -/
def State.groupRuns (s : State) : Bool :=
  s.grp.live && s.cluster.act == .active && !s.grid.ending.failed && s.grp.nft.isNone

/-- Has the executing group reached the end of its period (R393)? Leaders decide (R396). -/
def State.periodOver (s : State) : Bool :=
  s.deterministic && s.leads s.gid &&
    decide ((s.grid.det.period.toNat + 1) * s.grid.launch.period ≤ s.regs.clock.toNat)

/-- Is a split frozen: a sibling runs a handler, or a fault of its own is pending (R440, R441)? Where faults of one cycle wait
for their delivery in order of TSEQ, no split of the group issues. -/
def State.frozen (s : State) (slot : Nat) : Bool :=
  (match s.grp.handler with
   | some (k, _) => k != slot
   | none => !s.grp.pending.isEmpty) || s.grp.pending.any fun f => f.slot == slot

/-- The standing of a split of the executing group. A split whose word has not arrived is not ready; where no word can come, its
issue raises the fault of R141. -/
def State.standing (s : State) (slot : Nat) : Standing :=
  let s := s.at_ s.gid slot
  let x := s.spl
  if !s.groupRuns || !x.live || x.sched.parked || x.sched.stopped.isSome || s.frozen slot || x.demo.held ||
      (x.wait.isNone && s.periodOver) then .no
  else if (match x.wait with
    | some w => !s.waitOver slot w
    | none => false) then .no
  else
    match s.wordAt slot with
    | none => if (s.fetch x.pc).isSome then .no else if s.time.cycle < x.sched.bound then .soon else .ready
    | some w =>
      match s.accepted w with
      | none => if s.time.cycle < x.sched.bound then .soon else .ready
      | some i =>
        if !s.engineRoom i then .no
        else if decide (s.time.cycle < x.sched.bound) && x.wait.isNone then .soon
        else if x.taken.isNone && s.awaits i then .soon
        else .ready

/-- The split slots of a group. -/
def slots : List Nat := [0, 1, 2, 3]
def slotBit (k : Nat) : BitVec 4 := 1#4 <<< k

/-- A demoted split is released: it ranks last, in the order of the releases (R110, R122). -/
def State.release (s : State) (k : Nat) : State :=
  let x := s.splitAt k
  let t := s.setSplitAt k { x with demo := { x.demo with held := false, set := 0, released := some s.time.releases } }
  { t with time := { t.time with releases := t.time.releases + 1 } }

/-- Demotion of the executing split by an instruction (R122): the siblings that are ready, or soon, and neither demoted nor
released without an issue since. -/
def State.demote (s : State) (n : Word) : State :=
  let hold := slots.foldl (fun (m : BitVec 4) k =>
    let x := s.splitAt k
    if k != s.slot && x.live && !x.demo.held && x.demo.released.isNone && s.standing k != .no then m ||| slotBit k else m) 0
  let t := s.setSpl { s.spl with demo := { held := true, set := hold, by_ := some n } }
  if hold == 0 then t.release t.slot else t

/-- A sibling leaves every hold set of the group; a split whose set is empty is released (R122). -/
def State.leaveHolds (s : State) (gone : BitVec 4) : State :=
  slots.foldl (fun s k =>
    let x := s.splitAt k
    if x.live && x.demo.held then
      let h := x.demo.set &&& ~~~gone
      if h == 0 then s.release k else s.setSplitAt k { x with demo := { x.demo with set := h } }
    else s) s

/-- The siblings that are gone, parked, or not ready for another reason leave the hold sets of a group. -/
def State.refreshHolds (s : State) : State :=
  if slots.any fun k => (s.splitAt k).live && (s.splitAt k).demo.held then
    s.leaveHolds (slots.foldl (fun (m : BitVec 4) k => if s.standing k == .no then m ||| slotBit k else m) 0)
  else s

/-- The rank of a ready split under R110: the lower pair goes first. -/
def State.rank (s : State) (slot : Nat) : Nat × Nat :=
  let s := s.at_ s.gid slot
  let x := s.spl
  let old := 2 ^ 32 - x.sched.age
  if x.sched.urgent then (0, old)
  else match x.demo.released with
  | some c => (3, c)
  | none =>
    match (s.wordAt slot).bind s.accepted with
    | some i => if classA s.regs.role i then (1, old) else (2, old)
    | none => (2, old)

/-- The number of a group's issue slot in the round: four for each core (R17). -/
def slotNumber (gid : Nat) (g : Group) : Nat := 4 * g.place.core + gid % 4
/-- The groups that a slot of a core serves (R17). -/
def State.served_ (s : State) (core q : Nat) : List Nat :=
  (s.groups.filter fun e => e.2.live && e.2.place.core == core && e.1 % 4 == q).map Prod.fst

/-- The ready splits of a slot, with their ranks. -/
def State.candidates (s : State) (core q : Nat) : List ((Nat × Nat) × Nat × Nat) :=
  (s.served_ core q).flatMap fun g =>
    let s := s.at_ g 0
    (slots.filter fun k => s.standing k == .ready).map fun k => (s.rank k, g, k)

/-- Does the first of two candidates come before the second (R110): the rank, then the lower group index, then the lower slot?
DESIGN CHOICE (log 52): between two teams of a core with that still equal, the team with the lower number. -/
def comesFirst (a b : (Nat × Nat) × Nat × Nat) : Bool :=
  let key := fun (c : (Nat × Nat) × Nat × Nat) => [c.1.1, c.1.2, c.2.1 % 32, c.2.2, c.2.1]
  decide (key a < key b)

/-- The first in the order of R110. -/
def bestOf : List ((Nat × Nat) × Nat × Nat) → Option ((Nat × Nat) × Nat × Nat)
  | [] => none
  | c :: r =>
    match bestOf r with
    | none => some c
    | some b => if comesFirst b c then some b else some c

/-- After a choice: every other ready split of the slot is one cycle older, and one that is not ready starts again (R112). -/
def State.grow (s : State) (core q : Nat) (chosen : Nat × Nat) : State :=
  (s.served_ core q).foldl (fun s g =>
    slots.foldl (fun s k =>
      let s := s.at_ g k
      let x := s.spl
      if !x.live || (g, k) == chosen then s
      else if s.standing k == .ready then
        s.setSpl { x with sched := { x.sched with
          age := x.sched.age + 1, urgent := x.sched.urgent || decide (Config.urgentAge ≤ x.sched.age + 1) } }
      else if x.sched.age == 0 then s else s.setSpl { x with sched := { x.sched with age := 0 } }) s) s

/-- A group's first instruction after a resumption is an acquire at device scope (R446). -/
def State.acquireResumed (s : State) : State :=
  if s.grp.resumed then (s.setGrp { s.grp with resumed := false }).selfInvalidate s.coreId else s

/-- The executing split issues: it takes its number (R438), its age returns to 0, it leaves its siblings' hold sets (R122),
and its stall count runs from here (R87). A split that waited keeps its number and its bound. -/
def State.beginIssue (s : State) (stall : Nat) : State :=
  let s := (s.acquireResumed).leaveHolds (slotBit s.slot)
  let x := s.spl
  let sched := { x.sched with age := 0, urgent := false }
  let s := s.atIssue
  match x.num with
  | some _ => s.setSpl { x with sched := sched, demo := { x.demo with released := none } }
  | none =>
    let s := s.setSpl { x with
      sched := { sched with bound := s.time.cycle + stall }, demo := { x.demo with released := none },
      num := some s.regs.tseq }
    s.setRegs { s.regs with tseq := s.regs.tseq + 1 }

/-- The instructions of R96 that act on an empty set of lanes. -/
def groupWide : Instr → Bool
  | .vlane _ _ _ _ => true
  | .vredAdd _ _ _ => true
  | .vredMin _ _ _ => true
  | .vredMax _ _ _ => true
  | .qany _ _ _ => true
  | .qall _ _ _ => true
  | .pballot _ _ _ => true
  | .pmask _ _ _ => true
  | .cpyx _ _ _ _ _ => true
  | .csred _ _ _ _ => true
  | .mdrs _ _ _ _ => true
  | .mdrp _ _ _ => true
  | _ => false

/-- Is a register read early: fewer cycles after a write of the split's own than its latency (R91)? -/
def State.earlyReg (s : State) (r : Reg) : Bool :=
  r != .p 0 && r != .q 0 && s.grp.inflight.any fun e =>
    e.reg == r && (e.slot == s.slot || e.also.getLsbD s.slot) && e.ready.isSome && e.open_ s.time.cycle

/-- Row 3 of R106. -/
def State.early (s : State) (i : Instr) : Bool :=
  let u := s.uses i
  modeChk s.regs.gmode &&
  ((u.guard && s.earlyReg (.p (modeGuard s.regs.gmode))) ||
   (!(u.guard && s.active == 0 && !groupWide i) && (u.reads ++ u.late).any s.earlyReg))

/-- R105: the word matches no allocated encoding, or names a vector register beyond the kernel's count. -/
def execIllegalInstruction (w : BitVec 32) (s : State) : Out :=
  if (s.accepted w).isNone then s.raise 0x01 else .fault .notEnabled

/-- The stall count of a word (R79). -/
def stallOf (w : Word) : Nat := (w.extractLsb' 29 3).toNat

/-- Is it `safe`? -/
def isSafe : Instr → Bool
  | .safe _ _ => true
  | _ => false

/-- Does the operand block of `cpym` or `cpyr` end within the file (R84, R316)? Its length is read from g[G+1] at issue. -/
def State.blockFits (s : State) : Instr → Bool
  | .cpym _ _ _ g => decide (g.toNat + 3 + ((s.rdG (g.toNat + 1)).extractLsb' 56 3).toNat ≤ 64)
  | .cpyr _ _ _ g => decide (g.toNat + 3 + ((s.rdG (g.toNat + 1)).extractLsb' 56 3).toNat ≤ 64)
  | _ => true

/-- A forced compare that is due (R375), rows 2 and 3 of R106, then the instruction itself. -/
def State.tested (s : State) (i : Instr) (run : Instr → State → Out) : Out :=
  if s.compareDue then s.compareForced
  else if !s.blockFits i then s.raise 0x01
  else if decide (Config.safeBound ≤ s.spl.dist) && !s.handlerMode && !isSafe i then s.raise 0x0A
  else if s.early i then s.raise 0x03
  else run i s

/-- Can R439 not cancel an instruction of this word: it acts on memory, an engine, a barrier or the processors, or divides
the split? -/
def isSolid (w : Word) : Bool :=
  let m := (w.extractLsb' 24 5).toNat
  (11 ≤ m && m ≤ 15) || 25 ≤ m
def State.noteSolid (s : State) (w : Word) : State :=
  if isSolid w then s.setSpl { s.spl with solid := some s.tseq } else s

/-- Is a fetch refused because the code page's data is poisoned (R371)? -/
def State.fetchRefused (s : State) (pc : Addr) : Bool :=
  s.grid.codePage pc.toNat && match s.leafOf pc.toNat with
    | some l => l.rd && s.poisoned (l.phys pc.toNat / 128)
    | none => false
/-- Issue the word of the executing split (R106, R141): a fetch outside the code pages is a lease violation, one of poisoned
data ends the grid with detail 0x09 (R371). -/
def State.issue (s : State) (run : Instr → State → Out) : Out :=
  match s.wordAt s.slot with
  | none =>
    let t := s.beginIssue 0
    if s.fetchRefused s.spl.pc then .next (t.failGrid t.gridId 0x09 t.spl.pc t.tseq t.spl.pc) else t.raise 0x07 t.spl.pc
  | some w =>
    match s.accepted w with
    | none => execIllegalInstruction w (s.beginIssue (stallOf w))
    | some i => ((s.beginIssue (stallOf w)).noteSolid w).tested i run

/-- R117: while the program counter is the stop of the top entry, the split takes that entry. -/
def popStops : Nat → Split → Split
  | 0, x => x
  | n + 1, x =>
    match x.stack with
    | e :: r => if e.stop == x.pc then popStops n { x with pc := e.pc, mask := e.mask, stack := r } else x
    | [] => x

/-- Is a split of the group between instructions, with nothing to wait for, one that is stopped at a `safe` among them? -/
def Split.free (x : Split) : Bool := x.live && x.wait.isNone && x.stack.isEmpty

/-- R118: the executing split, at the last address of its chain, parks or goes on without that address. -/
def State.arrive : Nat → State → State
  | 0, s => s
  | n + 1, s =>
    let x := s.spl
    if !x.free then s
    else match x.chain.getLast? with
    | none => s
    | some a =>
      if a != x.pc then s
      else if slots.any fun k => k != s.slot && (s.splitAt k).live && x.chain.isPrefixOf (s.splitAt k).chain then
        s.setSpl { x with sched := { x.sched with parked := true, age := 0 } }
      else
        State.arrive n (s.setSpl { x with chain := x.chain.dropLast, sched := { x.sched with parked := false } })

/-- R119: the split of two that have met, in the lower slot: its RPC is the lower slot's, or else the other's, and it has both
demotions, and it is stopped where one of the two is (DESIGN CHOICE, log 52). -/
def mergeSplits (a b : Split) (sa sb : Nat) : Split :=
  let set := (a.demo.set ||| b.demo.set) &&& ~~~(slotBit sa ||| slotBit sb)
  { a with
    mask := a.mask ||| b.mask
    rpc := a.rpc <|> b.rpc
    word := a.word <|> b.word
    dist := max a.dist b.dist
    rel := (match a.rel, b.rel with
      | some x, some y => some (max x y)
      | x, y => x <|> y)
    demo := { held := (a.demo.held || b.demo.held) && set != 0, set := set, released := a.demo.released <|> b.demo.released, by_ := a.demo.by_ <|> b.demo.by_ }
    sched := { bound := max a.sched.bound b.sched.bound, stopped := a.sched.stopped <|> b.sched.stopped } }

/-- A result in flight of a split whose lanes go to another slot. -/
def Inflight.moved (b a : Nat) (e : Inflight) : Inflight :=
  let also := if e.also.getLsbD b then (e.also &&& ~~~(slotBit b)) ||| slotBit a else e.also
  if e.slot == b then { e with slot := a, also := also } else { e with also := also }

/-- Merge the first pair of splits that R119 lets merge; the merged split arrives at once. -/
def State.mergePair (s : State) (a b : Nat) : State :=
  let x := s.splitAt a
  let y := s.splitAt b
  if x.free && y.free && x.pc == y.pc && x.chain == y.chain then
    let s := s.leaveHolds (slotBit a ||| slotBit b)
    let s := s.setSplitAt a { mergeSplits (s.splitAt a) (s.splitAt b) a b with solid := some (s.regs.tseq - 1) }
    let s := s.setSplitAt b {}
    let s := s.setGrp { s.grp with inflight := s.grp.inflight.map (Inflight.moved b a) }
    let bar := s.grp.ctx.bar.unite a b
    let live := slots.filter fun k => (s.splitAt k).live
    let s := s.setGrp { s.grp with ctx := { s.grp.ctx with bar := Barrier.settle (bar.next.length + 2) live bar } }
    State.arrive 5 (s.at_ s.gid a)
  else s

/-- All pops, merges and arrivals of a group (R117 to R120); in handler mode only the pops of the handler (R441). -/
def State.settleSplits (s : State) : State :=
  let slot := s.slot
  let s := slots.foldl (fun s k =>
    let x := s.splitAt k
    if x.live && x.wait.isNone && !s.frozen k then s.setSplitAt k (popStops 33 x) else s) s
  if s.grp.handler.isSome then s
  else
    let pairs := [(0, 1), (0, 2), (0, 3), (1, 2), (1, 3), (2, 3)]
    let pass := fun (s : State) =>
      let s := pairs.foldl (fun s p => s.mergePair p.1 p.2) s
      slots.foldl (fun s k => State.arrive 5 (s.at_ s.gid k)) s
    (pass (pass (pass (pass s)))).at_ s.gid slot

/-- Forget the results that are readable, but for those behind an older outstanding one of their split (R439) or an older one of
their register that is kept (R90, R439). -/
def dropReadable (cycle : Nat) : List Inflight → List Inflight
  | [] => []
  | e :: r =>
    let r := dropReadable cycle r
    if e.open_ cycle || r.any (fun o => o.slot == e.slot && o.ready.isNone || o.reg == e.reg) then e :: r else r

/-- What follows an instruction of the executing group. -/
def State.settleGroup (s : State) : State :=
  let s := s.settleSplits
  s.setGrp { s.grp with inflight := dropReadable s.time.cycle s.grp.inflight }

end Sys2Proof.Machine
end

