-- ==== Sys2Proof/Machine/Loads.lean ====
section
/-! DEFINITION. Loads and stores: M = 0x0A and 0x0B (R268 to R275). -/

namespace Sys2Proof.Machine

/-- No further test of row 8. -/
def anyTarget : Target → Bool := fun _ => true

/-- The words of a load's value in the registers of its block (R269). -/
def State.writeBlock (s : State) (d k : Nat) (m : Mask) (value : Nat → Nat) : State :=
  (List.range k).foldl (fun s i => s.wrV (d + i) m (fun l => BitVec.ofNat 32 (value l >>> (32 * i))) latVar) s

/-- The value of a lane's block (R270). -/
def State.readBlock (s : State) (d k l : Nat) : Nat :=
  (List.range k).foldr (fun i x => x * 2 ^ 32 + (s.rdV (d + i) l).toNat) 0

/-- The place of a lane's address, once it has been tested. -/
def State.placeOf (s : State) (k : Need) (a : DWord) : Target :=
  match s.target a k with
  | .ok t => t
  | .error _ => .scratch s.teamId 0

/-- Bring every place's bytes into the L1; a second pass is the replay of R231. -/
def State.prepareAll (s : State) (n : Nat) (p : List (DWord × Target)) : State :=
  let keep := s.lineKeep n p
  let once := fun (s : State) => p.foldl (fun s e => s.prepare e.2 n keep) s
  (once (once s)).noteHeard n (p.map Prod.snd)

/-- A vector load of n bytes into k registers (R269). -/
def State.vectorLoad (s : State) (n k d a b : Nat) : Out :=
  s.vector (s.access n .read anyTarget false false (s.activeLanes.map (s.laneAddr a b)) fun p =>
    s.withRoom (s.lineKeep n p)
      (let t := s.prepareAll n p
       (t.writeBlock d k s.active fun l => t.loaded (s.placeOf .read (s.laneAddr a b l)) n).done))

/-- The bytes of the lines of places in memory. -/
def Target.line : Target → Option Nat
  | .scratch _ _ => none
  | .memory _ _ pa => some (pa / 128)
def placeLines (p : List (DWord × Target)) : List Nat := (p.filterMap fun e => e.2.line).eraseDups
/-- Are some places in scratch? -/
def anyScratch (p : List (DWord × Target)) : Bool := p.any fun e => e.2.line.isNone

/-- The pending release of the split, at the access's own scope if that is wider (R399). -/
def State.releaseScope (s : State) (own : Option Nat) : Option Nat :=
  match s.spl.rel, own with
  | some a, some b => some (max a b)
  | some a, none => some a
  | none, o => o
/-- The record of a pending release that an access takes (R379, R399). -/
def State.takenRecord (s : State) (addr : Nat) : List Byte := if s.spl.rel.isSome then sigRecord addr 0x42 [] else []
/-- The pending release is taken. -/
def State.clearRelease (s : State) : State := s.setSpl { s.spl with rel := none }

/-- Is a store that takes a release performed at its home: from cluster scope, and in deterministic mode always (R347,
R394)? -/
def State.releaseAtHome (s : State) (scope : Option Nat) : Bool :=
  match scope with
  | some sc => decide (2 ≤ sc) || s.deterministic
  | none => false

/-- Make an access a release at a scope (R339, R347): scratch places take the eager path too. -/
def State.releasing (s : State) (scope : Option Nat) (p : List (DWord × Target)) (perform : State → State) : State :=
  match scope with
  | none => perform s
  | some sc =>
    let s := if anyScratch p && decide (2 ≤ sc) then s.writeBackDirty s.coreId else s
    if sc < 2 then perform s else if (placeLines p).isEmpty then perform s else s.releaseAround sc (placeLines p) perform

/-- A follower performs a release on its shadow only (R381, R389). -/
def State.releasingHere (s : State) (scope : Option Nat) (p : List (DWord × Target)) (perform : State → State) : State :=
  if s.follows then perform s else s.releasing scope p perform

/-- The value stored at the places of the lanes, in ascending lane order: the highest lane's value stays (R266). -/
def State.storeLanes (s : State) (home : Bool) (n : Nat) (p : List (Target × Nat)) : State :=
  let keep := p.filterMap fun e => e.1.line
  p.foldl (fun s e => if home && !s.follows then s.writeHome e.1 n e.2 else s.storePlain e.1 keep n e.2) s
/-- A store goes on once its lines find room, and as a release once the group's AtomicOps have returned (R340) and a demand on
a core with an unverified line can be met (R374). -/
def State.storeReady (s : State) (scope : Option Nat) (p : List (DWord × Target)) (go : Out) : Out :=
  s.withRoom (if s.releaseAtHome scope && !s.follows then [] else placeLines p)
    (if scope.isSome then s.afterAtomics true (s.afterDemands (s.wicksOf (placeLines p)) go) else go)

/-- A vector store (R271): plain, or at the home where a pending release of cluster scope or wider is taken (R399). -/
def State.vectorStore (s : State) (n k d a b : Nat) : Out :=
  s.vector (s.access n .write anyTarget s.spl.rel.isSome false (s.activeLanes.map (s.laneAddr a b)) fun p =>
    let scope := s.releaseScope none
    s.storeReady scope p
    (let records := s.activeLanes.flatMap fun l =>
      sigRecord (s.laneAddr a b l).toNat (Nat.log2 n) (leBytes n (s.readBlock d k l))
    let go :=
      let lanes := s.activeLanes.map fun l => (s.placeOf .write (s.laneAddr a b l), s.readBlock d k l % 2 ^ (8 * n))
      let t := s.releasingHere scope p fun s => s.storeLanes (s.releaseAtHome scope) n lanes
      ((t.noteReleased scope n p).clearRelease.sign (if scope.isSome then [] else records)).done
    if scope.isSome then
      s.compareFirst (records ++ sigRecord ((s.laneAddr a b (s.activeLanes.headD 0)).toNat) 0x42 []) (s.afterLeader go)
    else go))

/-- R268, R269: 1 byte per active lane. -/
def execLdB8 (_ : BitVec 3) (d : BitVec 7) (a : BitVec 6) (b : BitVec 7) (st : State) : Out :=
  st.vectorLoad 1 1 d.toNat a.toNat b.toNat
/-- R268, R269: 2 bytes per active lane. -/
def execLdB16 (_ : BitVec 3) (d : BitVec 7) (a : BitVec 6) (b : BitVec 7) (st : State) : Out :=
  st.vectorLoad 2 1 d.toNat a.toNat b.toNat
/-- R268, R269: 4 bytes per active lane. -/
def execLdB32 (_ : BitVec 3) (d : BitVec 7) (a : BitVec 6) (b : BitVec 7) (st : State) : Out :=
  st.vectorLoad 4 1 d.toNat a.toNat b.toNat
/-- R268, R269: 8 bytes per active lane. -/
def execLdB64 (_ : BitVec 3) (d : BitVec 7) (a : BitVec 6) (b : BitVec 7) (st : State) : Out :=
  st.vectorLoad 8 2 d.toNat a.toNat b.toNat
/-- R268, R269: 16 bytes per active lane. -/
def execLdB128 (_ : BitVec 3) (d : BitVec 7) (a : BitVec 6) (b : BitVec 7) (st : State) : Out :=
  st.vectorLoad 16 4 d.toNat a.toNat b.toNat
/-- R270, R271: 1 byte per active lane. -/
def execStB8 (_ : BitVec 3) (d : BitVec 7) (a : BitVec 6) (b : BitVec 7) (st : State) : Out :=
  st.vectorStore 1 1 d.toNat a.toNat b.toNat
/-- R270, R271: 2 bytes per active lane. -/
def execStB16 (_ : BitVec 3) (d : BitVec 7) (a : BitVec 6) (b : BitVec 7) (st : State) : Out :=
  st.vectorStore 2 1 d.toNat a.toNat b.toNat
/-- R270, R271: 4 bytes per active lane. -/
def execStB32 (_ : BitVec 3) (d : BitVec 7) (a : BitVec 6) (b : BitVec 7) (st : State) : Out :=
  st.vectorStore 4 1 d.toNat a.toNat b.toNat
/-- R270, R271: 8 bytes per active lane. -/
def execStB64 (_ : BitVec 3) (d : BitVec 7) (a : BitVec 6) (b : BitVec 7) (st : State) : Out :=
  st.vectorStore 8 2 d.toNat a.toNat b.toNat
/-- R270, R271: 16 bytes per active lane. -/
def execStB128 (_ : BitVec 3) (d : BitVec 7) (a : BitVec 6) (b : BitVec 7) (st : State) : Out :=
  st.vectorStore 16 4 d.toNat a.toNat b.toNat

/-- One group-uniform load of 8 bytes (R273): the guard plays no part, and the split need have no active lane. -/
def execGld (_ : BitVec 3) (d a b : BitVec 6) (st : State) : Out :=
  let x := st.groupAddr a.toNat b.toNat
  st.access 8 .read anyTarget false false [x] fun p =>
    st.withRoom (st.lineKeep 8 p)
      (let t := st.prepareAll 8 p
       (t.wrG d.toNat (BitVec.ofNat 64 (t.loaded (st.placeOf .read x) 8)) latVar).done)

/-- R273: one group-uniform store of 8 bytes. -/
def execGst (_ : BitVec 3) (d a b : BitVec 6) (st : State) : Out :=
  let x := st.groupAddr a.toNat b.toNat
  st.access 8 .write anyTarget st.spl.rel.isSome false [x] fun p =>
    let scope := st.releaseScope none
    st.storeReady scope p
    (let record := sigRecord x.toNat 3 (leBytes 8 (st.rdG d.toNat).toNat)
    let go :=
      let t := st.releasingHere scope p fun s =>
        s.storeLanes (s.releaseAtHome scope) 8 [(st.placeOf .write x, (st.rdG d.toNat).toNat)]
      ((t.noteReleased scope 8 p).clearRelease.sign (if scope.isSome then [] else record)).done
    if scope.isSome then st.compareFirst (record ++ sigRecord x.toNat 0x42 []) (st.afterLeader go) else go)

end Sys2Proof.Machine
end

