-- ==== Sys2Proof/Machine/Atomics.lean ====
section
/-! DEFINITION. Polling loads (R272), the accesses at the home `ld.sys` and `st.sys` (R274, R275), and M = 0x0C: atomics,
floating atomics, 128-bit compare-and-swap and reductions (R276 to R284). An operation that replicas perform once meets at
a rendezvous (R386, R387). -/

namespace Sys2Proof.Machine

/-- R272: a polling load, which demotes its split. -/
def State.pollLoad (s : State) (n k d a b : Nat) : Out :=
  if s.active = 0 then .next (s.retire.demote s.tseq)
  else s.access n .read anyTarget false false (s.activeLanes.map (s.laneAddr a b)) fun p =>
    let t := p.foldl (fun s e => s.polled e.2 n true) s
    .next ((t.writeBlock d k s.active fun l => t.pollRead (s.placeOf .read (s.laneAddr a b l)) n).retire.demote s.tseq)

/-- R272: 4 bytes per active lane. -/
def execLdPollB32 (_ : BitVec 3) (d : BitVec 7) (a : BitVec 6) (b : BitVec 7) (st : State) : Out :=
  st.pollLoad 4 1 d.toNat a.toNat b.toNat
/-- R272: 8 bytes per active lane. -/
def execLdPollB64 (_ : BitVec 3) (d : BitVec 7) (a : BitVec 6) (b : BitVec 7) (st : State) : Out :=
  st.pollLoad 8 2 d.toNat a.toNat b.toNat

/-- The instruction word that a split executes. -/
def State.ownWord (s : State) : Word := (s.wordAt s.slot).getD 0

/-- Do the operands of two entries agree (R386)? -/
def LogEntry.agrees (a b : LogEntry) : Bool :=
  a.word == b.word && a.mask == b.mask && a.ops == b.ops && a.addrs == b.addrs && a.operands == b.operands
/-- The record bytes of an open rendezvous of the executing group whose operands have agreed (R154). -/
def State.agreedRecord (s : State) : Option (List (BitVec 256)) :=
  if s.grp.repl.agreed == some (s.grp.repl.number + 1) then s.grp.repl.operands.map (·.record) else none

/-- Change what the executing group keeps as a replica. -/
def State.setRepl (s : State) (r : Replica) : State := s.setGrp { s.grp with repl := r }

/-- Send something to every partner of the executing group. -/
def State.forward (s : State) (f : Forward) : State :=
  (s.partners s.gid).foldl (fun t g =>
    if g == s.gid then t
    else
      let x := AMap.get {} t.groups g
      { t with groups := AMap.set t.groups g { x with repl := { x.repl with due := x.repl.due ++ [f] } } }) s

/-- An operation that a replicated group performs exactly once (R386): with the operands agreed it is performed here and its
results forwarded; with an entry in the log its results are the logged ones (R387); otherwise the operands are sent and the
split waits. Outside replica mode it is performed at once. -/
def State.once (s : State) (e : LogEntry) (perform : State → State × LogEntry) (finish : State → LogEntry → Out) : Out :=
  if !s.replicated then
    let (t, r) := perform s
    finish t r
  else
    let n := s.grp.repl.number + 1
    match s.grp.repl.log.find? (fun x => x.number == n) with
    | some x =>
      if x.agrees e then finish (s.setRepl { s.grp.repl with number := n, operands := none, agreed := none }) x
      else .next (s.failGridWith s.gridId 4 0 0x0B s.spl.pc s.tseq 0)
    | none =>
      if decide (64 ≤ s.grp.repl.log.length) then s.compareForced
      else if s.grp.repl.agreed == some n then
        let (t, r) := perform s
        let r := { r with number := n, record := [] }
        let t := t.setRepl { t.grp.repl with
          number := n, operands := none, agreed := none, log := t.grp.repl.log ++ [r] }
        finish (t.forward (.result r)) r
      else .next ((s.setRepl { s.grp.repl with operands := some { e with number := n }, since := s.time.cycle }).waitFor .rendezvous)

/-- The operands of a vector rendezvous (R388). -/
def State.vectorEntry (s : State) (a b : Nat) (operand : Nat → Nat) : LogEntry :=
  { word := s.ownWord, mask := s.active, number := 0, ops := [], result := 0,
    addrs := lanes.map fun l => if s.active.has l then (s.laneAddr a b l).toNat else 0,
    operands := lanes.map fun l => if s.active.has l then BitVec.ofNat 256 (operand l) else 0,
    results := [] }

/-- Lane l's result in an entry. -/
def LogEntry.laneResult (e : LogEntry) (l : Nat) : Nat := (e.results.getD l 0).toNat

/-- A replica's rendezvous of an access at the home comes after a compare where its own writes to the line cannot leave the
core before (R267, R374, log 55). -/
def State.settled (s : State) (p : List (DWord × Target)) (go : Out) : Out :=
  if s.replicated && p.any fun e => s.atHomeForced e.2 then s.compareForced else go
/-- A follower gives up its shadows of what the leader has accessed at its home (log 55). -/
def State.alongside (s : State) (p : List (DWord × Target)) : State := if s.follows then s.giveUps p else s

/-- The wick that a read brings back (R343, R351), and in deterministic mode the release that it has read (R394). -/
def State.readWick (s : State) (t : Target) : State :=
  let s := s.noteHeard 8 [t]
  match t with
  | .scratch _ _ => s
  | .memory _ _ pa => s.recordWick s.coreId (pa / 128)
/-- A read of each active lane at its home, once (R274). -/
def State.sysReads (s : State) (a b : Nat) : State × List (BitVec 128) :=
  lanes.foldl (fun (acc : State × List (BitVec 128)) l =>
    if s.active.has l then
      let t := s.placeOf .read (s.laneAddr a b l)
      let (u, x) := (acc.1.readWick t).readHome t 8
      (u, acc.2 ++ [BitVec.ofNat 128 x])
    else (acc.1, acc.2 ++ [0])) (s, [])

/-- R274, R275: 8 bytes per active lane, read at the home. -/
def execLdSys (_ : BitVec 3) (d : BitVec 7) (a : BitVec 6) (b : BitVec 7) (st : State) : Out :=
  st.vector (st.access 8 .read anyTarget true true (st.activeLanes.map (st.laneAddr a.toNat b.toNat)) fun p =>
    st.settled p (st.once (st.vectorEntry a.toNat b.toNat fun _ => 0)
      (fun s =>
        let (t, xs) := s.sysReads a.toNat b.toNat
        (t, { s.vectorEntry a.toNat b.toNat fun _ => 0 with results := xs }))
      fun s e => ((s.alongside p).writeBlock d.toNat 2 st.active e.laneResult).done))

/-- R274, R275, R399: 8 bytes per active lane, written at the home. -/
def execStSys (_ : BitVec 3) (d : BitVec 7) (a : BitVec 6) (b : BitVec 7) (st : State) : Out :=
  st.vector (st.access 8 .write anyTarget true true (st.activeLanes.map (st.laneAddr a.toNat b.toNat)) fun p =>
    let scope := st.releaseScope none
    let entry := st.vectorEntry a.toNat b.toNat fun l => st.readBlock d.toNat 2 l
    let records := st.activeLanes.flatMap fun l =>
      sigRecord (st.laneAddr a.toNat b.toNat l).toNat 3 (leBytes 8 (st.readBlock d.toNat 2 l))
    let go := st.settled p (st.once entry
      (fun s => ((s.releasing scope p fun s =>
          st.activeLanes.foldl (fun s l =>
            s.writeHome (st.placeOf .write (st.laneAddr a.toNat b.toNat l)) 8 (st.readBlock d.toNat 2 l)) s).noteReleased scope 8 p,
        { entry with results := lanes.map fun _ => 0 }))
      fun s _ =>
        ((s.alongside p).clearRelease.sign (if scope.isSome then [] else records)).done)
    if scope.isSome then
      st.afterAtomics true (st.afterDemands (st.wicksOf (placeLines p))
        (st.compareFirst (records ++ sigRecord (st.laneAddr a.toNat b.toNat (st.activeLanes.headD 0)).toNat 0x42 []) go))
    else go)

/-- The combination of one element of 32-bit or packed floats, rounded once RNE with subnormals honoured (R281, R282). -/
def floatCombine (f : Fmt) (op : Fl → Fl → Fl) (x y : Nat) : Nat := f.roundTo {} (op (f.value x) (f.value y))
/-- The same for the two bf16 elements of a word. -/
def pairCombine (op : Fl → Fl → Fl) (x y : Nat) : Nat :=
  floatCombine .bf16 op (x % 65536) (y % 65536) + 65536 * floatCombine .bf16 op (x / 65536 % 65536) (y / 65536 % 65536)

/-- f(old, x) of R279 to R283 for an OP of R100 and a unit of n bytes; a compare-and-swap takes compare and new value in x,
compare lower. -/
def combine (op n old x : Nat) : Nat :=
  let m := 2 ^ (8 * n)
  let i : IntTy := ⟨8 * n, true⟩
  match op with
  | 0 => (old + x) % m
  | 1 => (old + (m - x % m)) % m
  | 2 => if i.value (x % m) < i.value old then x % m else old
  | 3 => if i.value old < i.value (x % m) then x % m else old
  | 4 => min old (x % m)
  | 5 => max old (x % m)
  | 6 => old &&& x % m
  | 7 => old ||| x % m
  | 8 => old ^^^ x % m
  | 9 => x % m
  | 10 => if old == x % m then x / m % m else old
  | 11 => floatCombine .f32 (Fl.add false) old (x % m)
  | 12 => pairCombine (Fl.add false) old (x % m)
  | 13 => floatCombine .f32 Fl.min old (x % m)
  | 14 => floatCombine .f32 Fl.max old (x % m)
  | _ => if old == x % m then x / m % m else old
/-- Is it a compare-and-swap? -/
def isCas (op : Nat) : Bool := op == 10 || op == 15

/-- One read-modify-write at its home (R276): the core's own copy goes first, a tiled unit is materialised (R227), and a
deterministic team's own buffered bytes of the unit are taken in (R391). It is a home write whatever it writes, a failed
compare-and-swap too (R360); of a host line over CXL the die takes the line exclusively (R219, R367, R471). -/
def State.rmw (s : State) (t : Target) (n op x : Nat) : State × Nat :=
  match t with
  | .scratch team off =>
    let old := s.scratchRead team off n
    (if isCas op && old != x % 2 ^ (8 * n) then s else (s.scratchWrite team off n (combine op n old x)).forgetUnseen t.key n, old)
  | .memory leaf va pa =>
    let s := (s.noteRequest t).giveUp leaf va pa
    let s := match leaf.tile va with
      | some t => s.plainTile t
      | none => s
    let old := s.overlay pa n (s.physRead pa n)
    let s := s.unbuffer pa n
    let s := if kindOf pa == 1 && !s.plainPcie then
        s.performWrite (s.coreId / 72) (pa / 128) (byteMask (pa % 128) n)
          (BitVec.ofNat 1024 (combine op n old x <<< (8 * (pa % 128))))
      else s.physWrite pa n (combine op n old x)
    (if isCas op && old != x % 2 ^ (8 * n) then s else s.forgetUnseen t.key n, old)

/-- The scope of ORD as an acquire or as a release (R100). -/
def ordAcquire (r : BitVec 3) : Option Nat :=
  match r.toNat with
  | 1 => some 2
  | 3 => some 4
  | 5 => some 5
  | _ => none
def ordRelease (r : BitVec 3) : Option Nat :=
  match r.toNat with
  | 2 => some 2
  | 4 => some 4
  | 6 => some 5
  | _ => none

/-- Does plain PCIe carry an atomic to an SA host page (R219)? -/
def carriedByPcie (op : Nat) : Bool := op == 0 || op == 1 || op == 9 || op == 10 || op == 15
/-- Is a place an SA host page that an atomic reaches as a PCIe AtomicOp (R219, R276)? -/
def State.byAtomicOp (s : State) : Target → Bool
  | .scratch _ _ => false
  | .memory leaf _ pa => s.uncached pa && leaf.sa
/-- The part of row 8 that R219 adds for atomics. -/
def State.atomicAllowed (s : State) (op : Nat) : Target → Bool
  | .scratch _ _ => true
  | .memory leaf _ pa => !(s.uncached pa && leaf.sa) || carriedByPcie op

/-- Every read-modify-write of the lanes of a mask in ascending lane order, with the old values (R276). DESIGN CHOICE (log 60): the
lanes follow one another within one step, so that no other group reads between two of them. -/
def State.rmwLanes (s : State) (n op a b : Nat) (m : Mask) (operand : Nat → Nat) : State × List (BitVec 128) :=
  lanes.foldl (fun (acc : State × List (BitVec 128)) l =>
    if m.has l then
      let (t, x) := acc.1.rmw (s.placeOf .both (s.laneAddr a b l)) n op (operand l)
      (t, acc.2 ++ [BitVec.ofNat 128 x])
    else (acc.1, acc.2 ++ [0])) (s, [])

/-- Give the newest outstanding writes of the executing instruction the mark that their return demotes the split (R121). -/
def State.markDemotes (s : State) (tseq : Word) : State :=
  s.setGrp { s.grp with inflight := s.grp.inflight.map fun e => if e.tseq == tseq then { e with demotes := true } else e }

/-- One more M = 0x0C instruction since the last compare (R379). -/
def State.countAtomic (s : State) : State :=
  if s.replicated then s.setRepl { s.grp.repl with atomics := s.grp.repl.atomics + 1 } else s

/-- The shape of an M = 0x0C form: OP, bytes of the unit, registers of the operand block, registers returned. -/
structure AtomicForm where
  op : Nat
  bytes : Nat
  block : Nat
  back : Nat

/-- The acquire of an atomic at a scope (R277, R348): its demands have been made at the home; `goes` is the wick test, made
before the atomic's own release names a wick (R346). -/
def State.acquired (s : State) (goes : Bool) : State := if goes then s.selfInvalidate s.coreId else s

/-- The lanes of an atomic at their homes, around the release that it is at a scope (R347, R349), with the old values. -/
def State.atHomes (s : State) (f : AtomicForm) (scope : Option Nat) (p : List (DWord × Target)) (a b : Nat) (m : Mask)
    (operand : Nat → Nat) : State × List (BitVec 128) :=
  let lines := (placeLines p).filter fun l => kindOf (128 * l) == 0
  let around := fun (acts : State → State) => match scope with
    | some sc => if sc < 2 then acts (lines.foldl (fun s l => s.beforeHome s.coreId l) s) else s.releasing scope p acts
    | none => acts (lines.foldl (fun s l => s.beforeHome s.coreId l) s)
  let s := s.noteHeard f.bytes (p.map Prod.snd)
  (around fun u => (u.rmwLanes f.bytes f.op a b m operand).1, ((around fun u => u).rmwLanes f.bytes f.op a b m operand).2)

/-- The lanes of a mask whose places satisfy a test. -/
def State.lanesAt (s : State) (a b : Nat) (t : Target → Bool) : Mask :=
  s.active &&& (BitVec.ofBoolListLE (lanes.map fun l => t (s.placeOf .both (s.laneAddr a b l)))).setWidth 32

/-- An atomic of which lanes go to the host as PCIe AtomicOps (R219, R472): the others are performed at their homes, and the
results of those sent are outstanding. -/
def State.sendAtomics (s : State) (f : AtomicForm) (r : BitVec 3) (scope : Option Nat) (p : List (DWord × Target)) (v a b : Nat)
    (operand : Nat → Nat) : State :=
  let sent := s.lanesAt a b s.byAtomicOp
  let (t, olds) := s.atHomes f scope p a b (s.active &&& ~~~sent) operand
  let value := fun (t : State) i l => if sent.has l then t.regs.getV (v + i) l else BitVec.ofNat 32 ((olds.getD l 0).toNat >>> (32 * i))
  let t := (List.range f.back).foldl (fun t i => t.wrV (v + i) s.active (value t i) latVar) t
  let pa := fun l => match s.placeOf .both (s.laneAddr a b l) with
    | .memory _ _ pa => pa
    | .scratch _ _ => 0
  let failed := isCas f.op && (s.activeLanes.filter fun l => !sent.has l).any fun l =>
    (olds.getD l 0).toNat != operand l % 2 ^ (8 * f.bytes)
  let t := if failed then t.markDemotes s.tseq else t
  let item : HostAtomic := {
    gid := s.gid, slot := s.slot, tseq := s.tseq, op := f.op, bytes := f.bytes, reg := v, returns := decide (0 < f.back),
    pc := s.spl.pc, lanes := (s.activeLanes.filter sent.has).map fun l => (l, pa l, operand l), acq := ordAcquire r }
  ({ t with host := { t.host with atomics := t.host.atomics ++ [item] } } : State).clearRelease

/-- Is the open rendezvous of the executing group's set an AtomicOp on its way (R386, R472)? -/
def State.entrySent (s : State) : Bool :=
  s.host.atomics.any fun o => (s.partners s.gid).contains o.gid &&
    o.entry.any fun e => e.number == s.grp.repl.number + 1
/-- The leader of a replicated group sends the AtomicOps of an agreed rendezvous, once (R386, R472): the other lanes are performed
at their homes, and the completion brings the results for every replica. -/
def State.sendEntry (s : State) (f : AtomicForm) (scope : Option Nat) (p : List (DWord × Target)) (a b : Nat) (operand : Nat → Nat)
    (e : LogEntry) : State :=
  let sent := s.lanesAt a b s.byAtomicOp
  let (t, olds) := s.atHomes f scope p a b (s.active &&& ~~~sent) operand
  let t := t.noteReleased scope f.bytes p
  let pa := fun l => match s.placeOf .both (s.laneAddr a b l) with
    | .memory _ _ pa => pa
    | .scratch _ _ => 0
  let item : HostAtomic := {
    gid := s.gid, slot := s.slot, tseq := s.tseq, op := f.op, bytes := f.bytes, reg := 0, returns := false, pc := s.spl.pc,
    lanes := (s.activeLanes.filter sent.has).map fun l => (l, pa l, operand l)
    entry := some { e with number := s.grp.repl.number + 1, results := olds, record := [] } }
  { t with host := { t.host with atomics := t.host.atomics ++ [item] } }

/-- M = 0x0C (R276 to R284): the tests, the compare of a releasing form, whose count includes it (R450), then the lanes at
their homes, once. -/
def State.atomic (s : State) (f : AtomicForm) (r : BitVec 3) (v a b : Nat) : Out :=
  if s.active = 0 then s.countAtomic.done
  else s.access f.bytes .both (s.atomicAllowed f.op) true true (s.activeLanes.map (s.laneAddr a b)) fun p =>
    let own := ordRelease r
    let scope := s.releaseScope own
    let operand := fun l => s.readBlock v f.block l
    let entry := s.vectorEntry a b operand
    let first := (s.laneAddr a b (s.activeLanes.headD 0)).toNat
    let goes := match ordAcquire r with
      | some sc => s.mustInvalidate s.coreId sc (if anyScratch p then [] else placeLines p)
      | none => false
    s.afterPhases (ordAcquire r) f.bytes (p.map Prod.snd) (if p.any (fun e => s.byAtomicOp e.2) && !s.host.atomicEn then
      .next (s.failGrid s.gridId 0x07 s.spl.pc s.tseq (BitVec.ofNat 56 first))
    else s.afterAtomics scope.isSome (s.afterDemands (s.wicksOf (placeLines p))
      (if !s.replicated && p.any (fun e => s.byAtomicOp e.2) then (s.sendAtomics f r scope p v a b operand).done
       else
        let n := s.grp.repl.number + 1
        let go := s.settled p (if s.replicated && p.any (fun e => s.byAtomicOp e.2) && s.grp.repl.agreed == some n &&
            s.grp.repl.log.all (fun e => e.number != n) then
            .next ((if s.entrySent then s else s.sendEntry f scope p a b operand entry).waitFor (.atomics true))
          else s.once entry
          (fun t =>
            let (u, olds) := t.atHomes f scope p a b s.active operand
            (u.noteReleased scope f.bytes p, { entry with results := olds }))
          fun t e =>
            let t := (t.alongside p).writeBlock v f.back s.active e.laneResult
            let failed := isCas f.op && s.activeLanes.any fun l => e.laneResult l != operand l % 2 ^ (8 * f.bytes)
            let t := (if failed then t.markDemotes s.tseq else t).acquired goes
            (if scope.isSome then t else t.countAtomic).clearRelease.done)
        if scope.isSome then s.countAtomic.compareFirst ((if own.isSome then sigRecord first 0x41 [] else []) ++ s.takenRecord first) go else go)))

/-- A unit of 4 or 8 bytes by W, with the block and what returns. -/
def intForm (op : Nat) (w : BitVec 1) (returns : Bool) : AtomicForm :=
  let k := if w == 1 then 2 else 1
  { op := op, bytes := 4 * k, block := k, back := if returns then k else 0 }
def casForm (w : BitVec 1) : AtomicForm :=
  let k := if w == 1 then 2 else 1
  { op := 10, bytes := 4 * k, block := 2 * k, back := k }
def wordForm (op : Nat) (returns : Bool) : AtomicForm := { op := op, bytes := 4, block := 1, back := if returns then 1 else 0 }

/-- R279: the sum; the old value returns. -/
def execAtomAdd (_ : BitVec 3) (w : BitVec 1) (r : BitVec 3) (v a : BitVec 4) (b : BitVec 7) (st : State) : Out :=
  st.atomic (intForm 0 w true) r v.toNat a.toNat b.toNat
/-- R279: the difference; the old value returns. -/
def execAtomSub (_ : BitVec 3) (w : BitVec 1) (r : BitVec 3) (v a : BitVec 4) (b : BitVec 7) (st : State) : Out :=
  st.atomic (intForm 1 w true) r v.toNat a.toNat b.toNat
/-- R279: the lesser, signed; the old value returns. -/
def execAtomMin (_ : BitVec 3) (w : BitVec 1) (r : BitVec 3) (v a : BitVec 4) (b : BitVec 7) (st : State) : Out :=
  st.atomic (intForm 2 w true) r v.toNat a.toNat b.toNat
/-- R279: the greater, signed; the old value returns. -/
def execAtomMax (_ : BitVec 3) (w : BitVec 1) (r : BitVec 3) (v a : BitVec 4) (b : BitVec 7) (st : State) : Out :=
  st.atomic (intForm 3 w true) r v.toNat a.toNat b.toNat
/-- R279: the lesser, unsigned; the old value returns. -/
def execAtomMinn (_ : BitVec 3) (w : BitVec 1) (r : BitVec 3) (v a : BitVec 4) (b : BitVec 7) (st : State) : Out :=
  st.atomic (intForm 4 w true) r v.toNat a.toNat b.toNat
/-- R279: the greater, unsigned; the old value returns. -/
def execAtomMaxn (_ : BitVec 3) (w : BitVec 1) (r : BitVec 3) (v a : BitVec 4) (b : BitVec 7) (st : State) : Out :=
  st.atomic (intForm 5 w true) r v.toNat a.toNat b.toNat
/-- R279: and; the old value returns. -/
def execAtomAnd (_ : BitVec 3) (w : BitVec 1) (r : BitVec 3) (v a : BitVec 4) (b : BitVec 7) (st : State) : Out :=
  st.atomic (intForm 6 w true) r v.toNat a.toNat b.toNat
/-- R279: or; the old value returns. -/
def execAtomOr (_ : BitVec 3) (w : BitVec 1) (r : BitVec 3) (v a : BitVec 4) (b : BitVec 7) (st : State) : Out :=
  st.atomic (intForm 7 w true) r v.toNat a.toNat b.toNat
/-- R279: exclusive or; the old value returns. -/
def execAtomXor (_ : BitVec 3) (w : BitVec 1) (r : BitVec 3) (v a : BitVec 4) (b : BitVec 7) (st : State) : Out :=
  st.atomic (intForm 8 w true) r v.toNat a.toNat b.toNat
/-- R279: an exchange; the old value returns. -/
def execAtomExch (_ : BitVec 3) (w : BitVec 1) (r : BitVec 3) (v a : BitVec 4) (b : BitVec 7) (st : State) : Out :=
  st.atomic (intForm 9 w true) r v.toNat a.toNat b.toNat
/-- R280: compare and swap. -/
def execAtomCas (_ : BitVec 3) (w : BitVec 1) (r : BitVec 3) (v a : BitVec 4) (b : BitVec 7) (st : State) : Out :=
  st.atomic (casForm w) r v.toNat a.toNat b.toNat
/-- R281, R282: the f32 sum; the old word returns. -/
def execAtomfFaddF32 (_ : BitVec 3) (r : BitVec 3) (v a : BitVec 4) (b : BitVec 7) (st : State) : Out :=
  st.atomic (wordForm 11 true) r v.toNat a.toNat b.toNat
/-- R281, R282: the two bf16 sums; the old word returns. -/
def execAtomfFaddBf16x2 (_ : BitVec 3) (r : BitVec 3) (v a : BitVec 4) (b : BitVec 7) (st : State) : Out :=
  st.atomic (wordForm 12 true) r v.toNat a.toNat b.toNat
/-- R281, R282: the f32 minimum; the old word returns. -/
def execAtomfFminF32 (_ : BitVec 3) (r : BitVec 3) (v a : BitVec 4) (b : BitVec 7) (st : State) : Out :=
  st.atomic (wordForm 13 true) r v.toNat a.toNat b.toNat
/-- R281, R282: the f32 maximum; the old word returns. -/
def execAtomfFmaxF32 (_ : BitVec 3) (r : BitVec 3) (v a : BitVec 4) (b : BitVec 7) (st : State) : Out :=
  st.atomic (wordForm 14 true) r v.toNat a.toNat b.toNat
/-- R283: compare and swap of 16 bytes. -/
def execCas128 (_ : BitVec 3) (r : BitVec 3) (v a : BitVec 4) (b : BitVec 7) (st : State) : Out :=
  st.atomic { op := 15, bytes := 16, block := 8, back := 4 } r v.toNat a.toNat b.toNat
/-- R284: the sum; nothing returns. -/
def execRedAdd (_ : BitVec 3) (w : BitVec 1) (r : BitVec 3) (v a : BitVec 4) (b : BitVec 7) (st : State) : Out :=
  st.atomic (intForm 0 w false) r v.toNat a.toNat b.toNat
/-- R284: the difference; nothing returns. -/
def execRedSub (_ : BitVec 3) (w : BitVec 1) (r : BitVec 3) (v a : BitVec 4) (b : BitVec 7) (st : State) : Out :=
  st.atomic (intForm 1 w false) r v.toNat a.toNat b.toNat
/-- R284: the lesser, signed; nothing returns. -/
def execRedMin (_ : BitVec 3) (w : BitVec 1) (r : BitVec 3) (v a : BitVec 4) (b : BitVec 7) (st : State) : Out :=
  st.atomic (intForm 2 w false) r v.toNat a.toNat b.toNat
/-- R284: the greater, signed; nothing returns. -/
def execRedMax (_ : BitVec 3) (w : BitVec 1) (r : BitVec 3) (v a : BitVec 4) (b : BitVec 7) (st : State) : Out :=
  st.atomic (intForm 3 w false) r v.toNat a.toNat b.toNat
/-- R284: the lesser, unsigned; nothing returns. -/
def execRedMinn (_ : BitVec 3) (w : BitVec 1) (r : BitVec 3) (v a : BitVec 4) (b : BitVec 7) (st : State) : Out :=
  st.atomic (intForm 4 w false) r v.toNat a.toNat b.toNat
/-- R284: the greater, unsigned; nothing returns. -/
def execRedMaxn (_ : BitVec 3) (w : BitVec 1) (r : BitVec 3) (v a : BitVec 4) (b : BitVec 7) (st : State) : Out :=
  st.atomic (intForm 5 w false) r v.toNat a.toNat b.toNat
/-- R284: and; nothing returns. -/
def execRedAnd (_ : BitVec 3) (w : BitVec 1) (r : BitVec 3) (v a : BitVec 4) (b : BitVec 7) (st : State) : Out :=
  st.atomic (intForm 6 w false) r v.toNat a.toNat b.toNat
/-- R284: or; nothing returns. -/
def execRedOr (_ : BitVec 3) (w : BitVec 1) (r : BitVec 3) (v a : BitVec 4) (b : BitVec 7) (st : State) : Out :=
  st.atomic (intForm 7 w false) r v.toNat a.toNat b.toNat
/-- R284: exclusive or; nothing returns. -/
def execRedXor (_ : BitVec 3) (w : BitVec 1) (r : BitVec 3) (v a : BitVec 4) (b : BitVec 7) (st : State) : Out :=
  st.atomic (intForm 8 w false) r v.toNat a.toNat b.toNat
/-- R284: the f32 sum; nothing returns. -/
def execRedFaddF32 (_ : BitVec 3) (r : BitVec 3) (v a : BitVec 4) (b : BitVec 7) (st : State) : Out :=
  st.atomic (wordForm 11 false) r v.toNat a.toNat b.toNat
/-- R284: the two bf16 sums; nothing returns. -/
def execRedFaddBf16x2 (_ : BitVec 3) (r : BitVec 3) (v a : BitVec 4) (b : BitVec 7) (st : State) : Out :=
  st.atomic (wordForm 12 false) r v.toNat a.toNat b.toNat
/-- R284: the f32 minimum; nothing returns. -/
def execRedFminF32 (_ : BitVec 3) (r : BitVec 3) (v a : BitVec 4) (b : BitVec 7) (st : State) : Out :=
  st.atomic (wordForm 13 false) r v.toNat a.toNat b.toNat
/-- R284: the f32 maximum; nothing returns. -/
def execRedFmaxF32 (_ : BitVec 3) (r : BitVec 3) (v a : BitVec 4) (b : BitVec 7) (st : State) : Out :=
  st.atomic (wordForm 14 false) r v.toNat a.toNat b.toNat

end Sys2Proof.Machine
end

