-- ==== Sys2Proof/Machine/Shades.lean ====
section
/-! DEFINITION. M = 0x0D: the shade instructions as engine commands of copy 1 (R285 to R293), `shdr` (R294) and the paired
store (R234 to R236, R295 to R299). -/

namespace Sys2Proof.Machine

/-- Put a command into a context's queue: it takes the next number (R127, R238). It does not see what the commands write for
which the program has not waited, nor what later ones write (R240). -/
def State.enqueue (s : State) (ctx : Nat) (c : Cmd) : State :=
  let x := s.ctx ctx
  let n := x.issued + 1
  let held := match c.guard with
    | .pending _ => true
    | _ => false
  let upTo := (List.range 4).map fun k => if k = ctx then n.toNat else (s.ctx k).issued.toNat
  let c := { c with num := n.toNat, held := held, gid := s.gid, slot := s.slot, tseq := s.tseq, clock := s.regs.clock, order := s.time.cycle
                    blind := s.team.unwaited.map fun u => (u.ctx, u.num), upTo := upTo }
  let s := s.setTeam { s.team with unwaited := s.team.unwaited ++ [{ ctx := ctx, num := n.toNat }] }
  s.setCtx ctx { x with issued := n, queue := x.queue ++ [c] }

/-- The fields of a shade control word (R286). -/
def shadeCount (w : DWord) : Nat := (w.extractLsb' 0 32).toNat
def shadeType (w : DWord) : Nat := (w.extractLsb' 32 4).toNat
def shadeTc (w : DWord) : Bool := w.getLsbD 36
/-- Is the control word legal (R287)? -/
def shadeControl (w : DWord) : Bool :=
  w.extractLsb' 37 27 == 0 && (shadeTc w || shadeType w == 0) && decide (shadeType w ≤ 0xB) && decide (shadeCount w ≤ 2 ^ 24)

/-- A shade instruction (R285, R287): the tests at issue, then one command on copy 1. -/
def State.shadeCommand (s : State) (op : Instr) (d a : Nat) (ops : List DWord) (legal : Bool) : Out :=
  let at_ := s.rdG d
  let ctl := s.rdG a
  s.checked (!inScratchAperture at_ && shadeControl ctl && legal)
    (s.enqueue 1 { num := 0, op := op, gid := 0, slot := 0, ops := at_ :: ctl :: ops }).done

/-- The low and high words of a value. -/
def loWord (x : DWord) : Word := x.extractLsb' 0 32
def hiWord (x : DWord) : Word := x.extractLsb' 32 32

/-- R291: a fill. -/
def execSfil (s : BitVec 3) (d a b : BitVec 6) (st : State) : Out :=
  let v := st.rdG b.toNat
  st.shadeCommand (.sfil s d a b) d.toNat a.toNat [v] (hiWord v == 0)
/-- R291: a scale. -/
def execSscl (s : BitVec 3) (d a b : BitVec 6) (st : State) : Out :=
  let v := st.rdG b.toNat
  st.shadeCommand (.sscl s d a b) d.toNat a.toNat [v] (hiWord v == 0 && finite32 (loWord v))
/-- R291: an offset. -/
def execSoff (s : BitVec 3) (d a b : BitVec 6) (st : State) : Out :=
  let v := st.rdG b.toNat
  st.shadeCommand (.soff s d a b) d.toNat a.toNat [v] (hiWord v == 0 && finite32 (loWord v))
/-- Bounds without NaN and in order, −0 below +0 (R226, R291). -/
def boundsLegal (lo hi : Word) : Bool :=
  val32 lo != .nan && val32 hi != .nan && !lt32 hi lo
/-- R291: a clamp. -/
def execSclp (s : BitVec 3) (d a b : BitVec 6) (st : State) : Out :=
  let v := st.rdG b.toNat
  st.shadeCommand (.sclp s d a b) d.toNat a.toNat [v] (boundsLegal (loWord v) (hiWord v))
/-- R292: a permutation. -/
def execSpmt (s : BitVec 3) (d a b : BitVec 6) (st : State) : Out :=
  let p := st.rdG b.toNat
  let x := st.rdG (b.toNat + 1)
  let fields := (List.range 14).all fun k => decide ((p.extractLsb' (4 * k) 4).toNat < 14)
  st.shadeCommand (.spmt s d a b) d.toNat a.toNat [p, x] (p.extractLsb' 56 8 == 0 && x.extractLsb' 14 50 == 0 && fields)
/-- R293: materialise. -/
def execSmat (s : BitVec 3) (d a : BitVec 6) (st : State) : Out :=
  st.shadeCommand (.smat s d a) d.toNat a.toNat [] true

/-- R294: the header of a tile into four group registers; a torn one is read without a trap. -/
def execShdr (_ : BitVec 3) (d a : BitVec 6) (st : State) : Out :=
  let x := st.rdG a.toNat
  if inScratchAperture x then st.illegalOperand
  else match st.target x .read with
  | .error c => st.raise c (x.setWidth 56)
  | .ok (.scratch _ _) => st.illegalOperand
  | .ok (.memory leaf va _) =>
    match leaf.tile va with
    | none => st.illegalOperand
    | some t =>
      let h := st.header t.header
      let held := st.replicated && st.grp.repl.writes.any fun w => !w.engine && w.tiles.any fun u => u.mates.any fun v => v.header == t.header
      if held then st.compareForced else st.afterAtomics false
        (if h.lock then .next (st.waitFor (.lock t.header))
         else if st.poisoned (t.header / 128) then st.raise 0x09 (x.setWidth 56)
         else
           ((List.range 4).foldl (fun s i =>
             s.wrG (d.toNat + i) (BitVec.ofNat 64 (st.physRead (t.header + 8 * i) 8)) latVar) (st.refill va)).done)

/-- The commit of R234: both locks in the order of physical addresses, materialisation, both payloads, both releases. -/
def State.pairCommit (s : State) (tiles : List TileRef) (parts : List (Nat × Nat × Nat)) : State :=
  let ts := match tiles with
    | [a, b] => if a.header = b.header then [a] else if b.base < a.base then [b, a] else [a, b]
    | l => l
  let edit := fun (f : Header → Header) (s : State) =>
    ts.foldl (fun s t => s.putHeader t.header (f (s.header t.header)).bump) s
  let s := edit (fun h => { h with lock := true }) s
  let s := ts.foldl State.plainTile s
  let s := parts.foldl (fun s e => s.physWrite e.1 e.2.1 e.2.2) s
  edit (fun h => { h with lock := false }) s

/-- A pair that a hardware error interrupts (R236): locked, then torn, with the two tiles' addresses. DESIGN CHOICE (log 52): the error
strikes after the locks and before any materialisation or payload write of R234, so that both payloads are as before; R297 leaves the
moment open. -/
def State.pairTorn (s : State) (tiles : List TileRef) : State :=
  let ts := match tiles with
    | [a, b] => if a.header = b.header then [a] else if b.base < a.base then [b, a] else [a, b]
    | l => l
  let v1 := (ts.map TileRef.va).headD 0
  let v2 := (ts.map TileRef.va).getLastD 0
  let torn := fun (h : Header) => { h with
    a := BitVec.ofNat 32 v1, b := BitVec.ofNat 32 (v1 / 2 ^ 32), lo := BitVec.ofNat 32 v2, hi := BitVec.ofNat 32 (v2 / 2 ^ 32),
    kind := 3, lock := false }
  ts.foldl (fun s t =>
    let h := s.header t.header
    s.putHeader t.header (torn h).bump.bump) s

/-- Element (row, col) of the block that a `pst` reads from its data registers (R296). -/
def State.pairElement (s : State) (d w row col : Nat) : Nat :=
  let o := (8 * row + col) * w
  let l := o / 4 % 32
  if s.active.has l then (s.rdV (d + o / 128) l).toNat / 2 ^ (8 * (o % 4)) % 2 ^ (8 * w) else 0

/-- A block of a `pst` as its translation finds it (R298): a tile that holds all of it, of elements of w bytes. -/
def State.pairTile (s : State) (x : DWord) (last : Nat) (w : Nat) : Except Nat (Option (Nat × TileRef)) :=
  match s.target x .write, s.target (x + BitVec.ofNat 64 last) .write with
  | .error c, _ => .error c
  | .ok _, .error c => .error c
  | .ok (.memory leaf va pa), .ok _ =>
    match leaf.tile va with
    | none => .ok none
    | some t =>
      if (va + last) / 2 ^ (t.cls + 5) == va / 2 ^ (t.cls + 5) && tyBytes (s.header t.header).ty == w && (s.header t.header).ty != 7 then
        .ok (some (pa, t))
      else .ok none
  | .ok _, .ok _ => .ok none

/-- R295 to R299: the paired store; `torn` says that a hardware error interrupts its commit (R236). -/
def State.paired (st : State) (torn : Bool) (d : BitVec 7) (a b : BitVec 6) : Out :=
  let ga := st.rdG a.toNat
  let gb := st.rdG b.toNat
  let ctl := st.rdG (b.toNat + 1)
  let w := 2 ^ (ctl.extractLsb' 32 2).toNat
  let pp := (ctl.extractLsb' 0 16).toNat
  let tp := (ctl.extractLsb' 16 16).toNat
  if st.active = 0 then st.done
  else if (w == 4 && (d.toNat % 2 != 0 || decide (st.grid.kernel.regs ≤ d.toNat + 1))) || ctl.extractLsb' 34 30 != 0 ||
    w == 8 || pp % (8 * w) != 0 || tp % (8 * w) != 0 || inScratchAperture ga || inScratchAperture gb then st.illegalOperand
  else if !alignedTo (8 * w) ga then st.raise 0x05 (ga.setWidth 56)
  else if !alignedTo (8 * w) gb then st.raise 0x05 (gb.setWidth 56)
  else match st.pairTile ga (7 * pp + 8 * w - 1) w, st.pairTile gb (7 * tp + 8 * w - 1) w with
  | .error c, _ => st.raise c (ga.setWidth 56)
  | .ok _, .error c => st.raise c (gb.setWidth 56)
  | .ok (some (pa, ta)), .ok (some (pb, tb)) =>
    let rows := fun (x : DWord) (step : Nat) => (List.range 8).map fun r => x + BitVec.ofNat 64 (r * step)
    let p := st.places .write (rows ga pp ++ rows gb tp)
    let reached := placeLines p
    st.inTurn st.spl.rel.isSome (if st.atomicsOpen st.gid st.spl.rel.isSome then .next (st.waitFor (.atomics st.spl.rel.isSome))
    else if p.any fun e => st.needsForced e.2 (8 * w) true then st.compareForced
    else if st.holdsBack reached true st.spl.rel.isSome then .next (st.waitFor (st.heldWait reached))
    else match p.findSome? fun e => st.blocked e.2 (8 * w) true with
    | some x => .next (st.waitFor x)
    | none =>
      match p.findSome? fun e => st.dataFault (8 * w) .write e.1 e.2 with
      | some f => st.raiseAddr f
      | none =>
        st.afterDemands (if st.spl.rel.isSome then st.wicksOf reached else []) (
        let cells := (List.range 8).flatMap fun r => (List.range 8).map fun c => (r, c)
        let parts := cells.map (fun x => (pa + x.1 * pp + x.2 * w, w, st.pairElement d.toNat w x.1 x.2)) ++
          cells.map (fun x => (pb + x.2 * tp + x.1 * w, w, st.pairElement d.toNat w x.1 x.2))
        let record := sigRecord ga.toNat 5 (leBytes 8 gb.toNat ++ leBytes 8 ctl.toNat ++
          cells.flatMap fun x => leBytes w (st.pairElement d.toNat w x.1 x.2))
        let scope := st.releaseScope none
        let write := fun (s : State) =>
          let s := p.foldl (fun s e => s.forgetUnseen e.2.key (8 * w)) s
          if scope.isNone && reached.any (fun l => s.served l == .buffered) then
            parts.foldl (fun s e => s.bufferWrite s.groupIdx s.regs.clock.toNat e.1 e.2.1 e.2.2) s
          else if s.replicated && scope.isNone then
            s.setRepl { s.grp.repl with writes := s.grp.repl.writes ++ [{ parts := parts, tiles := [ta, tb], torn := torn }] }
          else if s.follows then s.giveUps p
          else
            let s := s.giveUps p
            let s := if torn then s.pairTorn [ta, tb] else s.pairCommit [ta, tb] parts
            parts.foldl (fun s e => s.unbuffer e.1 e.2.1) s
        let go := (((st.releasingHere scope p write).noteReleased scope (8 * w) p).clearRelease.sign (if scope.isSome then [] else record)).done
        if scope.isSome then st.compareFirst (record ++ sigRecord ga.toNat 0x42 []) (st.afterLeader go) else go))
  | .ok _, .ok _ => st.illegalOperand

/-- R295 to R299: the paired store. -/
def execPst (_ : BitVec 3) (d : BitVec 7) (a b : BitVec 6) (st : State) : Out := st.paired false d a b

end Sys2Proof.Machine
end

