-- ==== Sys2Proof/Machine/Matrix.lean ====
section
/-! DEFINITION. M = 0x0E, the matrix instructions (R124 to R126, R171 to R178, R251 to R257, R301 to R314): their tests and
places in the input queue at issue, and what the matrix engine does when it accepts them (R253). -/

namespace Sys2Proof.Machine

/-- The fields of a format word (R171). -/
def fmtA (w : Word) : Nat := (w.extractLsb' 0 4).toNat
def fmtB (w : Word) : Nat := (w.extractLsb' 4 4).toNat
def fmtCb (w : Word) : Nat := (w.extractLsb' 8 2).toNat
def fmtZ (w : Word) : Bool := w.getLsbD 10
def fmtScale (w : Word) : Nat := (w.extractLsb' 12 4).toNat

/-- The pairings of R172. -/
def formatLegal (w : Word) : Bool :=
  let a := fmtA w
  let b := fmtB w
  let sc := fmtScale w
  let f8 := fun (t : Nat) => t == 3 || t == 4
  let i8 := fun (t : Nat) => t == 5 || t == 6
  let f16 := fun (t : Nat) => t == 1 || t == 2
  w.extractLsb' 16 16 == 0 && !w.getLsbD 11 && (fmtCb w == 0 || b == 7) &&
  ((f8 a && f8 b && decide (sc ≤ 1)) || (i8 a && i8 b && sc == 0) || (f8 a && b == 7 && sc == 1) ||
   (f16 a && f16 b && sc == 0) || (a == 0 && b == 0 && sc == 0))

/-- Does the service level offer a format (R469)? In reduced service no 8-bit type and no vq2. -/
def State.formatOffered (s : State) (w : Word) : Bool :=
  s.host.svc.toNat % 8 != 1 || (!(decide (3 ≤ fmtA w) && decide (fmtA w ≤ 6)) && !(decide (3 ≤ fmtB w) && decide (fmtB w ≤ 7)))

/-- K of the operation (R172). -/
def formatK (w : Word) : Nat := if fmtA w == 0 then 4 else if fmtA w ≤ 2 then 16 else 32

/-- The fragment blocks of a format word: their alignment, and their end against `.regs` (R251). -/
def blocksLegal (w : Word) (a b regs : Nat) : Bool :=
  let la := fragmentLength (fmtA w)
  let lb := fragmentLength (fmtB w)
  a % la == 0 && b % lb == 0 && decide (a + la ≤ regs) && decide (b + lb + (if fmtScale w == 1 then 1 else 0) ≤ regs)

/-- The owner rule of a codebook slot (R314). -/
def State.bookLegal (s : State) (w : Word) : Bool :=
  fmtB w != 7 || (AMap.get {} s.core.books (fmtCb w)).loader == some (s.teamId, s.team.run)

/-- Put a command into the core's matrix queue (R113, R301). -/
def State.toMatrix (s : State) (c : MatrixCmd) : State :=
  let c := { c with gid := s.gid, slot := s.slot, gmode := s.mode, tseq := s.tseq, pc := s.spl.pc }
  s.setCore { s.core with matrix := s.core.matrix ++ [c] }

/-- The active lanes' words of k registers from a base, keyed 32 × register offset + lane. -/
def State.fragment (s : State) (base k : Nat) : AMap Word :=
  (List.range k).foldl (fun m i => s.activeLanes.foldl (fun m l => AMap.set m (32 * i + l) (s.rdV (base + i) l)) m) []

/-- R302 to R304: the format check of every active lane, the vote, then a place in the queue with all registers read. -/
def execMma (s c : BitVec 3) (f : BitVec 4) (a b : BitVec 7) (st : State) : Out :=
  let words := st.activeLanes.map fun l => st.rdV f.toNat l
  let w := words.headD 0
  st.vector (st.checked
    (words.all fun w => formatLegal w && st.formatOffered w && blocksLegal w a.toNat b.toNat st.grid.kernel.regs && st.bookLegal w)
    (if words.any (· != w) then st.raise 0x04
     else (st.toMatrix
      { op := .mma s c f a b, gid := 0, slot := 0, mask := st.active, gmode := 0, format := w,
        a := st.fragment a.toNat (fragmentLength (fmtA w)), b := st.fragment b.toNat (fragmentLength (fmtB w)),
        scale := if fmtScale w == 1 then st.fragment (b.toNat + fragmentLength (fmtB w)) 1 else [] }).done))

/-- R305: a place in the queue, with the factors of the active lanes. -/
def execMscale (s c : BitVec 3) (a : BitVec 7) (st : State) : Out :=
  st.vector (st.toMatrix { op := .mscale s c a, gid := 0, slot := 0, mask := st.active, gmode := 0, a := st.fragment a.toNat 1 }).done

/-- R306: a place in the queue, whatever the guard and the mask. -/
def execMzero (s c : BitVec 3) (st : State) : Out :=
  (st.toMatrix { op := .mzero s c, gid := 0, slot := 0, mask := st.spl.mask, gmode := 0 }).done
/-- R306: the same, and the block opens to peer adds at its acceptance. -/
def execMzeroOpen (s c : BitVec 3) (st : State) : Out :=
  (st.toMatrix { op := .mzeroOpen s c, gid := 0, slot := 0, mask := st.spl.mask, gmode := 0 }).done

/-- The scale and the clip that R178 accepts. -/
def drainOperands (s c : DWord) : Bool :=
  hiWord s == 0 && hiWord c == 0 && val32 (loWord c) != .nan && !c.getLsbD 31

/-- The seed of a drain's draws: g63 with the counter of the lowest active lane (R165). -/
def State.drainSeed (s : State) : DWord := zext 64 ((s.rdG 63).setWidth 32 ^^^ s.regs.getSc (s.activeLanes.headD 0))

/-- R307, R308: eight outstanding registers of the active lanes (log 14) and a place in the queue. -/
def execMdrain (s : BitVec 3) (d : BitVec 7) (t : BitVec 4) (c : BitVec 3) (b : BitVec 6) (st : State) : Out :=
  let sc := st.rdG b.toNat
  let cl := st.rdG (b.toNat + 1)
  st.vector (st.checked (drainOperands sc cl)
    ((((List.range 8).foldl (fun s i => s.mark (.v (d.toNat + i)) st.active latVar) st).toMatrix
      { op := .mdrain s d t c b, gid := 0, slot := 0, mask := st.active, gmode := 0, ops := [sc, cl, st.drainSeed] }).bumpCounters
        true st.active).done)

/-- The fields of an engine control word (R317). -/
def ctlOp (x : DWord) : Nat := (x.extractLsb' 60 4).toNat
def ctlReg (x : DWord) : Bool := x.getLsbD 59
def ctlDcnt (x : DWord) : Nat := (x.extractLsb' 56 3).toNat
def ctlBar (x : DWord) : Nat := (x.extractLsb' 52 4).toNat
def ctlNtf (x : DWord) : Bool := x.getLsbD 51
def ctlWlog (x : DWord) : Nat := (x.extractLsb' 48 3).toNat
def ctlLen (x : DWord) : Nat := (x.extractLsb' 0 48).toNat

/-- Is an address in a scratch aperture but not in populated scratch (row 7 of R106 for an operand address)? -/
def State.beyondScratch (s : State) (x : DWord) : Bool :=
  match s.aperture x with
  | .outside => true
  | _ => false

/-- R309, R310: a place in the queue and a number on the drain context. -/
def execMdrs (s : BitVec 3) (d : BitVec 6) (t : BitVec 4) (c : BitVec 3) (st : State) : Out :=
  let dst := st.rdG d.toNat
  let ctl := st.rdG (d.toNat + 1)
  let sc := st.rdG (d.toNat + 2)
  let cl := st.rdG (d.toNat + 3)
  let w := tyBytes t.toNat
  let pitch := ctlLen ctl
  if !(ctlOp ctl == 0 && !ctlReg ctl && ctlDcnt ctl == 0 && ctlWlog ctl == 0 && drainOperands sc cl &&
    decide (8 * w ≤ pitch) && decide (pitch < 2 ^ 32)) then st.illegalOperand
  else if !alignedTo (8 * w) dst || pitch % (8 * w) != 0 then st.raise 0x05 (dst.setWidth 56)
  else if st.beyondScratch dst then st.raise 0x06 (dst.setWidth 56)
  else
    let n := (st.ctx 2).issued + 1
    let op : Instr := .mdrs s d t c
    ((((st.enqueue 2 { num := 0, op := op, gid := 0, slot := 0, mask := st.active, ops := [dst, ctl], waits := true })).toMatrix
      { op := op, gid := 0, slot := 0, mask := st.active, gmode := 0, ops := [sc, cl, st.drainSeed], num := n.toNat }).bumpCounters
        true st.active).done

/-- The target of `mdrp` (R311). -/
def peerClu (x : DWord) : Nat := (x.extractLsb' 0 32).toNat
def peerPos (x : DWord) : Nat := (x.extractLsb' 32 4).toNat
def peerGrp (x : DWord) : Nat := (x.extractLsb' 36 5).toNat
def peerNtf (x : DWord) : Bool := x.getLsbD 41
def peerBar (x : DWord) : Nat := (x.extractLsb' 42 4).toNat

/-- The number of clusters of a grid. -/
def Launch.clusters (l : Launch) : Nat := l.dims.1 * l.dims.2.1 * l.dims.2.2

/-- R312: a place in the queue and a number on the drain context. -/
def execMdrp (s : BitVec 3) (d : BitVec 6) (c : BitVec 3) (st : State) : Out :=
  let x := st.rdG d.toNat
  let l := st.grid.launch
  st.checked (x.extractLsb' 46 18 == 0 && decide (peerClu x < l.clusters) && decide (peerPos x < l.width * l.height))
    (st.inTurn true (st.afterLeader
      (let n := (st.ctx 2).issued + 1
       let op : Instr := .mdrp s d c
       ((st.enqueue 2 { num := 0, op := op, gid := 0, slot := 0, mask := st.active, ops := [x], waits := true }).toMatrix
         { op := op, gid := 0, slot := 0, mask := st.active, gmode := 0, num := n.toNat }).done)))

/-- The 1,024 bytes of a codebook from eight lines. -/
def bookBytes (l : List Nat) : Store 8 :=
  (List.range 1024).foldl (fun m k => Store.set m k (BitVec.ofNat 8 (l.getD (k / 128) 0 >>> (8 * (k % 128))))) []

/-- R313, R314: the table is read now and takes its slot when the engine accepts it; the loader is known from the issue. -/
def execMcbk (s : BitVec 3) (n : BitVec 2) (a b : BitVec 6) (st : State) : Out :=
  let x := st.groupAddr a.toNat b.toNat
  let l := (List.range 8).map fun k => x + BitVec.ofNat 64 (128 * k)
  st.access 128 .read anyTarget false false l fun p =>
    st.withRoom (st.lineKeep 128 p) (
    let t := st.prepareAll 128 p
    let data := l.map fun y => t.loaded (st.placeOf .read y) 128
    let t := t.toMatrix { op := .mcbk s n a b, gid := 0, slot := 0, mask := 0, gmode := 0, books := [(n.toNat, { bytes := bookBytes data })] }
    let c := t.core
    let book := AMap.get {} c.books n.toNat
    (t.setCore { c with books := AMap.set c.books n.toNat { book with loader := some (st.teamId, st.team.run) } }).done)

/-- Weight i of a vq2 index through a codebook (R173, R174), in eighths. -/
def vq2Weight (book : Store 8) (index i : Nat) : Fl :=
  let row := index / 256
  let sign := if i < 7 then index.testBit (i + 1) else
    (List.range 7).foldl (fun b k => b != index.testBit (k + 1)) false
  let nibble := (Store.get book (4 * row + i / 2)).toNat / 16 ^ (i % 2) % 16
  .fin sign (2 * nibble + index % 2) (-3)

/-- Element k of a fragment in a lane (R251), as an exact value. -/
def fragmentValue (ty : Nat) (ftz : Bool) (book : Store 8) (m : AMap Word) (l k : Nat) : Fl :=
  let word := fun (r : Nat) => (AMap.get 0 m (32 * r + l)).toNat
  match tyOf ty with
  | some (.float f) =>
    if f.width == 32 then f.input ftz (word k)
    else if f.width == 16 then f.input ftz (word (k / 2) / 2 ^ (16 * (k % 2)) % 2 ^ 16)
    else f.input ftz (word (k / 4) / 2 ^ (8 * (k % 4)) % 2 ^ 8)
  | some (.int t) =>
    let x := t.value (word (k / 4) / 2 ^ (8 * (k % 4)) % 2 ^ 8)
    .fin (decide (x < 0)) x.natAbs 0
  | _ => vq2Weight book (word (k / 16) / 2 ^ (16 * (k / 8 % 2)) % 2 ^ 16) (k % 8)

/-- A product of two fragment elements; a zero of integers has no sign. -/
def fragmentProduct (ty : Nat) (x y : Fl) : Fl :=
  match Fl.mul x y, tyOf ty with
  | .fin s m e, some (.int _) => .fin (s && m != 0) m e
  | z, _ => z

/-- One element of the step of R176: c plus K products, rounded once. -/
def mmaElement (c : MatrixCmd) (book : Store 8) (acc : Word) (row bLane : Nat) : Word :=
  let ftz := modeFtz c.gmode
  let start : Fl := if fmtZ c.format then .fin false 0 0 else Fmt.f32.input ftz acc.toNat
  let scale : Fl :=
    if fmtScale c.format == 1 then Fmt.e4m3.input ftz ((AMap.get 0 c.scale bLane).toNat % 256) else .fin false 1 0
  let terms := (List.range (formatK c.format)).map fun k =>
    Fl.mul (fragmentProduct (fmtA c.format) (fragmentValue (fmtA c.format) ftz book c.a row k)
      (fragmentValue (fmtB c.format) ftz book c.b bLane k)) scale
  BitVec.ofNat 32 (Fmt.f32.roundTo { ftz := ftz } (Fl.sum (start :: terms)))

/-- Note a non-finite result of a queued command (R170, R303). -/
def State.queuedNonFinite (s : State) (c : MatrixCmd) (bad : Bool) : State :=
  if bad && modeNft c.gmode then
    if s.replicated then
      (if s.grp.repl.nft.isSome then s else s.setRepl { s.grp.repl with nft := some (c.pc, c.tseq) })
    else if s.grp.nft.isSome then s else s.setGrp { s.grp with nft := some (c.pc, c.tseq) }
  else s

/-- Change elements of an accumulator block in the rows of a mask; naming the block closes it (R254). -/
def State.editAcc (s : State) (c : MatrixCmd) (blk : Nat) (mask : Mask) (f : Nat → Nat → Word → Word) : State :=
  let old := s.regs
  let r := (lanes.filter mask.has).foldl (fun r row =>
    (List.range 8).foldl (fun r col => r.setAcc blk row col (f row col (old.getAcc blk row col))) r) old
  let r := { r with openAcc := r.openAcc &&& ~~~(1#8 <<< blk) }
  let bad := (lanes.filter mask.has).any fun row => (List.range 8).any fun col => Fmt.f32.nonFinite (r.getAcc blk row col).toNat
  (s.setRegs r).queuedNonFinite c bad

/-- Close a block to peer adds (R254). -/
def State.closeAcc (s : State) (blk : Nat) : State :=
  s.setRegs { s.regs with openAcc := s.regs.openAcc &&& ~~~(1#8 <<< blk) }

/-- The drain of one element (R178): scaled exactly, clipped, rounded once into the target. -/
def drainElement (ty : Nat) (gmode seed : Word) (sc cl x : Word) (row col : Nat) : Nat :=
  let ftz := modeFtz gmode
  let y := Fl.clamp (Fl.mul (Fmt.f32.input ftz x.toNat) (val32 sc)) (val32 cl).neg (val32 cl)
  let r : Rounding := { rnd := if modeRnd gmode == 5 then 5 else 0, sat := modeSat gmode, ftz := ftz, draw := (vmix (BitVec.ofNat 32 (row + 32 * col)) seed).toNat }
  match tyOf ty with
  | some (.float f) => f.roundTo r y
  | some (.int t) =>
    match roundInt r y with
    | none => 0
    | some (.error neg) => ((if neg then t.low else t.high) % 2 ^ t.width).toNat
    | some (.ok n) => (max t.low (min t.high n) % 2 ^ t.width).toNat
  | _ => 0

/-- All eight columns of the rows of a mask, drained, row after row. -/
def State.drained (s : State) (c : MatrixCmd) (ty blk : Nat) : List (Nat × List Nat) :=
  let op := fun (i : Nat) => loWord (c.ops.getD i 0)
  (lanes.filter c.mask.has).map fun row => (row, (List.range 8).map fun col =>
    drainElement ty c.gmode (op 2) (op 0) (op 1) (s.regs.getAcc blk row col) row col)

/-- Is some drained element non-finite? -/
def drainedBad (ty : Nat) (rows : List (Nat × List Nat)) : Bool :=
  match tyOf ty with
  | some t => rows.any fun r => r.2.any fun x => t.nonFinite x
  | none => false

/-- The drain command that a matrix command belongs to gets its data and may start. -/
def State.giveDrain (s : State) (num : Nat) (data : List Word) : State :=
  let x := s.ctx 2
  s.setCtx 2 { x with queue := x.queue.map fun c => if c.num == num then { c with data := data, waits := false } else c }

/-- What the engine does when it accepts a command (R176, R177, R253, R305 to R314). -/
def State.accept (s : State) (c : MatrixCmd) : State :=
  match c.op with
  | .mma _ n _ _ _ =>
    let book := (AMap.get {} s.core.books (fmtCb c.format)).bytes
    s.editAcc c n.toNat c.mask fun row col acc =>
      mmaElement c book acc row (8 * modeBsel c.gmode (row / 8) + col)
  | .mscale _ n _ =>
    let ftz := modeFtz c.gmode
    s.editAcc c n.toNat c.mask fun row _ acc =>
      BitVec.ofNat 32 (Fmt.f32.roundTo { ftz := ftz }
        (Fl.mul (Fmt.f32.input ftz acc.toNat) (Fmt.f32.input ftz (AMap.get 0 c.a row).toNat)))
  | .mzero _ n => s.editAcc { c with gmode := 0 } n.toNat 0xFFFFFFFF fun _ _ _ => 0
  | .mzeroOpen _ n =>
    let s := s.editAcc { c with gmode := 0 } n.toNat 0xFFFFFFFF fun _ _ _ => 0
    s.setRegs { s.regs with openAcc := s.regs.openAcc ||| (1#8 <<< n.toNat) }
  | .mdrain _ d t n _ =>
    let rows := s.drained c t.toNat n.toNat
    let s := s.closeAcc n.toNat
    let r := (List.range 8).foldl (fun r j =>
      r.setLanes (d.toNat + j) c.mask fun l => BitVec.ofNat 32 (((rows.find? fun e => e.1 == l).map (·.2.getD j 0)).getD 0)) s.regs
    (s.setRegs r).queuedNonFinite c (drainedBad t.toNat rows)
  | .mdrs _ _ t n =>
    let rows := s.drained c t.toNat n.toNat
    let s := (s.closeAcc n.toNat).giveDrain c.num (rows.flatMap fun e => e.2.map fun x => BitVec.ofNat 32 x)
    s.queuedNonFinite c (drainedBad t.toNat rows)
  | .mdrp _ _ n =>
    let data := (lanes.filter c.mask.has).flatMap fun row => (List.range 8).map fun col => s.regs.getAcc n.toNat row col
    (s.closeAcc n.toNat).giveDrain c.num data
  | .mcbk _ n _ _ =>
    let core := s.core
    let old := AMap.get {} core.books n.toNat
    s.setCore { core with books := AMap.set core.books n.toNat { old with bytes := (AMap.get {} c.books n.toNat).bytes } }
  | _ => s

/-- MATRIX_ENGINE_ACCEPT (R253, R126): the next command of a core's queue is accepted and applied. -/
def execMatrixEngineAccept (core : Nat) (s : State) : Out :=
  match (s.coreAt core).matrix with
  | [] => .fault .notEnabled
  | c :: rest =>
    let gid := s.gid
    let slot := s.slot
    let s := s.setCoreAt core { s.coreAt core with matrix := rest }
    .next (((s.at_ c.gid c.slot).accept c).at_ gid slot)

end Sys2Proof.Machine
end

