-- ==== Sys2Proof/Machine/Barriers.lean ====
section
/-! DEFINITION. Barriers (R258, R259, R354, R407 to R411, R454): members, arrivals, phases, settings, and what the end of a
group does to them. A member is a split slot at group level and a group at every other level. -/

namespace Sys2Proof.Machine

/-- The members of a barrier of the executing group (R354, R411). -/
def State.members (s : State) (level : Nat) : List Nat :=
  match level with
  | 0 => slots.filter fun k => (s.splitAt k).live
  | 1 => s.groupsOf s.teamId
  | 2 => (s.teamsOf s.clusterId).flatMap s.groupsOf
  | _ => (s.gridGroups s.gridId).filter fun g => s.replicaOf g == s.cluster.replica

/-- Test a barrier of the executing group again (R407). Of a deterministic grid, the clocks of the groups that are released
move past the releasing group's (R392). -/
def State.testBarrier (s : State) (level num : Nat) : State :=
  let b := s.barrier level num
  let m := s.members level
  let c := (Barrier.settle (b.next.length + 2) m b).retarget
  if c.phase == b.phase then s
  else
    let groups := if level = 0 then [s.gid] else m
    let t := s.setBarrier level num c
    t.releaseClocks s.regs.clock fun g k x => groups.contains g && match x.wait with
      | some (.barrier l n p own) => l == level && n == num && c.passed ((t.at_ g k).phaseOf level num p own)
      | _ => false

/-- The scope of a level's arrivals and waits (R354). -/
def barrierScope (level : Nat) : Nat := level

/-- An arrival at a cluster or grid barrier of a deterministic grid, which other teams acquire after the serial phase (R394). -/
def State.noteArrival (s : State) (level num : Nat) (phase : Word) : State :=
  if s.deterministic && decide (2 ≤ level) then
    s.setGrid { s.grid with det := { s.grid.det with arrived :=
      { level := level, place := s.arrivalPlace level, num := num, phase := phase, team := s.teamIndex } :: s.grid.det.arrived } }
  else s
/-- An arrival of the executing split or group (R408): its release, its target phase, and the test of the phase. -/
def State.arriveBarrier (s : State) (level num : Nat) : State :=
  let s := if 2 ≤ level && !s.follows then s.writeBackDirty s.coreId else s
  let m := if level = 0 then s.slot else s.gid
  let k := s.role.toNat
  let b := s.barrier level num
  let t := b.target (some m) k
  let b := { b.arriveOne (some m) k with targets := AMap.set b.targets m t }
  ((s.noteArrival level num t).setBarrier level num b).testBarrier level num

/-- Would an arrival have no counter, in the setting in effect and in the pending one (R408)? -/
def Barrier.uncounted (b : Barrier) (k : Nat) : Bool :=
  b.count && counter b.expected k == 0 &&
    match b.pending with
    | some x => !settingOff x && counter x k == 0
    | none => true

/-- What the levels forbid (R406, R441): a grid barrier of a grid that is not co-resident, a group barrier in a handler. -/
def State.barrierLegal (s : State) (level : Nat) : Bool :=
  !(level == 3 && !s.grid.launch.coresident) && !(level == 0 && s.handlerMode)

/-- Has a barrier a waiter in its current phase (R410)? -/
def State.hasWaiter (s : State) (level num : Nat) : Bool :=
  let p := (s.barrier level num).phase
  (if level = 0 then [s.gid] else s.members level).any fun g =>
    (AMap.get {} s.groups g).ctx.splits.any fun e => e.2.live && match e.2.wait with
      | some (.barrier l n q own) => l == level && n == num && (s.at_ g e.1).phaseOf level num q own == p
      | _ => false

/-- One engine arrival at a team barrier (R258, R318, R411): in membership mode it ends the grid. DESIGN CHOICE (log 52): where the
engines' expected count is 0 it is held for a later phase, since no instruction is there to take the trap of R408. -/
def State.engineArrival (s : State) (num : Nat) : State :=
  let b := s.barrier 1 num
  if b.count then (s.setBarrier 1 num (b.arriveOne none 4)).testBarrier 1 num
  else s.failGrid s.gridId 0x02 0 0 0

/-- The numbers of the barriers of each level (R15). -/
def barriersOf (level : Nat) : List Nat := List.range (if level = 0 then 1 else if level = 1 then 16 else if level = 2 then 8 else 4)

/-- A member leaves every barrier of the levels named, which are tested again (R354, R407). -/
def State.leaveBarriers (s : State) (member : Nat) (levels : List Nat) : State :=
  levels.foldl (fun s level =>
    (barriersOf level).foldl (fun s num =>
      let b := s.barrier level num
      let c := { b with
        arrived := (if b.count then b.arrived else b.arrived.filter (· != member))
        next := (if b.count then b.next else b.next.filter fun e => e.1 != some member)
        targets := AMap.drop b.targets member
        joining := b.joining.filter (· != member) }
      (if b == c then s else s.setBarrier level num c).testBarrier level num) s) s

/-- A group started from a bin joins at the next phase (R354). -/
def State.joinBarriers (s : State) : State :=
  let levels := if s.grid.launch.coresident then [1, 2, 3] else [1, 2]
  levels.foldl (fun s level =>
    (barriersOf level).foldl (fun s num =>
      let b := s.barrier level num
      s.setBarrier level num { b with joining := b.joining ++ [s.gid] }) s) s

end Sys2Proof.Machine
end

