-- ==== Sys2Proof/Machine/Checkpoints.lean ====
section
/-! DEFINITION. The bytes of a group record (R447) and of an atomic log (R388), and the checkpoint area of a replica (R383). -/

namespace Sys2Proof.Machine

/-- Zeros. -/
def zeros (n : Nat) : List Byte := List.replicate n 0
/-- Bytes padded to a length. -/
def padTo (n : Nat) (l : List Byte) : List Byte := l ++ zeros (n - l.length)

/-- How a target phase is coded (R447). -/
def targetCode (b : Barrier) (m : Nat) : Nat :=
  if !AMap.has b.targets m then 0
  else
    let t := AMap.get 0 b.targets m
    if t == b.phase then 1 else if t == b.phase + 1 then 2 else 3
/-- Two bits for each member. -/
def targetBits (b : Barrier) (members : List Nat) : Nat := members.foldr (fun m x => x * 4 + targetCode b m) 0

/-- A split record; the stack from the outermost entry. -/
def splitBytes (x : Split) : List Byte :=
  if !x.live then zeros 704
  else
    let flags := (if x.rpc.isSome then 1 else 0) + (if x.demo.released.isSome then 2 else 0) +
      (if x.sched.stopped.isSome then 4 else 0) + (if x.sched.parked then 8 else 0)
    leBytes 8 x.pc.toNat ++ leBytes 4 x.mask.toNat ++ leBytes 1 x.stack.length ++ leBytes 1 x.chain.length ++ leBytes 1 flags ++
    leBytes 1 (match x.rel with | some r => r + 1 | none => 0) ++ leBytes 8 (x.rpc.getD 0).toNat ++
    padTo 32 (x.chain.flatMap fun a => leBytes 8 a.toNat) ++ leBytes 2 x.dist ++
    leBytes 2 (if x.sched.parked then 0xFFFF else x.sched.stopped.getD 0) ++ leBytes 1 x.demo.set.toNat ++ zeros 3 ++
    padTo 640 (x.stack.reverse.flatMap fun e => leBytes 8 e.pc.toNat ++ leBytes 8 e.stop.toNat ++ leBytes 4 e.mask.toNat)

/-- Vector registers and accumulator blocks of masks as the record's data (R447). -/
def Regs.dataBytes (r : Regs) (v : BitVec 128) (a : BitVec 8) : List Byte :=
  (((List.range 128).filter v.getLsbD).flatMap fun n => lanes.flatMap fun l => leBytes 4 (r.getV n l).toNat) ++
  (((List.range 8).filter a.getLsbD).flatMap fun n => (List.range 32).flatMap fun row =>
    (List.range 8).flatMap fun col => leBytes 4 (r.getAcc n row col).toNat)
/-- The record of a group's context with the registers and blocks of masks (R447). -/
def Context.bytes (c : Context) (v : BitVec 128) (a : BitVec 8) : List Byte :=
  let r := c.regs
  let split := fun k => (AMap.get {} c.splits k : Split)
  leBytes 4 r.gmode.toNat ++ leBytes 1 r.role.toNat ++ leBytes 1 (r.q.toNat / 2 * 2) ++
  leBytes 1 (slots.foldr (fun k x => x * 2 + if (split k).live then 1 else 0) 0) ++ zeros 1 ++
  leBytes 4 r.tseq.toNat ++ zeros 4 ++ leBytes 8 r.clock.toNat ++ leBytes 4 c.bar.phase.toNat ++
  leBytes 1 (targetBits c.bar slots) ++
  zeros 3 ++ ((List.range 7).flatMap fun k => leBytes 4 (r.getP (k + 1)).toNat) ++ zeros 4 ++
  (lanes.flatMap fun l => leBytes 4 (r.getSc l).toNat) ++ ((List.range 64).flatMap fun k => leBytes 8 (r.getG k).toNat) ++
  leBytes 16 v.toNat ++ leBytes 1 a.toNat ++ leBytes 1 r.openAcc.toNat ++ zeros 46 ++
  (slots.flatMap fun k => splitBytes (split k)) ++ r.dataBytes v a

/-- An entry of an atomic log (R388). -/
def LogEntry.bytes (e : LogEntry) : List Byte :=
  leBytes 4 e.word.toNat ++ leBytes 4 e.mask.toNat ++ leBytes 8 e.number ++ padTo 80 (e.ops.flatMap fun x => leBytes 8 x.toNat) ++
  leBytes 8 e.result.toNat ++ zeros 24 ++
  lanes.flatMap fun l => leBytes 8 (e.addrs.getD l 0) ++ leBytes 32 (e.operands.getD l 0).toNat ++
    leBytes 16 (e.results.getD l 0).toNat ++ zeros 8
/-- An atomic log, whose checkpoint names the rendezvous of a number (R388). -/
def logBytes (l : List LogEntry) (number : Nat) : List Byte :=
  leBytes 4 l.length ++ zeros 4 ++ leBytes 8 number ++ zeros 112 ++ l.flatMap LogEntry.bytes

/-- Bytes of the largest checkpoint: the record with every register and block, and a full log. -/
def checkpointBytes : Nat := 3584 + 128 * 128 + 8 * 1024 + 128 + 64 * 2176
/-- The checkpoint area of a group (R383): in the memory of its die, at a place that firmware chooses. -/
def checkpointBase (gid core : Nat) : Nat :=
  core / 72 * Config.dieBytes + Config.checkpointArea gid % ((Config.dieBytes - checkpointBytes) / 128 + 1) * 128
/-- The executing group's checkpoint is written into its area, in replica mode (R383, R388). -/
def State.keepCheckpoint (s : State) : State :=
  match s.replicated, s.grp.repl.check with
  | true, some c =>
    s.physWriteRun (checkpointBase s.gid s.coreId)
      (c.ctx.bytes (BitVec.ofNat 128 (2 ^ s.grid.kernel.regs - 1)) 0xFF ++ logBytes s.grp.repl.log (c.number + 1))
  | _, _ => s
/-- The first checkpoints of groups that start (R383). -/
def State.keepFirst (s : State) (l : List Nat) : State :=
  l.foldl (fun s g => ((s.at_ g 0).keepCheckpoint).at_ s.gid s.slot) s

end Sys2Proof.Machine
end

