-- ==== Sys2Proof/Machine/Bins.lean ====
section
/-! DEFINITION. Groups at their start (R18, R20, R372, R383) and bins (R68 to R73): placing threads, starting a bin's group,
its timer, and the `spawn` that waits. -/

namespace Sys2Proof.Machine

/-- Is a cluster on its cores? -/
def State.onCores (s : State) (c : Nat) : Bool := (s.clusterAt c).act == .active
/-- The active groups of a core, and the groups that it keeps parked (R59). -/
def State.activeGroups (s : State) (core : Nat) : Nat :=
  (s.groups.filter fun e => e.2.live && e.2.place.core == core && s.onCores (e.1 / 384)).length
def State.parkedGroups (s : State) (core : Nat) : Nat :=
  (s.groups.filter fun e => e.2.live && e.2.place.core == core && (s.clusterAt (e.1 / 384)).act == .parked).length

/-- A group as it starts (R18, R20): one split at the entry, the lanes that have a thread, the arguments of a bin's threads
in v0 to v3. In replica mode this state is its first checkpoint (R383). -/
def newGroup (core : Nat) (entry : Addr) (threads : Mask) (g : List DWord) (args : List (BitVec 128)) : Group :=
  let regs : Regs := {}
  let regs := (List.range g.length).foldl (fun r k => if g.getD k 0 == 0 then r else r.setG k (g.getD k 0)) regs
  let regs := (List.range args.length).foldl (fun r l =>
    (List.range 4).foldl (fun r k => r.setV k l ((args.getD l 0).extractLsb' (32 * k) 32)) r) regs
  let ctx : Context := { regs := regs, splits := [(0, { live := true, pc := entry, mask := threads })] }
  { live := true, ctx := ctx, place := { core := core, threads := threads, entry := entry },
    repl := { check := some { ctx := ctx } } }

/-- A bin of a core. -/
def State.bin (s : State) (core k : Nat) : Bin := AMap.get {} (s.coreAt core).bins k
def State.setBin (s : State) (core k : Nat) (b : Bin) : State :=
  let c := s.coreAt core
  s.setCoreAt core { c with bins := AMap.set c.bins k b }
/-- The bins of a core. -/
def binNums : List Nat := List.range 8

/-- Can a bin's group start at once (R69)? -/
def State.canStart (s : State) (core : Nat) (b : Bin) : Bool :=
  !b.threads.isEmpty && s.onCores (b.team / 12) && decide ((s.groupsOf b.team).length < 32) &&
    decide (s.activeGroups core < 32)

/-- The lowest free group index of a team. -/
def State.freeIndexOf (s : State) (team : Nat) : Nat :=
  ((List.range 32).find? fun k => !(AMap.get {} s.groups (32 * team + k)).live).getD 0

/-- Start a bin's group (R69, R20): it joins its barriers at the next phase, and the bin empties. Its logical clock starts at 0
(R417); of a replicated team replica 0 leads it (R372). -/
def State.startBin (s : State) (core k : Nat) : State :=
  let b := s.bin core k
  let gid := 32 * b.team + s.freeIndexOf b.team
  let mask := BitVec.ofNat 32 (2 ^ b.threads.length - 1)
  let s := { s with groups := AMap.set s.groups gid (newGroup core b.entry mask b.g b.threads) }
  let old := (s.gid, s.slot)
  let s := (s.at_ gid 0).joinBarriers.keepCheckpoint
  (s.setBin core k {}).at_ old.1 old.2

/-- The bin's group starts, or its threads wait until it can (R69). -/
def State.startOrWait (s : State) (core k : Nat) : State :=
  let b := s.bin core k
  if b.threads.isEmpty then s
  else if s.canStart core b then s.startBin core k else s.setBin core k { b with due := true }

/-- The bin among some that holds the oldest first thread. -/
def State.oldestBin (s : State) (core : Nat) : List Nat → Option Nat
  | [] => none
  | k :: r =>
    match s.oldestBin core r with
    | none => some k
    | some j => if (s.bin core k).order ≤ (s.bin core j).order then some k else some j

/-- The place of R68: a bin of the key with room, else an empty bin (DESIGN CHOICE, log 52: the one with the lowest number), else one that is emptied by starting its group; none
when the spawn waits (R70). -/
def State.findBin (s : State) (core team : Nat) (entry : Addr) : Option (Nat × State) :=
  match binNums.find? fun k =>
      let b := s.bin core k
      !b.threads.isEmpty && b.team == team && b.entry == entry && decide (b.threads.length < 32) with
  | some k => some (k, s)
  | none =>
    match binNums.find? fun k => (s.bin core k).threads.isEmpty with
    | some k => some (k, s)
    | none =>
      match s.oldestBin core (binNums.filter fun k => s.canStart core (s.bin core k)) with
      | some k => some (k, s.startBin core k)
      | none => none

/-- Place one thread (R68): the first of a bin gives it its key, its timer and the group registers that the `spawn` read (R20,
R71). -/
def State.placeThread (s : State) (entry : Addr) (g : List DWord) (args : BitVec 128) : Option State :=
  let core := s.coreId
  match s.findBin core s.teamId entry with
  | none => none
  | some (k, s) =>
    let b := s.bin core k
    let b := if b.threads.isEmpty then
        { team := s.teamId, entry := entry, threads := [], timer := s.cp.binTimer, g := g,
          order := 1 + (binNums.map fun j => (s.bin core j).order).foldl max 0 : Bin }
      else b
    let b := { b with threads := b.threads ++ [args] }
    let s := s.setBin core k b
    some (if b.threads.length = 32 then s.startOrWait core k else s)

/-- Place threads in order, and what is left when one must wait (R70). -/
def State.placeThreads (entry : Addr) (g : List DWord) : List (BitVec 128) → State → State × List (BitVec 128)
  | [], s => (s, [])
  | a :: r, s =>
    match s.placeThread entry g a with
    | some t => State.placeThreads entry g r t
    | none => (s, a :: r)

/-- The bins of a core that hold threads of a team start their groups (R72, R151). DESIGN CHOICE (log 52): in the order of the bin
numbers, which fixes the group indices that they take and which of them wait. -/
def State.flushTeam (s : State) (core team : Nat) : State :=
  binNums.foldl (fun s k => if (s.bin core k).team == team then s.startOrWait core k else s) s

/-- Are the timers of a team's bins stopped (R71, R444)? -/
def State.timersStopped (s : State) (team : Nat) : Bool :=
  let l := (s.gridAt (s.clusterAt (team / 12)).grid).launch
  decide (0 < l.replicas) || l.det || !s.onCores (team / 12)

/-- One cycle of every running bin timer (R71). -/
def State.tickBins (s : State) : State :=
  { s with cores := AMap.mapVals (fun _ c => { c with bins := AMap.mapVals (fun _ b =>
      if b.threads.isEmpty || b.timer == 0 || s.timersStopped b.team then b else { b with timer := b.timer - 1 }) c.bins }) s.cores }

/-- BIN_TIMER_EXPIRY (R71): a timer at 0 starts the bin's group, or leaves it to start when it can. -/
def execBinTimerExpiry (core bin : Nat) (s : State) : Out :=
  let b := s.bin core bin
  if !b.threads.isEmpty && b.timer == 0 && !b.due && !s.timersStopped b.team then .next (s.startOrWait core bin)
  else .fault .notEnabled

/-- BIN_GROUP_START (R69): a group that was to start, and can now. -/
def execBinGroupStart (core bin : Nat) (s : State) : Out :=
  let b := s.bin core bin
  if b.due && s.canStart core b then .next (s.startBin core bin) else .fault .notEnabled

/-- Can the waiting lane of a `spawn` be placed (R70)? -/
def State.canPlace (s : State) (entry : Addr) : Bool := (s.findBin s.coreId s.teamId entry).isSome

/-- SPAWN_RESUME (R70): a split that waits in `spawn` goes on with the lane that waits. -/
def execSpawnResume (group slot : Nat) (s : State) : Out :=
  let t := s.at_ group slot
  match t.spl.wait with
  | some (.spawn left entry g) =>
    if t.groupRuns && t.canPlace entry then
      let (t, rest) := State.placeThreads entry g left t
      let t := if rest.isEmpty then t.retire.settleGroup else t.waitFor (.spawn rest entry g)
      .next (t.at_ s.gid s.slot)
    else .fault .notEnabled
  | _ => .fault .notEnabled

end Sys2Proof.Machine
end

