-- ==== Sys2Proof/Machine/Pages.lean ====
section
/-! DEFINITION. The ownership of pages (R57, R218). -/

namespace Sys2Proof.Machine

/-- Does a grid's lease map the page of a physical address as device-owned? -/
def Grid.holdsPage (g : Grid) (pa : Nat) : Bool :=
  g.live && g.leased && g.trans.any fun e =>
    e.2.valid && !e.2.sa && decide (e.2.pa / 65536 ≤ pa / 65536) &&
      decide (pa / 65536 < e.2.pa / 65536 + (if e.2.large then 32 else 1))
/-- Does a lease hold the page of a physical address (R57): from the start of its grid's first team until it retires? -/
def State.pageLeased (s : State) (pa : Nat) : Bool := s.grids.any fun g => g.2.next != 0 && g.2.holdsPage pa
/-- A page that flips to the host leaves every lease that has not begun, which is installed again (R56, R57). -/
def State.unlease (s : State) (pa : Nat) : State :=
  { s with grids := AMap.mapVals (fun _ g => if g.holdsPage pa then { g with leased := false } else g) s.grids }

/-- The host's own tables hold a page valid, or no longer (R218). -/
def State.setHostPage (s : State) (asid page : Nat) (valid : Bool) : State :=
  let l := s.host.hostPages.filter (· != (asid, page))
  { s with host := { s.host with hostPages := if valid then (asid, page) :: l else l } }

/-- The same for the pages of a leaf, all 32 of a large one. -/
def State.setHostPages (s : State) (asid page : Nat) (large valid : Bool) : State :=
  if large then (List.range 32).foldl (fun s k => s.setHostPage asid (page / 32 * 32 + k) valid) s
  else s.setHostPage asid page valid

/-- Write the V and FL bits of a leaf, keeping every other field (R218). -/
def State.setLeafValid (s : State) (l : LeafAt) (valid : Bool) : State :=
  let x := l.bits - l.bits % 2 + (if valid then 1 else 0)
  let x := if x.testBit 6 then x - 64 else x
  s.physWrite l.pos 16 (if valid then x else x + 64)

/-- PAGE_FLIP_TO_DEVICE (R56, R218): a leaf that a flip to the host left with V 0 and FL 1 is valid again, and the host's
translation is not. -/
def State.flipToDevice (s : State) (asid va : Nat) (l : LeafAt) : State :=
  (s.setLeafValid l true).setHostPages asid (va / 65536) (leafFields l.bits).large false

/-- Write back and drop what every L1 and agent holds of a run of lines (R218, step 3). -/
def State.clearLines (s : State) (first n : Nat) : State :=
  let inRun := fun (l : Nat) => decide (first ≤ l) && decide (l < first + n)
  let s := s.cores.foldl (fun s c => (c.2.l1.filter fun e => inRun e.1).foldl (fun s e => s.purge c.1 e.1) s) s
  (s.mem.dir.filter fun e => inRun e.1).foldl (fun s e => s.request e.1 (.homeWrite 0 0)) s

/-- PAGE_FLIP_TO_HOST (R218): the leaf is invalid with FL set and leaves the TLB groups, every shaded tile of the page is
materialised, dirty bytes go to the page's home and copies go, and the host's translation is valid. A page under a lease, or an
SA page, does not flip. -/
def execPageFlipToHost (asid va : Nat) (s : State) : Out :=
  match s.rootOf asid with
  | none => .fault .notEnabled
  | some root =>
    match s.walk root va with
    | none => .fault .notEnabled
    | some l =>
      let f := leafFields l.bits
      if !(l.legal && f.valid) || f.sa || s.pageLeased (f.phys va) then .fault .notEnabled
      else
        let bytes := if f.large then 0x200000 else 0x10000
        let first := va / bytes * bytes
        let s := (s.setLeafValid l false).unlease (f.phys va)
        let s := s.dropTlb fun e => (s.gridAt e.grid).asid == asid && decide (first ≤ 65536 * e.page) &&
          decide (65536 * e.page < first + bytes)
        let s := if f.tiled then
            (List.range (bytes / 2 ^ (f.tcls + 5))).foldl (fun s i => s.plainTile
              { header := f.hframe + 32 * i, base := f.pa + i * 2 ^ (f.tcls + 5), cls := f.tcls, va := first + i * 2 ^ (f.tcls + 5) }) s
          else s
        .next ((s.clearLines (f.pa / 128) (bytes / 128)).setHostPages asid (va / 65536) f.large true)

end Sys2Proof.Machine
end

