-- ==== Sys2Proof/Machine/Records.lean ====
section
/-! DEFINITION. Kernel images (R24 to R29, R38) and launch records (R44 to R52, R74, R76): loading, reading, the checks and
their codes, numbering and completion. -/

namespace Sys2Proof.Machine

/-- n bytes at offset o of a record held as one number. -/
def field (x o n : Nat) : Nat := x / 2 ^ (8 * o) % 2 ^ (8 * n)

/-- Where an image that software loads stands: its page table's root, its address and its length in bytes. -/
structure ImagePlace where
  root : Nat
  va : Nat
  len : Nat

/-- Does a part of an image lie in it? -/
def ImagePlace.holds (i : ImagePlace) (off n : Nat) : Bool := decide (off + n ≤ i.len)

/-- m entries of n bytes of a table from the k-th on, or none when one cannot be read. -/
def State.imageEntries (s : State) (i : ImagePlace) (off n : Nat) : Nat → Nat → Option (List Nat)
  | _, 0 => some []
  | k, m + 1 =>
    match s.readVirt i.root (i.va + off + n * k) n, s.imageEntries i off n (k + 1) m with
    | some x, some l => some (x :: l)
    | _, _ => none
/-- A table of m entries of n bytes, or none where it does not lie in the image (R28). -/
def State.imageTable (s : State) (i : ImagePlace) (off n m : Nat) : Option (List Nat) :=
  if i.holds off (n * m) then s.imageEntries i off n 0 m else none

/-- Does the header of an image keep R24? -/
def headerLegal (h : Nat) : Bool :=
  field h 0 4 == 0x494B5847 && field h 4 2 == 1 && field h 6 2 == 0 && field h 22 2 == 0 && field h 30 2 == 0 &&
  field h 50 14 == 0 && field h 8 4 % 65536 == 0 && field h 12 4 % 4 == 0 && decide (1 ≤ field h 20 2) &&
  decide (field h 20 2 ≤ 256) && decide (field h 28 2 ≤ 4096) && decide (field h 48 2 ≤ 1024)

/-- Does an entry of the entry table keep R25? -/
def entryLegal (size e : Nat) : Bool :=
  let regs := field e 4 1
  field e 0 4 % 4 == 0 && decide (field e 0 4 < size) && decide (8 ≤ regs) && decide (regs ≤ 128) && regs % 8 == 0 &&
  decide (field e 5 1 % 4 ≤ 2) && decide (field e 5 1 < 8) && decide (field e 10 4 ≤ 393216) && field e 10 4 % 128 == 0 &&
  field e 20 12 == 0

/-- The classes of R27 that may have a handler. -/
def handled (c : Nat) : Bool := (1 ≤ c && c ≤ 6) || c == 8 || c == 9 || c == 10 || c == 14
/-- Does a trap table keep R27? -/
def trapsLegal (size : Nat) (l : List Nat) : Bool :=
  (List.range 16).all fun c =>
    let x := l.getD c 0xFFFFFFFF
    x == 0xFFFFFFFF || (handled c && decide (x < size) && x % 4 == 0)

/-- Does a segment entry keep R38, its contents and its header frame in the image? -/
def segmentLegal (i : ImagePlace) (e : Nat) : Bool :=
  let len := field e 12 4
  let ty := field e 16 1
  let cls := field e 17 1
  i.holds (field e 8 4) len && i.holds (field e 20 4) (field e 24 4) &&
  field e 0 8 % 65536 == 0 && len % 65536 == 0 && field e 18 2 == 0 && field e 28 4 == 0 &&
  if ty == 0xFF then cls == 0 && field e 20 4 == 0 && field e 24 4 == 0
  else decide (ty ≤ 0xB) && decide (cls ≤ 9) && field e 20 4 % 65536 == 0 && field e 24 4 == 32 * (len / 2 ^ (cls + 5))

/-- Where a kernel's text ends: at the next entry of the image, or with the text (log 24). -/
def kernelLimit (entries : List Nat) (size e : Nat) : Nat :=
  entries.foldl (fun m x => if e < field x 0 4 && field x 0 4 < m then field x 0 4 else m) size

/-- The handlers of a kernel (R27): none when the image has no trap table. DESIGN CHOICE (log 52): in an image that has one,
every kernel's 16 entries are read at its trap base; R25 has no mark for a kernel that names no handler. -/
def State.kernelTraps (s : State) (i : ImagePlace) (off base : Nat) : Option (List Nat) :=
  if off = 0 then some (List.replicate 16 0xFFFFFFFF) else s.imageTable i (off + 4 * base) 4 16

/-- Check and read the kernels of an image. -/
def State.readKernels (s : State) (i : ImagePlace) (trapOff size : Nat) (entries : List Nat) : List Nat → Option (List KernelEntry)
  | [] => some []
  | e :: r =>
    match s.kernelTraps i trapOff (field e 18 2), s.readKernels i trapOff size entries r with
    | some t, some l =>
      if entryLegal size e && trapsLegal size t then
        some ({ entry := field e 0 4, limit := kernelLimit entries size (field e 0 4), regs := field e 4 1,
                replicas := field e 5 1 % 4, det := (field e 5 1).testBit 2,
                rights := (List.range 16).map fun k => field e 6 4 / 4 ^ k % 4, bytes := field e 10 4, period := field e 14 4,
                handlers := t.map (BitVec.ofNat 32) } :: l)
      else none
    | _, _ => none

/-- The image of len bytes at an address of an address space, where it passes the checks of R28. -/
def State.readImage (s : State) (asid va len : Nat) : Option Image := do
  let root ← s.rootOf asid
  let i : ImagePlace := { root := root, va := va, len := len }
  let h ← (← s.imageTable i 0 64 1).head?
  let entries ← s.imageTable i (field h 16 4) 32 (field h 20 2)
  let masks ← s.imageTable i (field h 24 4) 32 (field h 28 2)
  let segments ← s.imageTable i (field h 44 4) 32 (field h 48 2)
  let kernels ← s.readKernels i (field h 32 4) (field h 12 4) entries entries
  if headerLegal h && i.holds (field h 8 4) (field h 12 4) && i.holds (field h 36 4) (field h 40 4) &&
      masks.all (fun m => field m 17 15 == 0) && segments.all (segmentLegal i) then
    some { asid := asid, va := va, text := va + field h 8 4, size := field h 12 4, kernels := kernels,
           masks := masks.map fun m => (BitVec.ofNat 128 m, BitVec.ofNat 8 (field m 16 1)) }
  else none

/-- IMAGE_LOAD (R28): the kernels of an image can be launched, or the load is in error and none of them can. What was loaded at its
address before is gone. The image's place is its address, with its length in bytes from bit 64 on (log 24). -/
def execImageLoad (asid place : Nat) (s : State) : Out :=
  let va := place % 2 ^ 64
  let len := place / 2 ^ 64
  let others := s.cp.images.filter fun j => !(j.asid == asid && j.va == va)
  .next { s with cp := { s.cp with images := (s.readImage asid va len).toList ++ others } }

/-- The kernel at an entry address of an address space (R29). -/
def State.kernelAt (s : State) (asid entry : Nat) : Option (Image × KernelEntry) :=
  s.cp.images.findSome? fun i =>
    if i.asid == asid then (i.kernels.find? fun k => i.text + k.entry == entry).map fun k => (i, k) else none

/-- The dies in service, and the service level (R459). -/
def State.level (s : State) : Nat := s.host.svc.toNat % 8
def State.inService (s : State) (d : Nat) : Bool := decide (d < 4) && s.host.svc.getLsbD (12 + d)
def State.dies (s : State) : List Nat := (List.range 4).filter s.inService
/-- The sets of dies that a replica mode permits, leader first (R63). -/
def dieSets : Nat → List (List Nat)
  | 0 => [[0], [1], [2], [3]]
  | 1 => [[0, 2], [1, 3]]
  | _ => [[0, 1, 2], [0, 1, 3], [0, 2, 3], [1, 2, 3]]
def State.permittedSets (s : State) (replicas : Nat) : List (List Nat) :=
  (dieSets replicas).filter fun l => l.all s.inService
/-- The dies on which clusters of a launch may lie at this service level (R469). -/
def State.launchDies (s : State) : List Nat := if s.level == 1 then [0] else s.dies

/-- The clusters that one idle die holds (R61): every rectangle of w columns by h rows covers exactly one core with column
w − 1 modulo w and row h − 1 modulo h, and a core takes `per` teams, so that the bound is exact and stacking reaches it. -/
def dieCapacity (w h per : Nat) : Nat := per * (9 / w) * (8 / h)
/-- Teams of a launch that an idle core holds (R59). -/
def teamsPerCore (groups bytes : Nat) : Nat := min (32 / groups) (if bytes = 0 then 32 else 393216 / bytes)
/-- Could the device hold a grid when idle (R61)? Several permitted sets are used side by side. -/
def State.couldHold (s : State) (replicas w h groups bytes clusters : Nat) : Bool :=
  let c := dieCapacity w h (teamsPerCore groups bytes)
  match replicas with
  | 0 => decide (clusters ≤ c * s.launchDies.length)
  | 1 => decide (clusters ≤ c * (s.permittedSets 1).length)
  | _ => decide (clusters ≤ (if s.dies.length = 4 then 4 * c / 3 else if s.dies.length = 3 then c else 0))

/-- The range entries and dependence entries of a record (R47, R49). -/
def recordRanges (r : Nat) : List RangeEntry := (List.range 16).map fun k =>
  { base := field r (128 + 16 * k) 8, len := field r (136 + 16 * k) 6, rights := BitVec.ofNat 2 (field r (142 + 16 * k) 1) }
def recordDeps (r : Nat) : List Dependence := (List.range 4).map fun k =>
  { value := BitVec.ofNat 64 (field r (64 + 16 * k) 8), kind := field r (72 + 16 * k) 1, index := field r (73 + 16 * k) 1 }

/-- R49 for the ranges of a record. -/
def rangesLegal (r : Nat) : Bool :=
  let l := recordRanges r
  let declared := l.filter fun e => e.rights != 0
  (List.range 16).all (fun k => (l.getD k {}).rights != 0 || field r (128 + 16 * k) 16 == 0) &&
  declared.all (fun e => e.base != 0 && e.len != 0 && e.base % 65536 == 0 && e.len % 65536 == 0 && decide (e.base + e.len ≤ 2 ^ 55)) &&
  (List.range 16).all fun i => (List.range i).all fun j =>
    let a := l.getD i {}
    let b := l.getD j {}
    a.rights == 0 || b.rights == 0 || decide (a.base + a.len ≤ b.base) || decide (b.base + b.len ≤ a.base)

/-- The reserved fields of a record (R46, R47, R49). -/
def recordReserved (r : Nat) : Bool :=
  field r 7 1 != 0 || field r 9 1 != 0 || field r 23 1 != 0 || field r 50 14 != 0 ||
  (List.range 4).any (fun k => field r (74 + 16 * k) 6 != 0) ||
  (List.range 16).any fun k => decide (4 ≤ field r (142 + 16 * k) 1) || field r (143 + 16 * k) 1 != 0

/-- The launch of a record, with the kernel's values where the record names none. -/
def recordLaunch (r : Nat) (k : KernelEntry) : Launch :=
  let or_ := fun (a b : Nat) => if a = 0 then b else a
  { entry := field r 0 8, prio := field r 8 2 % 8, replicas := field r 8 2 / 8 % 4, det := (field r 8 2).testBit 5,
    coresident := (field r 8 2).testBit 6, gated := (field r 8 2).testBit 7, width := field r 10 1 % 16,
    height := field r 10 1 / 16, groups := field r 11 1, snuff := BitVec.ofNat 32 (field r 12 4),
    dims := (field r 16 2, field r 18 2, field r 20 2), regs := or_ (field r 22 1) k.regs, bytes := or_ (field r 24 4) k.bytes,
    period := or_ (or_ (field r 28 4) k.period) 4096 }

/-- The reasons of R50 that are found when a record is read, in the table's order, and whether each applies. DESIGN CHOICE
(log 52): a dependence of kind 2 with an index above 3, which code 10 does not name, has code 10. -/
def State.recordFaults (s : State) (r : Nat) (device : Bool) (k : KernelEntry) : List (Nat × Bool) :=
  let l := recordLaunch r k
  let n := l.width * l.height
  let clusters := l.dims.1 * l.dims.2.1 * l.dims.2.2
  [(2, l.replicas == 3 || decide (k.replicas < l.replicas)),
   (3, l.det && !k.det),
   (4, (List.range 16).any fun i => ((recordRanges r).getD i {}).rights &&& BitVec.ofNat 2 (k.rights.getD i 0) != BitVec.ofNat 2 (k.rights.getD i 0)),
   (5, l.width == 0 || decide (9 < l.width) || l.height == 0 || decide (8 < l.height) || decide (12 < n)),
   (6, clusters == 0 || decide (2 ^ 28 < clusters) || l.groups == 0 || decide (32 < l.groups)),
   (7, l.regs % 8 != 0 || decide (l.regs < k.regs) || decide (128 < l.regs) || l.bytes % 128 != 0 ||
       decide (l.bytes < k.bytes) || decide (393216 < l.bytes)),
   (8, !rangesLegal r),
   (9, recordReserved r),
   (10, (recordDeps r).any fun d => decide (2 < d.kind) || (d.kind == 1 && decide (63 < d.index)) ||
       (d.kind == 2 && (!device || decide (3 < d.index)))),
   (11, if l.gated then field r 40 8 % 8 != 0 || decide (4096 < field r 48 2) else field r 40 8 != 0 || field r 48 2 != 0),
   (12, (s.level == 1 && (l.det || l.replicas != 0)) || (s.permittedSets l.replicas).isEmpty),
   (13, l.coresident && !s.couldHold l.replicas l.width l.height l.groups l.bytes clusters)]

/-- The completion address of a record as R51 translates it. DESIGN CHOICE (log 52): at level 1 an address in a peer's memory is
accepted as any other, since R14 does not say whether a completion record, a gating table or a ring there counts as use of the
fabric. -/
def State.completionOf (s : State) (asid r : Nat) : Option Nat :=
  let va := field r 32 8
  if va % 32 != 0 then none
  else match (s.rootOf asid).bind fun root => s.leafAt root va with
    | some l => if l.wr then some (l.phys va) else none
    | none => none

/-- The next numbers of a queue that are done, in order (R45, R76). -/
def advance : Nat → DWord → List DWord → DWord × List DWord
  | 0, n, l => (n, l)
  | k + 1, n, l => if l.contains (n + 1) then advance k (n + 1) (l.filter (· != n + 1)) else (n, l)

/-- A record is done (R43, R45, R76): QDONE or QDDONE moves past every number that is done; a place of the device-launch
store is free again. -/
def State.numberDone (s : State) (sub : Submission) : State :=
  let q := s.queue sub.queue
  if sub.device then
    let l := sub.seq :: q.devSet
    let (n, l) := advance l.length q.devDone l
    let s := s.setQueue sub.queue { q with devDone := n, devSet := l }
    { s with cp := { s.cp with stored := s.cp.stored - 1 } }
  else if sub.enGen == q.enGen then
    let l := sub.seq :: q.doneSet
    let (n, l) := advance l.length q.done l
    s.setQueue sub.queue { q with done := n, doneSet := l }
  else s

/-- COMPLETION_RECORD_WRITE (R51), and then the counters (R45). A record rejected with code 17 leaves a log record
instead. -/
def State.finishRecord (s : State) (sub : Submission) (status detail : Nat) : State :=
  let s := match sub.completion with
    | some pa => s.physWrite pa 32 (sub.seq.toNat + status * 2 ^ 64 + detail % 2 ^ 32 * 2 ^ 96)
    | none => s.logDevice 0x0011 (BitVec.ofNat 32 sub.queue) sub.seq
  s.numberDone sub

/-- RECORD_REJECT (R50): an unadmitted grid ends with a code. -/
def State.rejectGrid (s : State) (g code : Nat) : State :=
  let x := s.gridAt g
  let s := s.setGridAt g { x with live := false, phase := .retired, ending := { status := 1, detail := code } }
  s.finishRecord x.sub 1 code

/-- A record enters the command processor (R44, R50, R76): rejected with its code, or a launch that waits for its
dependences. -/
def State.submit (s : State) (r asid : Nat) (sub : Submission) (pcap : Nat) : State :=
  let sub := { sub with completion := s.completionOf asid r, order := s.cp.order + 1 }
  let s := { s with cp := { s.cp with order := s.cp.order + 1 } }
  match sub.completion, s.kernelAt asid (field r 0 8) with
  | none, _ => s.finishRecord sub 1 17
  | some _, none => s.finishRecord sub 1 1
  | some _, some (i, k) =>
    match (s.recordFaults r sub.device k).find? fun e => e.2 with
    | some (code, _) => s.finishRecord sub 1 code
    | none =>
      let l := recordLaunch r k
      let g : Grid :=
        { live := true, launch := l,
          kernel := { entry := i.text + k.entry, base := i.text, size := i.size, limit := i.text + k.limit, regs := k.regs, handlers := k.handlers, masks := i.masks },
          sub := sub, deps := (recordDeps r).filter fun d => d.kind != 0, ranges := recordRanges r,
          gating := (field r 40 8, field r 48 2), prio := min l.prio pcap, asid := asid }
      let s := s.setGridAt s.cp.nextGrid g
      { s with cp := { s.cp with nextGrid := s.cp.nextGrid + 1 } }

/-- The queues in the order of R44, from the one after the queue visited last. -/
def State.queueOrder (s : State) : List Nat := (List.range 64).map fun k => (s.cp.lastQueue + 1 + k) % 64
/-- The fields of QCTL (R42). -/
def qctlAsid (x : Word) : Nat := (x.extractLsb' 16 16).toNat
def qctlPcap (x : Word) : Nat := (x.extractLsb' 5 3).toNat
def qctlLogn (x : Word) : Nat := (x.extractLsb' 1 4).toNat
def qctlEn (x : Word) : Bool := x.getLsbD 0
/-- Does a queue hold a record to read (R43, R477)? -/
def State.hasRecord (s : State) (q : Nat) : Bool :=
  let x := s.queue q
  qctlEn x.ctl && !x.stopped && x.head != x.tail && s.level != 0

/-- RECORD_READ (R44, R477): the next record in the reading order; a ring that cannot be read stops its queue. DESIGN CHOICE
(log 52): so does a record of which data is refused as poisoned, of which R477 does not speak. -/
def execRecordRead (s : State) : Out :=
  match s.queueOrder.find? s.hasRecord with
  | none => .fault .notEnabled
  | some q =>
    let s := { s with cp := { s.cp with lastQueue := q } }
    let x := s.queue q
    let asid := qctlAsid x.ctl
    match (s.rootOf asid).bind fun root => s.readVirt root (x.base.toNat + 384 * x.head.toNat) 384 with
    | none => .next (s.setQueue q { x with stat := x.stat ||| 0x10, stopped := true })
    | some r =>
      let n := x.hostNum + 1
      let s := s.setQueue q { x with head := BitVec.ofNat 12 ((x.head.toNat + 1) % 2 ^ qctlLogn x.ctl), hostNum := n }
      .next (s.submit r asid { queue := q, enGen := x.enGen, seq := n } (qctlPcap x.ctl))

end Sys2Proof.Machine
end

