-- ==== Sys2Proof/Machine/Control.lean ====
section
/-! DEFINITION. M = 0x18, 0x19 and 0x1C: control flow and system instructions (R140 to R159), and the ends of splits, groups
and teams (R120, R145, R454). -/

namespace Sys2Proof.Machine

/-- A branch target: the address of the word plus four times the signed offset (R83). -/
def State.targetOf {w : Nat} (s : State) (f : BitVec w) : Addr := s.spl.pc + sext 56 f <<< 2

/-- R140: the branch is taken. -/
def execBr (_ : BitVec 3) (f : BitVec 21) (st : State) : Out := .next (st.retireTo (st.targetOf f))
/-- R140: the branch is taken where the group predicate is true. -/
def execBrq (_ c : BitVec 3) (f : BitVec 21) (st : State) : Out :=
  if st.rdQ c.toNat then .next (st.retireTo (st.targetOf f)) else st.done

/-- R142: the reconvergence point. -/
def execRcv (_ : BitVec 3) (f : BitVec 20) (st : State) : Out :=
  (st.setSpl { st.spl with rpc := some (st.targetOf f) }).done

/-- R143, R144: a call pushes its return address with the call mark. -/
def execCall (_ : BitVec 3) (f : BitVec 20) (st : State) : Out :=
  let x := st.spl
  st.checked (decide (x.stack.length < Config.stackDepth))
    (.next ((st.setSpl { x with stack := { pc := x.pc + 4, mask := x.mask, stop := 1 } :: x.stack, rpc := none }).retireTo
      (st.targetOf f)))

/-- The lowest free split slot of the executing group (R116). -/
def State.freeSlot (s : State) : Option Nat := slots.find? fun k => !(s.splitAt k).live

/-- R116: the fall lanes stay, the taken lanes go on in a free slot at the target; both have the chain with RPC added. -/
def State.divide (s : State) (taken : Mask) (target rpc : Addr) (slot : Nat) : State :=
  let s := s.retire
  let x := s.spl
  let chain := x.chain ++ [rpc]
  let sched : Sched := { bound := x.sched.bound }
  let s := s.setSpl { x with mask := x.mask &&& ~~~taken, chain := chain, rpc := none, sched := sched }
  let s := s.setSplitAt slot { live := true, pc := target, mask := taken, chain := chain, dist := x.dist, rel := x.rel, sched := sched }
  s.setGrp { s.grp with inflight := s.grp.inflight.map fun e =>
    let e := Inflight.moved slot 4 e
    if e.slot == s.slot || e.also.getLsbD s.slot then { e with also := e.also ||| slotBit slot } else e }

/-- R115 to R117: the divergent branch. -/
def execBrd (_ c : BitVec 3) (f : BitVec 21) (st : State) : Out :=
  let x := st.spl
  let t := x.mask &&& st.rdP c.toNat
  let rest := x.mask &&& ~~~t
  let target := st.targetOf f
  let plain := st.setSpl { x with rpc := none }
  if t == 0 then plain.done
  else if rest == 0 then .next (plain.retireTo target)
  else match x.rpc with
  | none => st.illegalOperand
  | some rpc =>
    let whole := st.replicated || st.deterministic || st.handlerMode
    match (if whole || !x.stack.isEmpty || decide (4 ≤ x.chain.length) then none else st.freeSlot) with
    | some k => .next (st.divide t target rpc k)
    | none =>
      st.checked (decide (x.stack.length + 2 ≤ Config.stackDepth))
        (.next ((st.setSpl { x with
          stack := { pc := x.pc + 4, mask := rest, stop := rpc } :: { pc := rpc, mask := x.mask, stop := rpc } :: x.stack,
          mask := t, rpc := none }).retireTo target))

/-- R144: the return takes the call entry. Lanes that have ended have left every entry (R145). -/
def execRet (_ : BitVec 3) (st : State) : Out :=
  let x := st.spl
  match x.stack with
  | e :: r =>
    st.checked (e.stop == 1) (.next ((st.setSpl { x with mask := e.mask, stack := r, rpc := none }).retireTo e.pc))
  | [] => st.illegalOperand

/-- R144: the jump to an address in a group register. -/
def execJmpg (_ : BitVec 3) (g : BitVec 6) (st : State) : Out :=
  let a := st.rdG g.toNat
  st.checked (a.extractLsb' 0 2 == 0 && a.extractLsb' 56 8 == 0)
    (.next ((st.setSpl { st.spl with rpc := none }).retireTo (a.setWidth 56)))

/-- R146: nothing changes. -/
def execNop (_ : BitVec 3) (st : State) : Out := st.done
/-- R146: the split is demoted. -/
def execPdem (_ : BitVec 3) (st : State) : Out := .next (st.retire.demote st.tseq)

/-- Accept every command of the core's matrix queue up to the last of a group that ends. -/
def State.finishMatrix : Nat → State → State
  | 0, s => s
  | n + 1, s =>
    match s.core.matrix with
    | [] => s
    | c :: rest =>
      if (c :: rest).any (fun d => d.gid == s.gid) then
        let old := (s.gid, s.slot)
        State.finishMatrix n (((s.setCore { s.core with matrix := rest }).at_ c.gid c.slot).accept c |>.at_ old.1 old.2)
      else s

/-- Does some bin of a core hold threads of a team? -/
def State.holdsThreads (s : State) (core team : Nat) : Bool :=
  binNums.any fun k => !(s.bin core k).threads.isEmpty && (s.bin core k).team == team

/-- The executing group ends (R120, R72, R454): it leaves its barriers; the bins of a team without groups start theirs;
with none left the team ends. -/
def State.endGroup (s : State) : State :=
  let s := State.finishMatrix Config.matrixQueue s
  let team := s.teamId
  let core := s.coreId
  let s := s.setGrp { s.grp with live := false, handler := none, pending := [], inflight := [], ctx := { s.grp.ctx with splits := [] } }
  let s := s.leaveBarriers s.gid (if s.grid.launch.coresident then [1, 2, 3] else [1, 2])
  let s := if (s.groupsOf team).isEmpty then s.flushTeam core team else s
  if (s.groupsOf team).isEmpty && !s.holdsThreads core team then s.setTeamAt team { s.teamAt team with ended := true } else s

/-- The executing split ends (R120). -/
def State.endSplit (s : State) : State :=
  let s := s.setSpl {}
  let s := s.leaveHolds (slotBit s.slot)
  let s := s.setGrp { s.grp with inflight := s.grp.inflight.map (Inflight.moved s.slot 4) }
  let s := s.leaveBarriers s.slot [0]
  if slots.any (fun k => (s.splitAt k).live) then s else s.endGroup

/-- R145, R441: the lanes of the split end, and leave every entry of its stack; it goes on at the innermost entry that keeps
a lane, or ends. -/
def State.endLanes (s : State) : State :=
  let handler := s.handlerMode
  let x := s.spl
  let stack := (x.stack.map fun e => { e with mask := e.mask &&& ~~~x.mask }).filter fun e => e.mask != 0
  let s := s.retire
  let s := match stack with
    | e :: r => s.setSpl { s.spl with pc := e.pc, mask := e.mask, stack := r }
    | [] => s.endSplit
  if handler && s.grp.live then s.endHandler else s

/-- The first engine command of the executing group that has not completed: its context and number. -/
def State.openCommand (s : State) : Option (Nat × Nat) :=
  [0, 1, 2, 3].findSome? fun x => ((s.ctx x).queue.find? fun c => c.gid == s.gid).map fun c => (x, c.num)
/-- The executing group acquires the completion of its commands (R380): those of a context up to a number. -/
def State.acquireRecords (s : State) (ctx n : Nat) : State :=
  if s.replicated then s.setRepl { s.grp.repl with
    engine := s.grp.repl.engine.map fun e =>
      if e.ctx == ctx && decide (e.num ≤ n) then { e with acquired := true } else e }
  else s

/-- R145, R380, R381: the lanes end; a replica first waits for its engine commands, takes in their records, and
compares; what it still had in the matrix queue is done first, so that its non-finite trap is taken at that compare (R449). -/
def execExit (_ : BitVec 3) (st : State) : Out :=
  match (if st.replicated then st.openCommand else none) with
  | some (x, n) => .next (st.waitFor (.timeline x (BitVec.ofNat 64 n)))
  | none =>
    let t := if st.replicated then
        let st := State.finishMatrix Config.matrixQueue st
        st.setRepl { st.grp.repl with engine := st.grp.repl.engine.map fun e => { e with acquired := true } }
      else st
    t.compareFirst forcedRecord (.next t.endLanes)

/-- Is a stop pending for the executing group (R147, R415)? -/
def State.stopAsked (s : State) : Bool := s.cluster.stop.isSome || s.grid.ending.snuffed

/-- The count of `safe` instructions at which all replicas of the group stop (R148): the first that none has passed. -/
def State.stopCount (s : State) : Nat :=
  let mine := s.grp.repl.safes + 1
  match s.grp.repl.stopAt with
  | some n => if mine ≤ n then n else mine
  | none => ((s.partners s.gid).filter (· != s.gid)).foldl (fun n g => max n ((AMap.get {} s.groups g).repl.safes + 1)) mine
/-- Tell the count to every replica of the group. -/
def State.shareStop (s : State) (n : Nat) : State :=
  (s.partners s.gid).foldl (fun t g =>
    let x := AMap.get {} t.groups g
    { t with groups := AMap.set t.groups g { x with repl := { x.repl with stopAt := some n } } }) s

/-- R147, R148, R443: the count returns to 0; where a stop is pending the split stops after the `safe` with its live
mask. -/
def execSafe (_ : BitVec 3) (i : BitVec 12) (st : State) : Out :=
  let passed := fun (s : State) (stop : Option Nat) =>
    let t := s.retire
    let t := t.setSpl { t.spl with dist := 0, sched := { t.spl.sched with stopped := stop } }
    Host.Outcome.next (if s.replicated then t.setRepl { t.grp.repl with safes := t.grp.repl.safes + 1 } else t)
  st.checked (decide (i.toNat < st.grid.kernel.masks.length))
    (if st.handlerMode || !st.stopAsked then passed st none
     else if !st.replicated then passed st (some i.toNat)
     else
       let n := st.stopCount
       let t := st.shareStop n
       if n == st.grp.repl.safes + 1 then t.compareFirst forcedRecord (passed t (some i.toNat)) else passed t none)

/-- R156: the software trap. -/
def execTrap (_ : BitVec 3) (n : BitVec 8) (st : State) : Out :=
  .next (st.fault (st.ownFault 0x0E n.toNat 0 0))

/-- R157, R441: the return from a handler, at the stack depth of its entry. -/
def execTret (_ : BitVec 3) (st : State) : Out :=
  match st.grp.handler with
  | some (k, depth) => st.checked (k == st.slot && depth == st.spl.stack.length) (.next st.returnFromTrap)
  | none => st.illegalOperand

/-- The group that leads the executing group's set. -/
def State.leaderOf (s : State) : Nat := ((s.partners s.gid).find? fun g => s.leads g).getD s.gid

/-- The special registers of one value per group (R21, R23). DESIGN CHOICE (log 52): a follower's BINCNT is what the leader's core shows
when the follower reads it. -/
def State.special (s : State) (n : Nat) : Nat :=
  let l := s.grid.launch
  let lead := s.at_ s.leaderOf s.slot
  match n with
  | 0x02 => s.slot
  | 0x03 => s.groupIdx
  | 0x04 => s.teamIndex
  | 0x05 => if s.deterministic then s.pos / l.width * 9 + s.pos % l.width else lead.coreId % 72
  | 0x06 => if s.deterministic then s.cluster.cluidx % 4 else lead.coreId / 72
  | 0x07 => lead.pos
  | 0x08 => l.width + 16 * l.height
  | 0x09 => s.cluster.cluidx
  | 0x0A => l.dims.1 + 2 ^ 16 * l.dims.2.1 + 2 ^ 32 * l.dims.2.2
  | 0x0B => if s.deterministic then s.grid.det.period.toNat else 0
  | 0x0C => l.replicas
  | 0x0D => (binNums.map fun k => (s.bin lead.coreId k).threads.length * 2 ^ (6 * k)).sum
  | 0x10 => s.grp.trap.tcause.toNat
  | 0x11 => s.grp.trap.trappc.toNat
  | 0x12 => s.grp.trap.tmask.toNat
  | 0x13 => s.grp.trap.tadda.toNat
  | 0x14 => s.grp.trap.taddb.toNat
  | 0x15 => s.grp.trap.tseq.toNat
  | _ => 0

/-- R158, R22: a special register into a vector or a group register. -/
def execRdsp (_ : BitVec 3) (d : BitVec 7) (r : BitVec 6) (st : State) : Out :=
  st.checked (decide (r.toNat < 0x10) || st.handlerMode)
    (if r == 0 then (st.wrV d.toNat st.spl.mask (fun l => BitVec.ofNat 32 l) latVar).done
     else if r == 1 then (st.wrV d.toNat st.spl.mask (fun l => BitVec.ofNat 32 (l / 8)) latVar).done
     else (st.wrG d.toNat (BitVec.ofNat 64 (st.special r.toNat)) latVar).done)

/-- R159, R22: TRAPPC, in a handler. -/
def execWrsp (_ : BitVec 3) (d : BitVec 7) (r : BitVec 6) (st : State) : Out :=
  let x := st.rdG d.toNat
  st.checked (r == 0x11 && st.handlerMode && x.extractLsb' 0 2 == 0 && x.extractLsb' 56 8 == 0)
    (st.setGrp { st.grp with trap := { st.grp.trap with trappc := x.setWidth 56 } }).done

/-- R149, R150, R70: one thread for each active lane, in ascending order; the split waits where a lane finds no bin. -/
def execSpawn (_ : BitVec 3) (k : BitVec 4) (f : BitVec 15) (st : State) : Out :=
  let target := st.targetOf f
  let ker := st.grid.kernel
  let args := st.activeLanes.map fun l =>
    BitVec.ofNat 128 ((List.range 4).foldr (fun i x => x * 2 ^ 32 + (st.rdV (4 * k.toNat + i) l).toNat) 0)
  st.vector (st.checked (decide (ker.entry ≤ target.toNat) && decide (target.toNat < ker.limit))
    (st.inTurn true (st.afterAtomics true (st.compareFirst (sigRecord target.toNat 0x44 [])
      (st.afterLeader
        (let g := (List.range 16).map st.rdG
         let (t, rest) := State.placeThreads target g args st
         if rest.isEmpty then t.done else .next (t.waitFor (.spawn rest target g))))))))

/-- R151: the team's bins on its core start their groups. -/
def execBflush (_ : BitVec 3) (st : State) : Out := st.inTurn true (st.afterLeader (st.flushTeam st.coreId st.teamId).done)

/-- R155: the role, from the group's next choice on. -/
def execRole (_ : BitVec 3) (r : BitVec 2) (st : State) : Out :=
  ((st.mark .role 0 (some 0)).setRegs { st.regs with role := r }).done

/-- The 384 bytes at an address, read once at their homes after the release (R153). -/
def State.readRecord (s : State) (a : DWord) : State × Nat :=
  (List.range 3).foldl (fun (acc : State × Nat) k =>
    let (t, x) := acc.1.readHome (s.placeOf .read (a + BitVec.ofNat 64 (128 * k))) 128
    (t, acc.2 + x * 2 ^ (1024 * k))) (s, 0)

/-- R153: what the command processors do with the record, and the number that comes back. -/
def State.launchRecord (s : State) (r : Nat) : State × DWord :=
  let q := s.grid.sub.queue
  let x := s.queue q
  if !qctlEn x.ctl then (s.setQueue q { x with stat := x.stat ||| 2 }, 0)
  else if Config.deviceStore ≤ s.cp.stored then (s.setQueue q { x with stat := x.stat ||| 8 }, 0)
  else
    let n := 0x8000000000000000#64 + (x.devNum + 1)
    let s := s.setQueue q { x with devNum := x.devNum + 1 }
    let s := { s with cp := { s.cp with stored := s.cp.stored + 1 } }
    let after := if s.deterministic then some (s.gridId, s.grid.det.period) else none
    (s.submit r s.grid.asid { queue := q, enGen := x.enGen, device := true, seq := n, team := s.teamId, after := after }
      (qctlPcap x.ctl), n)

/-- The bytes of a record in pieces of 32, and back. -/
def recordPieces (r : Nat) : List (BitVec 256) := (List.range 12).map fun k => BitVec.ofNat 256 (r / 2 ^ (256 * k))
def recordOf (l : List (BitVec 256)) : Nat := l.foldr (fun p x => x * 2 ^ 256 + p.toNat) 0

/-- R152 to R154: a launch from the device: a release at device scope, the record once, its number in the register. Every address
outside the lease's ranges, one in a scratch aperture too, is a lease violation; DESIGN CHOICE (log 52): beyond the populated
scratch as well, where row 7 of R106 has scratch bounds. -/
def execLaunch (_ : BitVec 3) (g : BitVec 6) (st : State) : Out :=
  let a := st.rdG g.toNat
  let l := (List.range 3).map fun k => a + BitVec.ofNat 64 (128 * k)
  let inLease := fun (x : DWord) => match st.target x .read with
    | .ok (.memory _ _ _) => true
    | _ => false
  if !alignedTo 128 a then st.raise 0x05 (a.setWidth 56)
  else match l.find? fun x => !inLease x with
  | some x => st.raise 0x07 (x.setWidth 56)
  | none =>
    let p := st.places .read l
    st.inTurn true (st.waits 128 .read true p (match p.findSome? fun e => st.dataFault 128 .read e.1 e.2 with
    | some f => st.raiseAddr f
    | none =>
      st.afterAtomics true (st.compareFirst (sigRecord a.toNat 0x46 [])
        (let t := st.writeBackDirty ((st.leaderCore st.gid).getD st.coreId)
         let (t, r) := match st.agreedRecord with
           | some l => (t, l)
           | none => (t.readRecord a).map id recordPieces
         let e : LogEntry :=
           { word := st.ownWord, mask := st.active, number := 0, ops := [a], result := 0, addrs := [], operands := [], results := [],
             record := r }
         t.once e
           (fun s => let (s, n) := s.launchRecord (recordOf r)
                     (s, { e with result := n }))
           fun s e => (s.wrG g.toNat e.result latVar).done))))

end Sys2Proof.Machine
end

