-- ==== Sys2Proof/Machine/Engines.lean ====
section
/-! DEFINITION. M = 0x1A: the copy commands and the timelines (R237 to R250, R315 to R326, R332): the tests and the queue at
issue, and what an engine command does when it starts and when it completes. -/

namespace Sys2Proof.Machine

/-- The fields that a command uses (R317): a field that it does not use must be 0. -/
structure ControlUse where
  op : Bool := false
  reg : Bool := false
  dcnt : Bool := false
  wlog : Bool := false
  len : Bool := false
  /-- must WLOG match OP? -/
  matches_ : Bool := false
  /-- must LEN be a multiple of the width? -/
  whole : Bool := false

/-- The test of a control word (R317). -/
def controlLegal (u : ControlUse) (x : DWord) : Bool :=
  (u.op || ctlOp x == 0) && (u.reg || !ctlReg x) && (u.dcnt || ctlDcnt x == 0) && (u.wlog || ctlWlog x == 0) &&
  (u.len || ctlLen x == 0) && decide (ctlWlog x ≤ 4) && (!u.op || decide (ctlOp x ≤ 4)) &&
  (!u.matches_ || ctlWlog x == (if ctlOp x == 1 then 1 else 2)) && (!u.whole || ctlLen x % 2 ^ ctlWlog x == 0)

/-- An operand address that is tested at issue (R319): its alignment, and whether it must lie in scratch. -/
structure OperandTest where
  addr : DWord
  align : Nat
  inScratch : Bool := false

/-- Does an address lie outside populated scratch where it names scratch, or must? -/
def State.scratchFails (s : State) (t : OperandTest) : Bool :=
  match s.aperture t.addr with
  | .scratch _ _ => false
  | .outside => true
  | _ => t.inScratch

/-- The tests of operand addresses in the order of R106, then the command. -/
def State.operandTests (s : State) (l : List OperandTest) (k : Out) : Out :=
  match l.find? fun t => !alignedTo t.align t.addr with
  | some t => s.raise 0x05 (t.addr.setWidth 56)
  | none =>
    match l.find? s.scratchFails with
    | some t => s.raise 0x06 (t.addr.setWidth 56)
    | none => k

/-- A source operand: in scratch it is tested at issue, elsewhere by the engine (R319); of `cpy` the engine tests the alignment
everywhere (R320). -/
def sourceTest (x : DWord) (w : Nat) : OperandTest := { addr := x, align := if inScratchAperture x then w else 1 }

/-- How a command's guard stands (R127). -/
def State.guardOf (s : State) (q : Nat) : Guard :=
  if q == 0 then .runs
  else if s.grp.inflight.any (fun e => e.reg == .q q && e.ready.isNone) then .pending q
  else if s.rdQ q then .runs else .discarded

/-- The words of an operand block, read at issue (R315). -/
def State.operandBlock (s : State) (g n : Nat) : List DWord := (List.range n).map fun k => s.rdG (g + k)

/-- A copy sees what its split has written before it (R241): where the group holds such writes until a compare (R478), the compare
comes first. -/
def State.afterHeld (s : State) (go : Out) : Out :=
  if s.replicated && s.grp.repl.writes.any (!·.engine) then s.compareForced else go

/-- R320: the linear copy. -/
def execCpy (s q : BitVec 3) (c : BitVec 1) (g : BitVec 6) (st : State) : Out :=
  let b := st.operandBlock g.toNat 3
  let w := 2 ^ ctlWlog (b.getD 2 0)
  st.checked (controlLegal { wlog := true, len := true, whole := true } (b.getD 2 0))
    (st.operandTests [{ addr := b.getD 0 0, align := w }, sourceTest (b.getD 1 0) 1]
      (st.afterHeld (st.enqueue c.toNat { num := 0, op := .cpy s q c g, gid := 0, slot := 0, ops := b, guard := st.guardOf q.toNat }).done))

/-- R321: the tensor copy. -/
def execCpyt (s q : BitVec 3) (c : BitVec 1) (g : BitVec 6) (st : State) : Out :=
  let b := st.operandBlock g.toNat 4
  st.checked (controlLegal {} (b.getD 3 0))
    (st.operandTests
      [{ addr := b.getD 0 0, align := 1 }, sourceTest (b.getD 1 0) 1, { addr := b.getD 2 0, align := 16, inScratch := true }]
      (st.afterHeld (st.enqueue c.toNat { num := 0, op := .cpyt s q c g, gid := 0, slot := 0, ops := b, guard := st.guardOf q.toNat }).done))

/-- R322: the index-list block copy. -/
def execCpyx (s q : BitVec 3) (c : BitVec 1) (g : BitVec 6) (v : BitVec 7) (st : State) : Out :=
  let b := st.operandBlock g.toNat 4
  st.checked (controlLegal {} (b.getD 3 0))
    (st.operandTests
      [{ addr := b.getD 0 0, align := 128, inScratch := true }, { addr := b.getD 1 0, align := 32, inScratch := true },
       { addr := b.getD 2 0, align := 8 }]
      (st.afterHeld (st.enqueue c.toNat
        { num := 0, op := .cpyx s q c g v, gid := 0, slot := 0, mask := st.active, ops := b,
          lanes := lanes.map fun l => st.rdV v.toNat l, guard := st.guardOf q.toNat }).done))

/-- The length of a block that DCNT fixes (R316). -/
def State.multiLength (s : State) (g : Nat) : Nat := 3 + ctlDcnt (s.rdG (g + 1))

/-- R323: the multicast copy. -/
def execCpym (s q : BitVec 3) (c : BitVec 1) (g : BitVec 6) (st : State) : Out :=
  let n := st.multiLength g.toNat
  if 64 < g.toNat + n then st.raise 0x01
  else
    let b := st.operandBlock g.toNat n
    let w := 2 ^ ctlWlog (b.getD 1 0)
    st.checked (controlLegal { dcnt := true, wlog := true, len := true, whole := true } (b.getD 1 0))
      (st.operandTests (sourceTest (b.getD 0 0) w :: (b.drop 2).map fun x => { addr := x, align := w })
        (st.afterHeld (st.enqueue c.toNat { num := 0, op := .cpym s q c g, gid := 0, slot := 0, ops := b, guard := st.guardOf q.toNat }).done))

/-- The entry of a rendezvous whose operands are all group-uniform. -/
def State.groupEntry (s : State) (ops : List DWord) : LogEntry :=
  { word := s.ownWord, mask := s.active, number := 0, ops := ops, result := 0, addrs := [], operands := [], results := [] }

/-- A command that the leader performs once for its set (R333): the operands agree first (R386), and before them the replicas
compare, so that the home has what the group wrote (log 55). -/
def State.enqueueOnce (s : State) (e : LogEntry) (ctx : Nat) (c : Cmd) : Out :=
  s.inTurn true (s.compareFirst forcedRecord (s.once e (fun t => (t, e)) fun t _ => (t.enqueue ctx c).done))

/-- R324, R333, R386: the reducing copy, whose operands the replicas first agree on. -/
def execCpyr (s q : BitVec 3) (c : BitVec 1) (g : BitVec 6) (st : State) : Out :=
  let n := st.multiLength g.toNat
  if 64 < g.toNat + n then st.raise 0x01
  else
    let b := st.operandBlock g.toNat n
    let w := 2 ^ ctlWlog (b.getD 1 0)
    st.checked (controlLegal { op := true, dcnt := true, wlog := true, len := true, matches_ := true, whole := true } (b.getD 1 0))
      (st.operandTests (sourceTest (b.getD 0 0) w :: (b.drop 2).map fun x => { addr := x, align := w })
        (st.enqueueOnce (st.groupEntry b) c.toNat
          { num := 0, op := .cpyr s q c g, gid := 0, slot := 0, ops := b, guard := st.guardOf q.toNat }))

/-- Does a command not see what another of its team writes (R240): one for which the program had not waited at its issue, or one
issued after it? -/
def Cmd.misses (c : Cmd) (ctx x n : Nat) : Bool :=
  !(x == ctx && n == c.num) && (c.blind.contains (x, n) || decide (c.upTo.getD x 0 < n))
/-- Forget what no command will miss any more, and no command of lower number may still overwrite (R240). -/
def Team.prune (t : Team) : Team :=
  let open_ := t.ctxs.flatMap fun x => (x.2.queue.filter fun c => !c.done).map fun c => (x.1, c)
  { t with unseen := t.unseen.filter fun e => t.unwaited.any (fun u => u.ctx == e.ctx && u.num == e.num) ||
      open_.any fun c => c.2.misses c.1 e.ctx e.num || (c.1 == e.ctx && decide (c.2.num < e.num)) }
/-- The program has waited for some commands (R240, R259). -/
def State.waited (s : State) (p : Unwaited → Bool) : State :=
  s.setTeam (Team.prune { s.team with unwaited := s.team.unwaited.filter fun u => !p u })

/-- R325: the counter of a context into a group register. -/
def execTlr (_ : BitVec 3) (g : BitVec 6) (x : BitVec 2) (st : State) : Out :=
  (st.wrG g.toNat (st.ctx x.toNat).counter latVar).done

/-- The number that a `tlw` has read: at issue (R326). -/
def State.timelineNumber (s : State) (g : Nat) : DWord :=
  match s.spl.wait with
  | some (.timeline _ n) => n
  | _ => s.rdG g
/-- Does a replica still hold the edit of a shade command up to a number of a context (R478)? A `tlw` acquires the edit (R290), so
that the compare by which the leader performs it comes first. -/
def State.holdsEdit (s : State) (ctx n : Nat) : Bool :=
  s.replicated && ctx == 1 && s.grp.repl.writes.any fun w => w.shade.isSome && decide (w.num ≤ n)
/-- R326, R380, R240: the split goes on when the counter has reached the number; it acquires the writes, and later commands see
them. -/
def execTlw (_ : BitVec 3) (g : BitVec 6) (x : BitVec 2) (st : State) : Out :=
  let n := st.timelineNumber g.toNat
  let c := st.ctx x.toNat
  st.checked (decide (n.toNat ≤ c.issued.toNat))
    (st.inTurn true (st.afterLeader
      (if c.counter.toNat < n.toNat then .next (st.waitFor (.timeline x.toNat n))
       else if n == 0 then st.done
       else if st.holdsEdit x.toNat n.toNat then st.compareForced
       else (((st.acquireAt 4 []).acquireRecords x.toNat n.toNat).waited fun u => u.ctx == x.toNat && decide (u.num ≤ n.toNat)).done)))

/-- R332: the priority of the team's later collective commands. -/
def execCprio (_ : BitVec 3) (g : BitVec 6) (st : State) : Out :=
  let x := st.rdG g.toNat
  st.checked (x.extractLsb' 16 48 == 0) (st.setTeam { st.team with cprio := x.setWidth 16 }).done

/-- Change a command of the executing group's team. -/
def State.editCmd (s : State) (ctx num : Nat) (f : Cmd → Cmd) : State :=
  let x := s.ctx ctx
  s.setCtx ctx { x with queue := x.queue.map fun c => if c.num == num then f c else c }

/-- The control word of a command that has one. -/
def Cmd.control (c : Cmd) : DWord :=
  match c.op with
  | .cpy _ _ _ _ => c.ops.getD 2 0
  | .cpyt _ _ _ _ => c.ops.getD 3 0
  | .cpyx _ _ _ _ _ => c.ops.getD 3 0
  | .cpym _ _ _ _ => c.ops.getD 1 0
  | .cpyr _ _ _ _ => c.ops.getD 1 0
  | .collAr _ _ _ => c.ops.getD 3 0
  | .collRs _ _ _ => c.ops.getD 3 0
  | .collAg _ _ _ => c.ops.getD 3 0
  | .csred _ _ _ _ => c.ops.getD 3 0
  | .mdrs _ _ _ _ => c.ops.getD 1 0
  | _ => 0

/-- Is it a command that a replica set performs once, by its leader (R333)? -/
def onceCommand : Instr → Bool
  | .cpyr _ _ _ _ => true
  | .collAr _ _ _ => true
  | .collRs _ _ _ => true
  | .collAg _ _ _ => true
  | .csred _ _ _ _ => true
  | _ => false

/-- The team at a position of a cluster of a grid, of the executing group's replica (R311). -/
def State.peerTeam (s : State) (clu pos : Nat) : Option Nat :=
  ((s.clustersOf s.gridId).find? fun c =>
    (s.clusterAt c).cluidx == clu && (s.clusterAt c).replica == s.cluster.replica && (s.clusterAt c).act != .ended).map fun c =>
      12 * c + pos

/-- The barrier arrival of a completed command (R256, R318). -/
def State.commandArrival (s : State) (c : Cmd) : State :=
  match c.op with
  | .mdrp _ _ _ =>
    let x := c.ops.getD 0 0
    if peerNtf x then
      match s.peerTeam (peerClu x) (peerPos x) with
      | some t => ((s.at_ (32 * t) 0).engineArrival (peerBar x)).at_ s.gid s.slot
      | none => s
    else s
  | _ => if ctlNtf c.control then s.engineArrival (ctlBar c.control) else s

/-- A buffered write of an engine, older than those of its context's higher-numbered commands (R240, R391). -/
def insertWrite (w : BufWrite) : List BufWrite → List BufWrite
  | [] => [w]
  | x :: r =>
    if (x :: r).any (fun y => y.agent == w.agent && decide (w.num < y.num)) then x :: insertWrite w r else w :: x :: r
def State.bufferEngine (s : State) (ctx num pa n x : Nat) : State :=
  let w : BufWrite :=
    { line := pa / 128, mask := byteMask (pa % 128) n, data := BitVec.ofNat 1024 (x <<< (8 * (pa % 128))), agent := 32 + ctx,
      num := num }
  s.setTeam { s.team with wbuf := insertWrite w s.team.wbuf }

/-- The barrier of its own team that counts a command, and the phase (R258, R318). -/
def State.countedAt (s : State) (c : Cmd) : Option (Nat × Word) :=
  match c.op with
  | .mdrp _ _ _ => none
  | _ => if ctlNtf c.control then some (ctlBar c.control, (s.barrier 1 (ctlBar c.control)).target none 4) else none

/-- Has a command of a context written a byte that a lower-numbered one of it is still to write, so that its value stays (R240)? -/
def State.writtenAbove (s : State) (ctx num key : Nat) : Bool :=
  s.team.unseen.any fun e => e.ctx == ctx && e.key == key && decide (num < e.num)
/-- A write that enters a team's buffer when its command completes: what a higher-numbered command has written stays (R240, R391). -/
def State.bufferPend (s : State) (ctx num pa n x : Nat) : State :=
  if (List.range n).any fun k => s.writtenAbove ctx num (pa + k) then
    ((List.range n).filter fun k => !s.writtenAbove ctx num (pa + k)).foldl (fun s k =>
      s.bufferEngine ctx num (pa + k) 1 (x / 2 ^ (8 * k) % 256)) s
  else s.bufferEngine ctx num pa n x
/-- A command has completed (R238, R239, R243, R318, R380): its scoreboard entries are free, a deterministic team's buffer
takes its writes, the timeline moves, and its barrier counts it. -/
def State.completeCmd (s : State) (ctx : Nat) (c : Cmd) : State :=
  let s := { s with cores := AMap.mapVals (fun _ k =>
    { k with locks := k.locks.filter fun l => !(l.team == s.teamId && l.ctx == ctx && l.num == c.num) }) s.cores }
  let s := c.pend.foldl (fun s e => s.bufferPend ctx c.num e.1 e.2.1 e.2.2) s
  let bar := s.countedAt c
  let s := if s.replicated then
      s.setRepl { s.grp.repl with
        engine := insertRec { ctx := ctx, num := c.num, crc := c.crc, tseq := c.tseq, bar := bar } s.grp.repl.engine }
    else s
  let s := if bar.isNone then s
    else s.setTeam { s.team with unwaited := s.team.unwaited.map fun u =>
      if u.ctx == ctx && u.num == c.num then { u with bar := bar } else u }
  let s := s.editCmd ctx c.num fun c => { c with started := true, done := true }
  let x := s.ctx ctx
  let y := x.sweep
  let s := (x.queue.filter fun d => decide (x.counter.toNat < d.num) && decide (d.num ≤ y.counter.toNat)).foldl (fun s d =>
    s.releaseClocks d.clock fun g _ w => g / 32 == s.teamId && w.wait == some (.timeline ctx (BitVec.ofNat 64 d.num))) s
  let s := (s.setCtx ctx y).commandArrival c
  s.setTeam s.team.prune

/-- An engine finds a fault (R242): the grid ends, commands not started are discarded, and this one is over. -/
def State.engineFault (s : State) (ctx : Nat) (c : Cmd) (detail : Nat) (a : DWord) : State :=
  let s := s.editCmd ctx c.num fun c => { c with started := true }
  let s := s.failGrid s.gridId detail 0 c.tseq (a.setWidth 56)
  s.completeCmd ctx { c with pend := [] }

/-- What an element of a command gets: bytes of memory, or a value. -/
inductive Source where
  | mem (a : DWord)
  | data (x : Nat)
  deriving DecidableEq, Repr

/-- One element that a command writes, in its order. -/
structure Move where
  dst : DWord
  n : Nat
  src : Source
  deriving DecidableEq, Repr

/-- A byte as the executing split has it, before any view: of its own, or at the home. -/
def State.byteNow (s : State) (key : Nat) : Byte :=
  if 2 ^ 60 ≤ key then Store.get s.mem.scratch (key - 2 ^ 60) else BitVec.ofNat 8 (s.overlay key 1 (s.ownDirty key 1 (s.physRead key 1)))
/-- Put a byte where `byteNow` finds it. -/
def State.pokeByte (s : State) (key : Nat) (x : Byte) : State :=
  let mask := byteMask (key % 128) 1
  let data := BitVec.ofNat 1024 (x.toNat <<< (8 * (key % 128)))
  if 2 ^ 60 ≤ key then { s with mem := { s.mem with scratch := Store.set s.mem.scratch (key - 2 ^ 60) x } }
  else if (s.shadowByte key).isSome then
    let m := AMap.get [] s.core.shadows s.gid
    let y := AMap.get {} m (key / 128)
    s.setCore { s.core with shadows := AMap.set s.core.shadows s.gid (AMap.set m (key / 128) { y with data := blend mask data y.data }) }
  else if (s.l1 s.coreId (key / 128)).dirty.getLsbD (key % 128) then
    let y := s.l1 s.coreId (key / 128)
    s.setL1 s.coreId (key / 128) { y with data := blend mask data y.data }
  else s.physWrite key 1 x.toNat
/-- What memory and scratch hold for a command that misses what others have written (R240): each byte on which such a write came
last is as it was before. This state serves its reads and is left then. -/
def State.seenBy (s : State) (ctx : Nat) (c : Cmd) : State :=
  let t := s.team
  let s := s.setTeam { t with wbuf := t.wbuf.filter fun w => !(decide (32 ≤ w.agent) && c.misses ctx (w.agent - 32) w.num) }
  (t.unseen.map Unseen.key).eraseDups.foldl (fun s key =>
    let run := (t.unseen.filter fun e => e.key == key).takeWhile fun e => c.misses ctx e.ctx e.num
    match run.head?, run.getLast? with
    | some new, some old => if s.byteNow key == new.new then s.pokeByte key old.old else s
    | _, _ => s) s
/-- A command's write, with what it leaves of the bytes before (R240). -/
def State.noting (s : State) (ctx num : Nat) (t : Target) (n x : Nat) (write : State → State) : State :=
  let old := s.pollRead t n
  let bytes := (List.range n).map fun k =>
    ({ ctx := ctx, num := num, key := t.key + k, old := BitVec.ofNat 8 (old >>> (8 * k)), new := BitVec.ofNat 8 (x >>> (8 * k)) } : Unseen)
  let l := s.team.unseen
  let s := write s
  s.setTeam { s.team with unseen := bytes ++ l }

/-- n bytes as the engine reads them for the executing split (R241): the home, with what the split's own core, shadow and
buffer hold. -/
def State.engineRead (s : State) (a : DWord) (n : Nat) : Nat :=
  match s.target a .read with
  | .ok t => s.pollRead t n
  | .error _ => 0

/-- The core writes back its dirty bytes that a source covers (R241), of a tile all, and the home serves the read (log 10). -/
def State.flushSource (s : State) (e : DWord × Nat) : State :=
  match s.target e.1 .read with
  | .ok (.memory leaf va pa) =>
    let lines := match leaf.tile va with
      | some t => s.core.tileLines t
      | none => [pa / 128]
    let s := lines.foldl (fun s l => s.writeBack s.coreId l) (s.refill va)
    if kindOf pa == 0 then s.homeReads (leaf.tile va) pa e.2 else s
  | _ => s

/-- Row 7 to 9 of R106 and the width rule of R248 for one access of an engine; `width` is the element width that a shaded
source must have. -/
def State.engineMeets (s : State) (k : Need) (width : Option Nat) (a : DWord) : Option Nat :=
  match s.target a k with
  | .error c => some c
  | .ok t =>
    let narrow := match t, width with
      | .memory leaf va _, some w =>
        match leaf.tile va with
        | some t => let h := s.header t.header
                    !h.identity && h.kind != 3 && h.ty != 7 && tyBytes h.ty != w
        | none => false
      | _, _ => false
    if narrow then some 0x02 else (s.dataFault (width.getD 1) k a t).map (·.cls)

/-- The first fault of a list of accesses: scratch bounds, lease, width, torn, poison, in the order of the addresses. -/
def State.engineFaults (s : State) (k : Need) (width : Option Nat) (l : List DWord) : Option (Nat × DWord) :=
  [0x06, 0x07, 0x02, 0x08, 0x09].findSome? fun c => (l.find? fun a => s.engineMeets k width a == some c).map fun a => (c, a)

/-- How an address stands among ranges: scratch apart from memory, by team and offset. -/
def State.rangeKey (s : State) (a : DWord) : Nat :=
  match s.aperture a with
  | .scratch t o => 2 ^ 60 + scratchKey t o
  | _ => a.toNat

/-- Do two ranges of bytes meet (R319)? -/
def State.overlap (s : State) (a : DWord) (n : Nat) (b : DWord) (m : Nat) : Bool :=
  decide (0 < n) && decide (0 < m) && decide (s.rangeKey a < s.rangeKey b + m) && decide (s.rangeKey b < s.rangeKey a + n)

/-- Take a record into a command's CRC (R380). -/
def State.noteElement (s : State) (ctx num : Nat) (a : DWord) (n x : Nat) : State :=
  if s.replicated then s.editCmd ctx num fun c => { c with crc := crc c.crc (leBytes 8 a.toNat ++ leBytes n x) } else s

/-- What an act of an engine adds to a group's held writes is the engine's (R478). -/
def State.byEngine (s : State) (act : State → State) : State :=
  let t := act s
  let k := s.grp.repl.writes.length
  if t.grp.repl.writes.length ≤ k then t
  else t.setRepl { t.grp.repl with
    writes := t.grp.repl.writes.zipIdx.map fun e => if k ≤ e.2 then { e.1 with engine := true } else e.1 }
/-- A write of an engine (R227, R239, R333, R391): at its home; in a replica as its store; in a deterministic team's buffer
when the command completes, but for a line private to the team. -/
def State.engineWrite (s : State) (ctx num : Nat) (a : DWord) (n x : Nat) : State :=
  let s := s.noteElement ctx num a n x
  let t := s.placeOf .write a
  match t with
  | .scratch _ _ => s.noting ctx num t n x fun s => s.storePlain t [] n x
  | .memory _ _ pa =>
    if s.served (pa / 128) != .direct then s.editCmd ctx num fun c => { c with pend := c.pend ++ [(pa, n, x)] }
    else if s.replicated then s.byEngine fun s => s.noting ctx num t n x fun s => s.storePlain t [] n x
    else s.noting ctx num t n x fun s => s.writeHome t n x

/-- Perform the elements of a command in order (R247, R320, R323), with what the command sees. -/
def State.move (seen : State) (ctx num : Nat) (s : State) (m : Move) : State :=
  match m.src with
  | .data x => s.engineWrite ctx num m.dst m.n x
  | .mem a => s.engineWrite ctx num m.dst m.n (seen.engineRead a m.n)

/-- What an element reads. -/
def Move.reads (m : Move) : List (DWord × Nat) :=
  match m.src with
  | .mem a => [(a, m.n)]
  | .data _ => []

/-- A range of bytes from an address. -/
structure Span where
  addr : DWord
  len : Nat
  deriving DecidableEq, Repr

/-- What a command is about to do: the ranges it touches, for the range scoreboard (R243), and its elements; or the fault
that ends its grid. -/
structure Plan where
  spans : List Span
  moves : List Move
  /-- what it has read besides its elements -/
  reads : List (DWord × Nat) := []
  /-- does every element have the width that R248 asks of a shaded source? -/
  width : Option Nat := none

/-- The elements of a linear copy. -/
def linear (dst src : DWord) (w len : Nat) : List Move :=
  (List.range (len / w)).map fun e => { dst := dst + BitVec.ofNat 64 (e * w), n := w, src := .mem (src + BitVec.ofNat 64 (e * w)) }

/-- R320. -/
def State.planCpy (s : State) (c : Cmd) : Except (Nat × DWord) Plan :=
  let dst := c.ops.getD 0 0
  let src := c.ops.getD 1 0
  let w := 2 ^ ctlWlog c.control
  let len := ctlLen c.control
  if len == 0 then .ok { spans := [], moves := [] }
  else if !alignedTo w src then .error (0x05, src)
  else if s.overlap dst len src len then .error (0x02, src)
  else .ok { spans := [⟨src, len⟩, ⟨dst, len⟩], moves := linear dst src w len, width := some w }

/-- One dimension of a shape record (R246). -/
structure Dim where
  size : Nat
  sstride : Int
  dstride : Int
  deriving DecidableEq, Repr

/-- The indices of a shape in ascending lexicographic order, dimension 0 varying fastest (R247). -/
def indices : List Dim → List (List Nat)
  | [] => [[]]
  | d :: r => (indices r).flatMap fun l => (List.range d.size).map fun i => i :: l

/-- An offset of an element by one of the strides. -/
def strideSum (f : Dim → Int) (ds : List Dim) (l : List Nat) : Int := ((ds.zip l).map fun e => f e.1 * e.2).sum
/-- The lowest and the highest offset of the elements of a shape. -/
def strideLow (f : Dim → Int) (ds : List Dim) : Int := (ds.map fun d => min 0 (f d * ((d.size : Int) - 1))).sum
def strideHigh (f : Dim → Int) (ds : List Dim) : Int := (ds.map fun d => max 0 (f d * ((d.size : Int) - 1))).sum
def plusInt (a : DWord) (x : Int) : DWord := a + BitVec.ofInt 64 x

/-- The shape record at an address of scratch (R246): its width and dimensions, where it is well formed. DESIGN CHOICE (log 10): it is
read as it stands when the command starts, be it changed since the issue (R241, R321). -/
def State.shapeRecord (s : State) (rec_ : DWord) : Except Nat (Nat × List Dim) :=
  let byte := fun (o n : Nat) => s.engineRead (rec_ + BitVec.ofNat 64 o) n
  let n := byte 0 1
  let lg := byte 1 1
  let dims : List Dim := (List.range n).map fun k =>
    { size := byte (16 + 24 * k) 4, sstride := (BitVec.ofNat 64 (byte (24 + 24 * k) 8)).toInt,
      dstride := (BitVec.ofNat 64 (byte (32 + 24 * k) 8)).toInt }
  let length := 16 + 24 * n
  if n == 0 || decide (16 < n) || decide (4 < lg) || (List.range 14).any (fun k => byte (2 + k) 1 != 0) then .error 0x02
  else if s.scratchFails { addr := rec_ + BitVec.ofNat 64 (length - 1), align := 1, inScratch := true } then .error 0x06
  else if dims.any (fun d => d.size == 0) || (List.range n).any (fun k => byte (20 + 24 * k) 4 != 0) ||
    decide (2 ^ 40 < (dims.map Dim.size).prod) then .error 0x02
  else if dims.any (fun d => d.sstride % 2 ^ lg != 0 || d.dstride % 2 ^ lg != 0) then .error 0x05
  else .ok (2 ^ lg, dims)

/-- R247, R321. -/
def State.planCpyt (s : State) (c : Cmd) : Except (Nat × DWord) Plan :=
  let dst := c.ops.getD 0 0
  let src := c.ops.getD 1 0
  let rec_ := c.ops.getD 2 0
  match s.shapeRecord rec_ with
  | .error d => .error (d, rec_)
  | .ok (w, ds) =>
    let span := fun (a : DWord) (f : Dim → Int) =>
      (⟨plusInt a (strideLow f ds), (strideHigh f ds - strideLow f ds).toNat + w⟩ : Span)
    let from_ := span src Dim.sstride
    let dest := span dst Dim.dstride
    if !alignedTo w dst then .error (0x05, dst)
    else if !alignedTo w src then .error (0x05, src)
    else if s.overlap from_.addr from_.len dest.addr dest.len then .error (0x02, src)
    else .ok
      { spans := [from_, dest, ⟨rec_, 16 + 24 * ds.length⟩],
        moves := (indices ds).map fun l =>
          { dst := plusInt dst (strideSum Dim.dstride ds l), n := w, src := .mem (plusInt src (strideSum Dim.sstride ds l)) },
        width := some w }

/-- The rows of one lane of a block copy in scratch (R250): 16 bytes at a time, so that the swizzle moves whole pieces. They are
the elements of its CRC (R380; DESIGN CHOICE, log 44). -/
def blockRows (dst : DWord) (lane rows width : Nat) (src : Nat → Nat → Source) : List Move :=
  (List.range rows).flatMap fun r =>
    let q := lane * rows + r
    (List.range (width / 16)).map fun k =>
      { dst := dst + BitVec.ofNat 64 (q * width + ((16 * k) ^^^ (q % 8 * 16))), n := 16, src := src r (16 * k) }

/-- How the block of a lane stands (R250): beyond the table, of another domain, or at an address. -/
inductive BlockAt where
  | beyond
  | miss
  | fault (detail : Nat) (a : DWord)
  | at_ (a : DWord)
  deriving DecidableEq, Repr

/-- The domain of the leaf that maps an address of the lease (R213), or the detail of the fault (R242): scratch has no leaf. -/
def State.domainOf (s : State) (a : DWord) : Except Nat Nat :=
  match s.target a .read with
  | .ok (.memory leaf _ _) => .ok leaf.dom
  | .ok (.scratch _ _) => .error 0x07
  | .error c => .error c

/-- The block that an index names; the table is read through any shade (R248). -/
def State.blockOf (s : State) (table : DWord) (length d0 x : Nat) : BlockAt :=
  if length ≤ x then .beyond
  else
    let e := table + BitVec.ofNat 64 (8 * x)
    match s.engineMeets .read none e with
    | some d => .fault d e
    | none =>
      let b := BitVec.ofNat 64 (s.engineRead e 8)
      match s.domainOf b with
      | .error c => .fault c b
      | .ok d => if d != d0 then .miss else if alignedTo 128 b then .at_ b else .fault 0x05 b

/-- R249, R250, R322. -/
def State.planCpyx (s : State) (c : Cmd) : Except (Nat × DWord) Plan :=
  let dst := c.ops.getD 0 0
  let desc := c.ops.getD 1 0
  let maskAt := c.ops.getD 2 0
  let byte := fun (o n : Nat) => s.engineRead (desc + BitVec.ofNat 64 o) n
  let table := BitVec.ofNat 64 (byte 0 8)
  let length := byte 8 4
  let rows := byte 12 2
  let width := byte 14 2
  let act := lanes.filter c.mask.has
  if act.isEmpty then .ok { spans := [⟨maskAt, 8⟩], moves := [{ dst := maskAt, n := 8, src := .data 0 }] }
  else if s.scratchFails { addr := desc + 31, align := 1, inScratch := true } then .error (0x06, desc)
  else if !alignedTo 8 table || length == 0 || decide (2 ^ 24 < length) || rows == 0 || decide (256 < rows) ||
    width == 0 || width % 128 != 0 || decide (4096 < width) || byte 16 16 != 0 then .error (0x02, desc)
  else match s.domainOf table with
  | .error d => .error (d, table)
  | .ok d0 =>
    let blocks := act.map fun l => (l, s.blockOf table length d0 (c.lanes.getD l 0).toNat)
    let place := fun (l : Nat) => dst + BitVec.ofNat 64 (l * rows * width)
    match blocks.findSome? fun e => match e.2 with
      | .fault d a => some (d, a)
      | _ => none with
    | some f => .error f
    | none =>
      let bit := fun (b : BlockAt) => (blocks.filter fun e => e.2 == b).foldl (fun x e => x + 2 ^ e.1) 0
      if blocks.any fun e => s.overlap maskAt 8 (place e.1) (rows * width) ||
          (match e.2 with
           | .at_ a => s.overlap maskAt 8 a (rows * width)
           | _ => false) then .error (0x02, maskAt)
      else .ok
        { spans := [⟨place (act.headD 0), (act.getLastD 0 + 1 - act.headD 0) * rows * width⟩, ⟨desc, 32⟩, ⟨maskAt, 8⟩],
          moves := (blocks.flatMap fun e => blockRows dst e.1 rows width fun r o => match e.2 with
            | .at_ a => .mem (a + BitVec.ofNat 64 (r * width + o))
            | _ => .data 0) ++ [{ dst := maskAt, n := 8, src := .data (bit .beyond * 2 ^ 32 + bit .miss) }],
          reads := blocks.flatMap fun e => if e.2 == .beyond then [] else
            [(table + BitVec.ofNat 64 (8 * (c.lanes.getD e.1 0).toNat), 8)] }

/-- The poisoned lines of which a command writes every byte (R371). -/
def State.covered (s : State) (l : List Move) : List Nat :=
  s.mem.poison.filter fun line => (List.range 128).all fun k => l.any fun m => match s.target m.dst .write with
    | .ok (.memory _ _ pa) => decide (pa ≤ 128 * line + k) && decide (128 * line + k < pa + m.n)
    | _ => false
/-- The state in which a command's accesses are checked: the marks of the lines that it writes whole do not refuse it (R371). -/
def State.sparing (s : State) (l : List Move) : State :=
  if s.mem.poison.isEmpty then s
  else
    let whole := s.covered l
    { s with mem := { s.mem with poison := s.mem.poison.filter fun x => !whole.contains x } }

/-- The destinations of a multicast or reducing copy, each checked in list order (R323): access, then overlap. -/
def State.destinationFault (s : State) (combines : Bool) (src : DWord) (w len : Nat) :
    List DWord → List DWord → Option (Nat × DWord)
  | _, [] => none
  | before, d :: r =>
    let elems := (List.range (len / w)).map fun e => d + BitVec.ofNat 64 (e * w)
    let pcie := elems.find? fun a => match s.target a .write with
      | .ok (.memory _ _ pa) => combines && s.uncached pa
      | _ => false
    match s.engineFaults .write none elems, pcie with
    | some f, _ => some (f.1, d)
    | none, some _ => some (0x07, d)
    | none, none =>
      if s.overlap d len src len || before.any fun b => s.overlap d len b len then some (0x02, d)
      else s.destinationFault combines src w len (d :: before) r

/-- R323, R324: the checks that come before any byte is written, and the elements, destination after destination. -/
def State.planMulti (s : State) (combines : Bool) (c : Cmd) : Except (Nat × DWord) Plan :=
  let src := c.ops.getD 0 0
  let w := 2 ^ ctlWlog c.control
  let len := ctlLen c.control
  let dsts := c.ops.drop 2
  let moves := dsts.flatMap fun d => linear d src w len
  if len == 0 then .ok { spans := [], moves := [] }
  else match (if combines then s else s.sparing moves).destinationFault combines src w len [] dsts with
  | some f => .error f
  | none =>
    if !alignedTo w src then .error (0x05, src)
    else .ok { spans := ⟨src, len⟩ :: dsts.map fun d => ⟨d, len⟩, moves := moves, width := some w }

/-- R310: the rows of the lanes active at issue. -/
def planMdrs (c : Cmd) (ty : Nat) : Plan :=
  let dst := c.ops.getD 0 0
  let pitch := ctlLen c.control
  let w := tyBytes ty
  let act := lanes.filter c.mask.has
  let cells := act.zipIdx.flatMap fun e => (List.range 8).map fun j => (e.1, 8 * e.2 + j, j)
  { spans := if act.isEmpty then [] else
      [⟨dst + BitVec.ofNat 64 (act.headD 0 * pitch), (act.getLastD 0 - act.headD 0) * pitch + 8 * w⟩],
    moves := cells.map fun x =>
      { dst := dst + BitVec.ofNat 64 (x.1 * pitch + x.2.2 * w), n := w, src := .data (c.data.getD x.2.1 0).toNat } }

/-- The plan of a command made of elements. -/
def State.planOf (s : State) (c : Cmd) : Except (Nat × DWord) Plan :=
  match c.op with
  | .cpy _ _ _ _ => s.planCpy c
  | .cpyt _ _ _ _ => s.planCpyt c
  | .cpyx _ _ _ _ _ => s.planCpyx c
  | .cpym _ _ _ _ => s.planMulti false c
  | .cpyr _ _ _ _ => s.planMulti true c
  | .mdrs _ _ t _ => .ok (planMdrs c t.toNat)
  | _ => .ok { spans := [], moves := [] }

/-- The faults of a plan's elements: what it reads, then what it writes. -/
def State.planFault (s : State) (p : Plan) : Option (Nat × DWord) :=
  let elems := fun (e : DWord × Nat) =>
    let w := p.width.getD e.2
    (List.range ((e.2 + w - 1) / w)).map fun k => e.1 + BitVec.ofNat 64 (k * w)
  (s.engineFaults .read p.width ((p.moves.flatMap Move.reads).flatMap elems)).or (s.engineFaults .write none (p.moves.map Move.dst))

/-- The marks of the lines that a command writes whole are going (R371): until the writes are performed at the home. -/
def State.clearing (s : State) (l : List Nat) : State :=
  { s with mem := { s.mem with clearing := (s.mem.clearing ++ l).eraseDups } }
/-- A copy engine's writes of some lines have been performed at their homes, piece by piece: the marks go (R371). -/
def State.cleared (s : State) (lines : List Nat) : State :=
  let l := s.mem.clearing.filter lines.contains
  { s with mem := { s.mem with
      poison := s.mem.poison.filter (fun x => !l.contains x), clearing := s.mem.clearing.filter fun x => !l.contains x } }

/-- The scoreboard entries of a command, each with its core (R243). -/
def State.locksOf (s : State) (ctx num : Nat) (spans : List Span) : List (Nat × RangeLock) :=
  spans.filterMap fun x =>
    match s.aperture x.addr with
    | .scratch t o =>
      if x.len == 0 then none
      else some ((s.teamAt t).core, { team := s.teamId, ctx := ctx, num := num, scratch := t, lo := o, hi := o + x.len - 1 })
    | _ => none

/-- Have the scoreboards room for a command's entries? -/
def State.locksFit (s : State) (l : List (Nat × RangeLock)) : Bool :=
  l.all fun e => decide (((s.coreAt e.1).locks.length + (l.filter fun f => f.1 == e.1).length) ≤ Config.rangeEntries)
def State.takeLocks (s : State) (l : List (Nat × RangeLock)) : State :=
  l.foldl (fun s e => let c := s.coreAt e.1
                      s.setCoreAt e.1 { c with locks := c.locks ++ [e.2] }) s

/-- Does a command touch a line that another group holds unverified (R374)? Then it waits. -/
def State.meetsUnverified (s : State) (l : List DWord) : Bool :=
  l.any fun a => match s.target a .read with
    | .ok (.memory _ _ pa) => s.cores.any fun c => s.foreign c.1 (pa / 128)
    | _ => false

/-- The operation of a combining command (R317, R324, R329) on elements of its width. -/
def engineCombine (op old x : Nat) : Nat :=
  match op with
  | 0 => combine 11 4 old x
  | 1 => floatCombine .bf16 (Fl.add false) (old % 65536) (x % 65536)
  | 2 => combine 0 4 old x
  | 3 => combine 13 4 old x
  | _ => combine 14 4 old x

/-- A write of a command that is performed once, at its home (R324, R333); scratch is written in every replica. -/
def State.putOnce (s : State) (ctx num : Nat) (a : DWord) (n x : Nat) : State :=
  let t := s.placeOf .write a
  s.noting ctx num t n x fun s => match t with
    | .scratch team o =>
      if s.replicated then (s.replicaClusters s.clusterId).foldl (fun s c => s.scratchWrite (12 * c + team % 12) o n x) s
      else s.scratchWrite team o n x
    | .memory _ _ _ => s.writeHome t n x
def State.writeOnce (s : State) (ctx num : Nat) (a : DWord) (n x : Nat) : State :=
  (s.noteElement ctx num a n x).putOnce ctx num a n x

/-- One element of a reducing copy, indivisibly at its home (R324). -/
def State.combineMove (seen : State) (ctx num op : Nat) (s : State) (m : Move) : State :=
  match m.src with
  | .data _ => s
  | .mem a =>
    let x := seen.engineRead a m.n
    let (s, old) := s.readHome (s.placeOf .write m.dst) m.n
    s.writeOnce ctx num m.dst m.n (engineCombine op old x)

end Sys2Proof.Machine
end

