-- ==== Sys2Proof/Machine/Collect.lean ====
section
/-! DEFINITION. The collective engine and the steps of all engines: collectives and `csred` (R260, R261, R327 to R331), shade
edits at the engine (R288 to R290), peer adds (R254 to R257), held guards (R128), and the start and the completion of a
command (R239, R242, R243). -/

namespace Sys2Proof.Machine

/-- The kind of a collective. -/
def collKind : Instr → Nat
  | .collAr _ _ _ => 7
  | .collRs _ _ _ => 8
  | .collAg _ _ _ => 9
  | .csred _ _ _ _ => 10
  | _ => 0

/-- Post a collective (R327, R333, R386): the tests at issue, the operands agreed, a number on the collective context. -/
def State.postCollective (s : State) (op : Instr) (q g : Nat) (u : ControlUse) : Out :=
  let b := s.operandBlock g 4
  let w := 2 ^ ctlWlog (b.getD 3 0)
  let c : Cmd := { num := 0, op := op, gid := 0, slot := 0, ops := b, guard := s.guardOf q, prio := s.team.cprio.toNat }
  s.checked (controlLegal u (b.getD 3 0))
    (s.operandTests [{ addr := b.getD 0 0, align := w }, sourceTest (b.getD 1 0) w, sourceTest (b.getD 2 0) 8]
      (s.enqueueOnce (s.groupEntry b) 3 c))

/-- R329: the all-reduce. -/
def execCollAr (s q : BitVec 3) (g : BitVec 6) (st : State) : Out :=
  st.postCollective (.collAr s q g) q.toNat g.toNat { op := true, wlog := true, len := true, matches_ := true, whole := true }
/-- R329: the reduce-scatter. -/
def execCollRs (s q : BitVec 3) (g : BitVec 6) (st : State) : Out :=
  st.postCollective (.collRs s q g) q.toNat g.toNat { op := true, wlog := true, len := true, matches_ := true, whole := true }
/-- R329: the all-gather. -/
def execCollAg (s q : BitVec 3) (g : BitVec 6) (st : State) : Out :=
  st.postCollective (.collAg s q g) q.toNat g.toNat { wlog := true, len := true, whole := true }

/-- R330: the sparse reduction, its pairs from registers or from a list. -/
def execCsred (s q : BitVec 3) (g : BitVec 6) (v : BitVec 7) (st : State) : Out :=
  let b := st.operandBlock g.toNat 4
  let x := b.getD 3 0
  let regs := ctlReg x
  let mask := if regs then st.active else 0
  let idx := if regs then lanes.map fun l => st.rdV v.toNat l else []
  let val := if regs then lanes.map fun l => st.rdV (v.toNat + 1) l else []
  let entry : LogEntry := { st.groupEntry b with
    operands := if regs then lanes.map fun l => if mask.has l then zext 256 (val.getD l 0 ++ idx.getD l 0) else 0 else [] }
  let c : Cmd := { num := 0, op := .csred s q g v, gid := 0, slot := 0, mask := mask, ops := b, lanes := idx, data := val,
                   guard := st.guardOf q.toNat, prio := st.team.cprio.toNat }
  st.checked (controlLegal { reg := true, len := true } x &&
      (if regs then b.getD 1 0 == 0 && decide (v.toNat + 1 < st.grid.kernel.regs) else v == 0))
    (st.operandTests [{ addr := b.getD 0 0, align := 4 }, sourceTest (b.getD 2 0) 8]
      (st.enqueueOnce entry 3 c))

/-- The participant table at an address (R327, R462, R469): the rank and the entries. -/
def State.participants (s : State) (t : DWord) : Except (Nat × DWord) (Nat × List Nat) :=
  let at_ := fun (o : Nat) => t + BitVec.ofNat 64 o
  if !alignedTo 8 t then .error (0x05, t)
  else match s.engineMeets .read (some 8) t with
  | some d => .error (d, t)
  | none =>
    let head := s.engineRead t 8
    let n := head % 2 ^ 32
    let rank := head / 2 ^ 32
    if n == 0 || decide (4096 < n) || decide (n ≤ rank) then .error (0x02, t)
    else match s.engineFaults .read (some 8) ((List.range (n + 2)).map fun k => at_ (8 * k)) with
    | some f => .error f
    | none =>
      let l := (List.range n).map fun k => s.engineRead (at_ (16 + 8 * k)) 8
      if s.engineRead (at_ 8) 8 != 0 || l.any (fun e => decide (4096 ≤ e)) || l.eraseDups.length != l.length then .error (0x02, t)
      else if s.level == 1 && l.any (fun e => e != s.host.modnum.toNat % 1024) then .error (0x02, t)
      else if l.any (fun e => s.lamp.unreachable.contains (e % 1024)) then .error (0x09, t)
      else .ok (rank, l)

/-- Bytes read element by element. -/
def State.readShare (s : State) (a : DWord) (w len : Nat) : List Byte :=
  (List.range (len / w)).flatMap fun e => leBytes w (s.engineRead (a + BitVec.ofNat 64 (e * w)) w)

/-- The pairs of a `csred` (R330): each eight bytes, index before value. -/
def State.pairsOf (s : State) (c : Cmd) : Except (Nat × DWord) (List Nat) :=
  let len := ctlLen c.control
  let check := fun (l : List Nat) => if l.any fun p => decide (len ≤ p % 2 ^ 32) then
    (.error (0x02, c.ops.getD 1 0) : Except (Nat × DWord) (List Nat)) else .ok l
  if ctlReg c.control then
    check ((lanes.filter c.mask.has).map fun l => (c.lanes.getD l 0).toNat + (c.data.getD l 0).toNat * 2 ^ 32)
  else
    let a := c.ops.getD 1 0
    if !alignedTo 8 a then .error (0x05, a)
    else if inScratchAperture a then .error (0x02, a)
    else match s.engineMeets .read (some 8) a with
    | some d => .error (d, a)
    | none =>
      let n := s.engineRead a 8
      if n == 0 || decide (2 ^ 28 < n) then .error (0x02, a)
      else
        let l := (List.range n).map fun k => a + BitVec.ofNat 64 (8 + 8 * k)
        match s.engineFaults .read (some 8) l with
        | some f => .error f
        | none => check (l.map fun x => s.engineRead x 8)

/-- The bytes that a participant's destination gets (R329). -/
def destLength (kind p len : Nat) : Nat := if kind = 8 then len / p else if kind = 9 then p * len else len

/-- What a participant posts: its rank, the table, its bytes; what it has read, and the ranges it touches (R241, R243). -/
structure Share where
  rank : Nat
  table : List Nat
  bytes : List Byte
  reads : List (DWord × Nat)
  spans : List Span

/-- What a participant posts (R327 to R330), once its table, source and destination have been checked. -/
def State.shareOf (s : State) (c : Cmd) : Except (Nat × DWord) Share :=
  let at0 := c.ops.getD 2 0
  match s.participants at0 with
  | .error f => .error f
  | .ok (rank, table) =>
    let kind := collKind c.op
    let p := table.length
    let words := fun (a : DWord) (n : Nat) => (List.range n).map fun k => (a + BitVec.ofNat 64 (8 * k), (8 : Nat))
    if kind == 10 then
      match s.pairsOf c with
      | .error f => .error f
      | .ok l =>
        let list := c.ops.getD 1 0
        let n := if ctlReg c.control then 0 else 8 * l.length + 8
        let array : Span := ⟨c.ops.getD 0 0, 4 * ctlLen c.control⟩
        if s.overlap list n array.addr array.len then .error (0x02, list)
        else .ok
          { rank := rank, table := table, bytes := l.flatMap fun x => leBytes 8 x,
            reads := words at0 (p + 2) ++ words list (n / 8), spans := [⟨at0, 16 + 8 * p⟩, array] }
    else
      let dst := c.ops.getD 0 0
      let src := c.ops.getD 1 0
      let w := 2 ^ ctlWlog c.control
      let len := ctlLen c.control
      let n := destLength kind p len
      let at_ := fun (a : DWord) (k : Nat) => (List.range (k / w)).map fun e => a + BitVec.ofNat 64 (e * w)
      if kind == 8 && len % (p * w) != 0 then .error (0x02, src)
      else if !alignedTo w src then .error (0x05, src)
      else if s.overlap dst n src len && !(kind == 7 && dst == src) then .error (0x02, dst)
      else match (s.engineFaults .read (some w) (at_ src len)).or (s.engineFaults .write none (at_ dst n)) with
      | some f => .error f
      | none => .ok
          { rank := rank, table := table, bytes := s.readShare src w len,
            reads := words at0 (p + 2) ++ (at_ src len).map (fun a => (a, w)), spans := [⟨at0, 16 + 8 * p⟩, ⟨src, len⟩, ⟨dst, n⟩] }

/-- One level of the tree of R329. -/
def rankLevel (f : Nat → Nat → Nat) : List Nat → List Nat
  | a :: b :: r => f a b :: rankLevel f r
  | l => l
/-- The tree (R329): levels until one value is left. -/
def rankTree (f : Nat → Nat → Nat) : Nat → List Nat → Nat
  | 0, l => l.headD 0
  | n + 1, l => if l.length ≤ 1 then l.headD 0 else rankTree f n (rankLevel f l)

/-- Element e of w bytes in a list of bytes. -/
def elementOf (w e : Nat) (l : List Byte) : Nat := ((l.drop (e * w)).take w).foldr (fun b x => x * 256 + b.toNat) 0

/-- The reduced bytes of all shares, or of a part of their elements (R329). -/
def reduced (op w lo n : Nat) (shares : List (List Byte)) : List Byte :=
  (List.range n).flatMap fun e => leBytes w (rankTree (engineCombine op) 13 (shares.map (elementOf w (lo + e))))

/-- One pair with another of its index, by one addition (R261). -/
def addPairs (p q : Nat) : Nat := p % 2 ^ 32 + floatCombine .f32 (Fl.add false) (p / 2 ^ 32) (q / 2 ^ 32) * 2 ^ 32

/-- The pairs as they reach a destination outside deterministic mode (R331): in any order, some merged on the way. -/
def meet : Nat → Nat → List Nat → List Nat
  | 0, _, l => l
  | n + 1, seed, l =>
    match l[Config.freeChoice seed % l.length]? with
    | none => []
    | some p =>
      let rest := l.erase p
      match (if Config.freeChoice (seed + 1) % 2 == 1 then rest.find? fun q => q % 2 ^ 32 == p % 2 ^ 32 else none) with
      | some q => meet n (seed + 2) (addPairs p q :: rest.erase q)
      | none => p :: meet n (seed + 2) rest

/-- The result of a participant (R329, R331). -/
def collectiveResult (kind op w len seed : Nat) (det : Bool) (rank : Nat) (shares : List (List Byte)) : List Byte :=
  match kind with
  | 7 => reduced op w 0 (len / w) shares
  | 8 => let n := len / shares.length / w
         reduced op w (rank * n) n shares
  | 9 => shares.flatten
  | _ =>
    let pairs := shares.flatMap fun b => (List.range (b.length / 8)).map fun e => elementOf 8 e b
    (if det then pairs else meet pairs.length (seed * 2 ^ 32) pairs).flatMap fun x => leBytes 8 x

/-- What the commands of one collective must have alike (R328): kind, OP, WLOG and LEN. -/
def likeness (kind : Nat) (x : DWord) : Nat × Nat × Nat × Nat := (kind, ctlOp x, ctlWlog x, ctlLen x)

/-- A participant that has posted: a command of this device, or a share from another module. -/
inductive Post where
  | local_ (team : Nat) (c : Cmd)
  | remote (p : RemotePost)

/-- The oldest post of a rank of a table. -/
def State.postOf (s : State) (table : List Nat) (rank : Nat) : Option Post :=
  let here := s.teams.findSome? fun t =>
    ((AMap.get {} t.2.ctxs 3).queue.find? fun c =>
      c.started && !c.done && c.result.isNone && c.table == table && c.rank == rank && (s.at_ c.gid 0 |> fun u => !u.follows)).map
        fun c => Post.local_ t.1 c
  here.or ((s.posts.find? fun p => p.table == table && p.rank == rank).map .remote)
def Post.likeness (p : Post) : Nat × Nat × Nat × Nat :=
  match p with
  | .local_ _ c => Sys2Proof.Machine.likeness (collKind c.op) c.control
  | .remote r => Sys2Proof.Machine.likeness r.kind r.control
def Post.share (p : Post) : List Byte :=
  match p with
  | .local_ _ c => c.share
  | .remote r => r.bytes

/-- Every participant of a table has posted: each command of this device gets its result, or the disagreement ends its grid
(R328). -/
def State.meetCollective (s : State) (table : List Nat) : State :=
  let posts := (List.range table.length).map (s.postOf table)
  match posts.allSome with
  | none => s
  | some ps =>
    let like := (ps.map Post.likeness).headD (0, 0, 0, 0)
    let agree := ps.all fun p => p.likeness == like
    let shares := ps.map Post.share
    let old := (s.gid, s.slot)
    let s := { s with time := { s.time with free := s.time.free + 1 } }
    let s := ps.zipIdx.foldl (fun s e => match e.1 with
      | .remote r => { s with posts := s.posts.erase r }
      | .local_ _ c =>
        let s := s.at_ c.gid c.slot
        if agree then
          let r := collectiveResult like.1 like.2.1 (2 ^ like.2.2.1) like.2.2.2 (s.time.free * 4096 + e.2) s.deterministic e.2 shares
          let elems := (List.range (r.length / 8)).map fun k =>
            c.ops.getD 0 0 + BitVec.ofNat 64 (4 * (elementOf 8 k r % 2 ^ 32))
          match (if like.1 == 10 then s.engineFaults .write none elems else none) with
          | some f => s.engineFault 3 c f.1 f.2
          | none => s.editCmd 3 c.num fun c => { c with result := some r }
        else s.engineFault 3 c 0x02 (c.ops.getD 2 0)) s
    s.at_ old.1 old.2

/-- The teams whose groups pair with the executing group's team. -/
def State.partnerTeams (s : State) : List Nat :=
  (s.replicaClusters s.clusterId).filter (· != s.clusterId) |>.map fun c => 12 * c + s.pos
/-- A command takes its scoreboard entries (R243), one performed once in every replica (R333); none where one finds no place. -/
def State.enter (s : State) (ctx : Nat) (c : Cmd) (spans : List Span) : Option State :=
  let teams := s.teamId :: (if onceCommand c.op && s.replicated then s.partnerTeams else [])
  let l := teams.flatMap fun t => (s.at_ (32 * t + s.groupIdx) s.slot).locksOf ctx c.num spans
  if s.locksFit l then some (s.takeLocks l) else none

/-- A collective starts (R328): what it posts, and the reduction if it is the last to post. -/
def State.startCollective (s : State) (c : Cmd) : Option State :=
  match (s.seenBy 3 c).shareOf c with
  | .error f => some (s.engineFault 3 c f.1 f.2)
  | .ok x =>
    (s.enter 3 c x.spans).map fun s =>
      ((x.reads.foldl State.flushSource s).editCmd 3 c.num fun c =>
        { c with started := true, rank := x.rank, table := x.table, share := x.bytes }).meetCollective x.table

/-- Has a higher-numbered command of the collective context written a byte, which then stays (R240)? Sparse reductions add to
each other (R331). -/
def State.overtaken (s : State) (c : Cmd) (key : Nat) : Bool :=
  s.team.unseen.any fun e => e.ctx == 3 && e.key == key && decide (c.num < e.num) &&
    !(collKind c.op == 10 && (s.ctx 3).queue.any fun d => d.num == e.num && collKind d.op == 10)
/-- An element of a transfer. -/
def State.sendElement (s : State) (c : Cmd) (a : DWord) (n x : Nat) : State :=
  let key := (s.placeOf .write a).key
  let s := s.noteElement 3 c.num a n x
  let stays := (List.range n).filter fun k => s.overtaken c (key + k)
  if stays.isEmpty then s.putOnce 3 c.num a n x
  else ((List.range n).filter fun k => !stays.contains k).foldl (fun s k =>
    s.putOnce 3 c.num (a + BitVec.ofNat 64 k) 1 (x / 2 ^ (8 * k) % 256)) s

/-- Write the next chunk of a transfer (R260): 64 KiB of its elements, or as many pairs. -/
def State.sendChunk (s : State) (c : Cmd) : State :=
  let r := c.result.getD []
  let n := min 65536 (r.length - c.sent)
  let part := (r.drop c.sent).take n
  let dst := c.ops.getD 0 0
  let s := if collKind c.op == 10 then
      (List.range (n / 8)).foldl (fun s k =>
        let p := elementOf 8 k part
        let a := dst + BitVec.ofNat 64 (4 * (p % 2 ^ 32))
        let (s, old) := s.readHome (s.placeOf .write a) 4
        s.sendElement c a 4 (floatCombine .f32 (Fl.add false) old (p / 2 ^ 32))) s
    else
      let w := 2 ^ ctlWlog c.control
      (List.range (n / w)).foldl (fun s e =>
        s.sendElement c (dst + BitVec.ofNat 64 (c.sent + e * w)) w (elementOf w e part)) s
  s.editCmd 3 c.num fun c => { c with sent := c.sent + n }

/-- The transfers of a die that have something to write, with their team. -/
def State.transfers (s : State) (die : Nat) : List Cmd :=
  (s.teams.filter fun t => t.2.core / 72 == die).flatMap fun t =>
    (AMap.get {} t.2.ctxs 3).queue.filter fun c => !c.done && match c.result with
      | some r => decide (c.sent < r.length)
      | none => false
/-- The transfer that runs: the lowest priority value, ties in posting order (R260). DESIGN CHOICE (log 52): of two posted in one
cycle, that of the team with the lower number. -/
def firstTransfer : List Cmd → Option Cmd
  | [] => none
  | c :: r =>
    match firstTransfer r with
    | none => some c
    | some d => if d.prio < c.prio || (d.prio == c.prio && decide (d.order < c.order)) then some d else some c

/-- COLLECTIVE_CHUNK_BOUNDARY (R260): the running transfer of a die is chosen again, and writes one chunk. -/
def execCollectiveChunkBoundary (die : Nat) (s : State) : Out :=
  match firstTransfer (s.transfers die) with
  | none => .fault .notEnabled
  | some c => .next (((s.at_ c.gid c.slot).sendChunk c).at_ s.gid s.slot)

/-- The map of a shade instruction (R291, R292); none for `smat`. -/
def shadeMap (op : Instr) (ops : List DWord) : Option ShadeMap :=
  let v := ops.getD 2 0
  match op with
  | .sfil _ _ _ _ => some (.fill (loWord v))
  | .sscl _ _ _ _ => some (.affine (loWord v) 0)
  | .soff _ _ _ _ => some (.affine 0x3F800000 (loWord v))
  | .sclp _ _ _ _ => some (.clamp (loWord v) (hiWord v))
  | .spmt _ _ _ _ => some (.perm (v.setWidth 56) (ops.getD 3 0).toNat)
  | _ => none

/-- The type that a tile has after its conversion (R286). -/
def shadeTarget (ctl : DWord) (h : Header) : Nat := if shadeTc ctl then shadeType ctl else h.ty

/-- Does an edit read the payload (R226, R227)? -/
def shadeMaterialises (m : Option ShadeMap) (ty : Nat) (h : Header) : Bool :=
  h.kind != 3 && ((ty != h.ty) || match m with
    | none => !h.identity
    | some m => (h.composeLazy m).isNone)

/-- The checks of R289 on one tile, first failure first. -/
def State.shadeFault (s : State) (op : Instr) (ops : List DWord) (cls : Nat) (a : DWord) : Option Nat :=
  let m := shadeMap op ops
  let ctl := ops.getD 1 0
  match s.target a .write with
  | .error c => some c
  | .ok (.scratch _ _) => some 0x02
  | .ok (.memory leaf va _) =>
    match leaf.tile va with
    | none => some 0x02
    | some t =>
      let h := s.header t.header
      let ty := shadeTarget ctl h
      let bits := t.cls + 5 - Nat.log2 (tyBytes ty)
      let fill := match m with
        | some (.fill c) => some c
        | _ => none
      if leaf.tcls != cls then some 0x02
      else if !alignedTo (2 ^ (cls + 5)) (ops.getD 0 0) then some 0x05
      else if !retypeLegal h.ty ty || (match m with | some m => !shadeAccepted ty m | none => false) then some 0x02
      else if (match m with | some (.perm p x) => !permLegal bits p x | _ => false) then some 0x02
      else if (match fill with | some c => decide (ty ≤ 4) && !finite32 c | none => false) then some 0x02
      else if h.kind == 3 && fill.isNone then some 0x08
      else if s.poisoned (t.header / 128) || (shadeMaterialises m ty h &&
        (List.range (2 ^ (t.cls + 5))).any fun o => s.poisoned ((t.base + o) / 128)) then some 0x09
      else none

/-- The edit of one tile (R288): one change of the version, however much it does. -/
def State.shadeTile (s : State) (op : Instr) (ops : List DWord) (t : TileRef) : State :=
  let h := s.header t.header
  let ty := shadeTarget (ops.getD 1 0) h
  let m := shadeMap op ops
  if h.kind == 3 then
    match m with
    | some m => s.commitHeader t h ((({ h with ty := ty } : Header).composeLazy m).getD h)
    | none => s
  else
    let (s, g) := if ty == h.ty then (s, h) else s.retype t h ty
    let (s, g) := match m with
      | some m => s.compose t g m
      | none => s.materialise t g
    s.commitHeader t h g


/-- The size class of the page that holds an address. -/
def State.classAt (s : State) (a : DWord) : Nat :=
  match s.target a .write with
  | .ok (.memory leaf _ _) => leaf.tcls
  | _ => 0

/-- The tiles of a range that lie in tiled pages of the lease. -/
def State.rangeTiles (s : State) (ops : List DWord) : List TileRef :=
  let a := ops.getD 0 0
  (List.range (shadeCount (ops.getD 1 0))).filterMap fun i =>
    match s.target (a + BitVec.ofNat 64 (i * 2 ^ (s.classAt a + 5))) .write with
    | .ok (.memory leaf va _) => leaf.tile va
    | _ => none

/-- The address of a command's tile i, and its tile in a tiled page of the lease. -/
def State.shadeAt (s : State) (c : Cmd) (i : Nat) : DWord :=
  c.ops.getD 0 0 + BitVec.ofNat 64 (i * 2 ^ (s.classAt (c.ops.getD 0 0) + 5))
def State.shadeTileAt (s : State) (c : Cmd) (i : Nat) : Option TileRef :=
  match s.target (s.shadeAt c i) .write with
  | .ok (.memory leaf va _) => leaf.tile va
  | _ => none
/-- Must the edit of a tile wait: its LOCK is set (R235), or another group holds bytes of it unverified (R374)? -/
def State.shadeWaits (s : State) (t : TileRef) : Bool :=
  (s.header t.header).lock || s.cores.any fun c => (c.2.tileLines t).any fun l => s.foreign c.1 l

/-- Is a command of copy 1 below a number not complete? Edits are made in the order of the numbers (R233, R240, R285). -/
def State.below (s : State) (num : Nat) : Bool := (s.ctx 1).queue.any fun d => !d.done && decide (d.num < num)
/-- The next tile of a started shade command (R233, R288, R289), once the commands before it are complete: one edit, or the fault
that ends the grid; the command has completed when the edit of the last tile has been performed. None while the tile waits. -/
def State.shadeStep (s : State) (c : Cmd) : Option State :=
  if s.below c.num then none else
  let a := s.shadeAt c c.sent
  match s.shadeFault c.op c.ops (s.classAt (c.ops.getD 0 0)) a, s.shadeTileAt c c.sent with
  | some d, _ => some (s.engineFault 1 c d a)
  | none, none => some (s.completeCmd 1 c)
  | none, some t =>
    if s.shadeWaits t then none
    else
      let s := (s.shadeTile c.op c.ops t).editCmd 1 c.num fun c => { c with sent := c.sent + 1 }
      some (if c.sent + 1 < shadeCount (c.ops.getD 1 0) then s else s.completeCmd 1 c)

/-- The edits of a range one after the other: how a leader performs the held edit of a replica (R478). A tile that has come to fail
ends the grid (R289). -/
def State.shadeAll (s : State) (op : Instr) (ops : List DWord) (cls : Nat) (tseq : Word) : List Nat → State
  | [] => s
  | i :: r =>
    let a := ops.getD 0 0 + BitVec.ofNat 64 (i * 2 ^ (cls + 5))
    match s.shadeFault op ops cls a, s.target a .write with
    | none, .ok (.memory leaf va _) =>
      match leaf.tile va with
      | some t => State.shadeAll (s.shadeTile op ops t) op ops cls tseq r
      | none => s
    | some d, _ => s.failGrid s.gridId d 0 tseq (a.setWidth 56)
    | none, _ => s

/-- One held write is performed by the leader (R227, R234, R333, R472, R478). -/
def State.performHeld (s : State) (w : HeldWrite) : State :=
  let s := w.tiles.foldl (fun s t => s.dropTile s.coreId t) s
  match w.shade with
  | some (op, ops) => s.shadeAll op ops (s.classAt (ops.getD 0 0)) w.tseq (List.range (shadeCount (ops.getD 1 0)))
  | none =>
    match w.tiles with
    | [] => w.parts.foldl (fun s e => (s.purge s.coreId (e.1 / 128)).physWrite e.1 e.2.1 e.2.2) s
    | [t] => w.parts.foldl (fun s e => s.tileWrite t e.1 e.2.1 e.2.2) s
    | l => if w.torn then s.pairTorn l else s.pairCommit l w.parts
/-- Memory as the executing replica's own bytes make it, those it holds unverified and those it holds unwritten (R374, R376, R478): what
its next edit meets. It serves reads and is left then. -/
def State.preview (s : State) : State :=
  let s := s.ownUnverified.foldl (fun s e => s.performLine s.coreId e.1 e.2) s
  s.grp.repl.writes.foldl State.performHeld s

/-- What an edit has written, as the CRC of its command takes it (R288, R380): the tile's address and its header, without VERSION, LOCK
and READY, which others change too, and its payload where that changed (log 43). -/
def State.editBytes (before after : State) (t : TileRef) : List Byte :=
  let n := 2 ^ (t.cls + 5)
  let h := after.header t.header
  let p := after.physRead t.base n
  if before.header t.header == h then []
  else leBytes 8 t.va ++ leBytes 32 ({ h with ready := false, lock := false, version := 0 } : Header).bits ++
    if before.physRead t.base n == p then [] else leBytes 8 t.va ++ leBytes n p
/-- The edits of a range as a replica meets them: the CRC over what they write (R380), and the first fault (R289). -/
def State.shadeRecords (op : Instr) (ops : List DWord) (cls : Nat) : List Nat → State → DWord → DWord × Option (Nat × DWord)
  | [], _, x => (x, none)
  | i :: r, s, x =>
    let a := ops.getD 0 0 + BitVec.ofNat 64 (i * 2 ^ (cls + 5))
    match s.shadeFault op ops cls a, s.target a .write with
    | some d, _ => (x, some (d, a))
    | none, .ok (.memory leaf va _) =>
      match leaf.tile va with
      | some t => let u := s.shadeTile op ops t
                  State.shadeRecords op ops cls r u (crc x (State.editBytes s u t))
      | none => (x, none)
    | none, _ => (x, none)

/-- Does the team's buffer hold bytes of a shade command's tiles (R290, R391)? -/
def State.tilesBuffered (s : State) (c : Cmd) : Bool :=
  let tiles := if s.team.wbuf.isEmpty then [] else s.rangeTiles c.ops
  s.team.wbuf.any fun w => tiles.any fun t => t.within w.line &&& w.mask != 0

/-- A shade command starts (R288, R290) once the split's earlier writes to its tiles have been performed at their homes: what the
core holds is written back, and a deterministic team's buffer must hold none. The tiles are then edited one by one; in a
replica the edit is held as the replica's stores are (R333, R478). -/
def State.startShade (s : State) (c : Cmd) : Option State :=
  let n := shadeCount (c.ops.getD 1 0)
  let cls := s.classAt (c.ops.getD 0 0)
  let tiles := s.rangeTiles c.ops
  if n == 0 then some (s.completeCmd 1 c)
  else if s.tilesBuffered c || tiles.any s.shadeWaits then none
  else
    let s := s.editCmd 1 c.num fun c => { c with started := true, sent := if s.replicated then n else 0 }
    if s.replicated then
      let k := (s.leaderCore s.gid).getD s.coreId
      let s := tiles.foldl (fun s t => ((s.coreAt k).tileLines t).foldl (fun s l => s.writeBack k l) s) s
      let (x, f) := State.shadeRecords c.op c.ops cls (List.range n) s.preview c.crc
      match f with
      | some f => some (s.engineFault 1 c f.1 f.2)
      | none =>
        some ((s.editCmd 1 c.num fun c => { c with crc := x }).setRepl { s.grp.repl with
          writes := s.grp.repl.writes ++
            [{ parts := tiles.map fun t => (t.base, 2 ^ (t.cls + 5), 0), tiles := tiles, shade := some (c.op, c.ops)
               engine := true, num := c.num, tseq := c.tseq }] })
    else some (tiles.foldl (fun s t => s.dropTile s.coreId t) s)

/-- Is it a shade command? -/
def isShade : Instr → Bool
  | .sfil _ _ _ _ => true
  | .sscl _ _ _ _ => true
  | .soff _ _ _ _ => true
  | .sclp _ _ _ _ => true
  | .spmt _ _ _ _ => true
  | .smat _ _ _ => true
  | _ => false

/-- The record of a destination that a multicast or a reducing copy is refused (R323, R465). -/
def State.noteRefused (s : State) (c : Cmd) (f : Nat × DWord) : State :=
  let several := match c.op with
    | .cpym _ _ _ _ => true
    | .cpyr _ _ _ _ => true
    | _ => false
  if several && (c.ops.drop 2).contains f.2 then s.logGroup 0x0005 (BitVec.ofNat 32 f.1) f.2 else s

/-- Does a command of copy 1 write to a tile that a lower-numbered shade command has still to edit (R240)? -/
def State.meetsEdit (s : State) (ctx : Nat) (c : Cmd) (l : List DWord) : Bool :=
  let open_ := if ctx == 1 then (s.ctx 1).queue.filter fun d => isShade d.op && !d.done && decide (d.num < c.num) else []
  open_.any fun d => (s.rangeTiles d.ops).any fun t => l.any fun a => match s.target a .write with
    | .ok (.memory _ _ pa) => t.mates.any fun u => decide (u.base ≤ pa) && decide (pa < u.base + 2 ^ (u.cls + 5))
    | _ => false
/-- A command made of elements starts (R239, R242, R243): it takes its scoreboard entries, or waits for them. -/
def State.startMoves (s : State) (ctx : Nat) (c : Cmd) : Option State :=
  let seen := s.seenBy ctx c
  match seen.planOf c with
  | .error f => some ((s.noteRefused c f).engineFault ctx c f.1 f.2)
  | .ok p =>
    let reads := p.moves.flatMap Move.reads ++ p.reads
    let plain := if onceCommand c.op then [] else p.moves
    match (s.sparing plain).planFault p with
    | some f => some (s.engineFault ctx c f.1 f.2)
    | none =>
      if p.moves.isEmpty then some (s.completeCmd ctx c)
      else if s.meetsUnverified (p.moves.map Move.dst ++ reads.map Prod.fst) || s.meetsEdit ctx c (p.moves.map Move.dst) then none
      else (s.enter ctx c p.spans).map fun s =>
        let whole := s.covered plain
        let s := (reads.foldl State.flushSource (s.clearing whole)).editCmd ctx c.num fun c => { c with started := true }
        match c.op with
        | .cpyr _ _ _ _ => p.moves.foldl (State.combineMove seen ctx c.num (ctlOp c.control)) s
        | _ =>
          let s := p.moves.foldl (State.move seen ctx c.num) s
          if s.replicated then s else s.cleared (whole.filter fun l => s.served l == .direct)

/-- The rows of a block are on their way to the peer (R254, R312). -/
def State.startPeer (s : State) (c : Cmd) (blk : Nat) : State :=
  let x := c.ops.getD 0 0
  match s.peerTeam (peerClu x) (peerPos x) with
  | none => s.engineFault 2 c 0x02 0
  | some t =>
    let s := s.editCmd 2 c.num fun c => { c with started := true }
    { s with peers := s.peers ++
        [{ team := s.teamId, num := c.num, gid := c.gid, clock := c.clock, target := 32 * t + peerGrp x, block := blk, mask := c.mask
           data := c.data }] }

/-- The command of the same number in a partner's context. -/
def State.twin (s : State) (team ctx num : Nat) : Option Cmd :=
  (AMap.get {} (s.teamAt team).ctxs ctx).queue.find? fun c => c.num == num && (onceCommand c.op || isShade c.op)

/-- A command that the leader performs once (R333): it starts with its followers' commands; a follower's starts alone only
where its leader's has been performed before. -/
def State.startOnce (s : State) (ctx : Nat) (c : Cmd) (go : State → Option State) : Option State :=
  if !s.replicated then go s
  else if s.follows then
    match s.twin (s.leaderOf / 32) ctx c.num with
    | some d => if d.done then some (s.completeCmd ctx c) else none
    | none => if (AMap.get {} (s.teamAt (s.leaderOf / 32)).ctxs ctx).counter.toNat < c.num then none else some (s.completeCmd ctx c)
  else
    let l := s.partnerTeams
    if l.all fun t => (s.twin t ctx c.num).isSome then
      (go s).map fun s => l.foldl (fun s t => ((s.at_ (32 * t + s.groupIdx) s.slot).editCmd ctx c.num fun c =>
        { c with started := true }).at_ s.gid s.slot) s
    else none

/-- A shade command of a replica starts with those of its partners, so that every compare finds the edit held by all of them or by
none (R333, R478; log 44); a follower's starts alone only where its leader's has started before. -/
def State.startTogether (s : State) (c : Cmd) : Option State :=
  if !s.replicated then s.startShade c
  else if s.follows then
    match s.twin (s.leaderOf / 32) 1 c.num with
    | some d => if d.started then s.startShade c else none
    | none => if (AMap.get {} (s.teamAt (s.leaderOf / 32)).ctxs 1).counter.toNat < c.num then none else s.startShade c
  else
    let l := s.partnerTeams
    let next := fun t => ((AMap.get {} (s.teamAt t).ctxs 1).queue.find? fun d => !d.started).map Cmd.num
    if l.all fun t => next t == some c.num then
      l.foldl (fun r t => r.bind fun s => match s.twin t 1 c.num with
        | some d => ((s.at_ d.gid d.slot).startShade d).map fun u => u.at_ s.gid s.slot
        | none => some s) (s.startShade c)
    else none

/-- The lines private to another team that a command of a deterministic team reads, or reaches at their home (R391): it is held until
the serial phase makes them shared. What copies write enters the buffer. -/
def State.heldLines (s : State) (ctx : Nat) (c : Cmd) : List Nat :=
  if !s.deterministic then []
  else
    let run := fun (a : DWord) (n : Nat) => ((List.range ((n + 127) / 128)).map fun k => a + BitVec.ofNat 64 (128 * k)) ++
      if n = 0 then [] else [a + BitVec.ofNat 64 (n - 1)]
    let at_ :=
      if isShade c.op then (s.rangeTiles c.ops).flatMap fun t => (List.range (max 1 (2 ^ (t.cls + 5) / 128))).map fun k => (t.base + 128 * k) / 128
      else
        let addrs := if collKind c.op == 0 then
            match (s.seenBy ctx c).planOf c with
            | .error _ => []
            | .ok p => p.moves.flatMap Move.reads ++ p.reads ++ if onceCommand c.op then p.moves.map (fun m => (m.dst, m.n)) else []
          else match (s.seenBy ctx c).shareOf c with
            | .error _ => []
            | .ok x => x.reads ++ (match x.spans.getLast? with
              | some d => (run d.addr d.len).map fun a => (a, 1)
              | none => [])
        addrs.filterMap fun e => match s.target e.1 .read with
          | .ok (.memory _ _ pa) => some (pa / 128)
          | _ => none
    s.linesHeld at_.eraseDups

/-- What a command does when it starts; none while it must wait. -/
def State.startCommand (s : State) (ctx : Nat) (c : Cmd) : Option State :=
  if !(s.heldLines ctx c).isEmpty then none
  else if isShade c.op then s.startTogether c
  else match c.op with
  | .mdrp _ _ n => some (s.startPeer c n.toNat)
  | .cpyr _ _ _ _ => s.startOnce ctx c fun s => s.startMoves ctx c
  | .collAr _ _ _ => s.startOnce ctx c fun s => s.startCollective c
  | .collRs _ _ _ => s.startOnce ctx c fun s => s.startCollective c
  | .collAg _ _ _ => s.startOnce ctx c fun s => s.startCollective c
  | .csred _ _ _ _ => s.startOnce ctx c fun s => s.startCollective c
  | _ => s.startMoves ctx c

/-- The contexts of a team, seen from its first group. -/
def State.ofTeam (s : State) (team : Nat) : State := s.at_ (32 * team) 0

/-- ENGINE_COMMAND_START (R127, R128, R239): the first command of a context that has not started starts, or is found
discarded; it comes after the AtomicOps that its group had issued before it (R241, R355). A collective of a grid that has been ended
is not posted any more (R480). -/
def execEngineCommandStart (team ctx : Nat) (s : State) : Out :=
  match ((s.ofTeam team).ctx ctx).queue.find? fun c => !c.started with
  | none => .fault .notEnabled
  | some c =>
    let t := s.at_ c.gid c.slot
    let r := match c.guard with
      | .pending _ => none
      | .discarded => some (t.completeCmd ctx c)
      | .runs =>
        if c.waits || t.cluster.act != Activity.active || s.host.atomics.any fun o => o.gid == c.gid && seqBefore o.tseq c.tseq
        then none
        else if c.posted && (t.grid.ending.snuffed || t.grid.ending.failed) then some (t.completeCmd ctx c)
        else t.startCommand ctx c
    match r with
    | some t => .next (t.at_ s.gid s.slot)
    | none => .fault .notEnabled

/-- Has a started command performed all its writes (R239, R256, R328)? -/
def State.performed (s : State) (c : Cmd) : Bool :=
  match c.op with
  | .mdrp _ _ _ => !(s.peers.any fun m => m.team == s.teamId && m.num == c.num)
  | op => if collKind op == 0 then true else match c.result with
    | some r => decide (r.length ≤ c.sent)
    | none => false

/-- ENGINE_COMMAND_COMPLETE (R238, R239, R318): a started command completes; one performed once completes in every replica
together; a shade command comes to its end tile by tile, one each time (R233, R288). -/
def execEngineCommandComplete (team ctx num : Nat) (s : State) : Out :=
  match ((s.ofTeam team).ctx ctx).queue.find? fun c => c.num == num && c.started && !c.done with
  | none => .fault .notEnabled
  | some c =>
    let t := s.at_ c.gid c.slot
    if isShade c.op && decide (c.sent < shadeCount (c.ops.getD 1 0)) then
      match t.shadeStep c with
      | some u => .next (u.at_ s.gid s.slot)
      | none => .fault .notEnabled
    else if (onceCommand c.op && t.follows) || !t.performed c then .fault .notEnabled
    else
      let u := t.completeCmd ctx c
      let u := if onceCommand c.op && t.replicated then
          t.partnerTeams.foldl (fun u k => match u.twin k ctx num with
            | some d => (u.at_ d.gid d.slot).completeCmd ctx { d with crc := c.crc }
            | none => u) u
        else u
      .next (u.at_ s.gid s.slot)

/-- Has the executing team's grid ended (R129): it has failed or is snuffed, or all its clusters have come and its last group has
ended? -/
def State.gridDone (s : State) : Bool :=
  s.grid.ending.failed || s.grid.ending.snuffed || (s.grid.next == s.grid.launch.clusters && (s.gridGroups s.gridId).isEmpty)

/-- The commands that wait for a write of a predicate take its value (R128), or are discarded with their grid (R129). -/
def State.resolveGuards (s : State) (p : Cmd → Bool) (ctx : Nat) : State :=
  let x := s.ctx ctx
  s.setCtx ctx { x with queue := x.queue.map fun c => match c.guard with
    | .pending q =>
      if p c then
        let runs := (AMap.get {} s.groups c.gid).ctx.regs.getQ q && !c.dropped && !s.gridDone
        { c with guard := if runs then .runs else .discarded }
      else c
    | _ => c }

/-- Has the write that a held command waits for resolved? -/
def State.guardReady (s : State) (c : Cmd) : Bool :=
  match c.guard with
  | .pending q => !((AMap.get {} s.groups c.gid).inflight.any fun e => e.reg == .q q && e.ready.isNone)
  | _ => false

/-- GUARD_RESOLVE (R128): the guard of the command at the head of a context resolves. -/
def execGuardResolve (team ctx : Nat) (s : State) : Out :=
  let t := s.ofTeam team
  match (t.ctx ctx).queue.find? fun c => !c.started with
  | none => .fault .notEnabled
  | some c =>
    if t.guardReady c then .next ((t.resolveGuards (fun d => d.num == c.num) ctx).at_ s.gid s.slot) else .fault .notEnabled

/-- The rows of a peer add (R255): each element added once, rounded to f32. -/
def Regs.peerAdd (r : Regs) (m : PeerMsg) : Regs :=
  ((lanes.filter m.mask.has).zipIdx).foldl (fun r e =>
    (List.range 8).foldl (fun r j =>
      r.setAcc m.block e.1 j (BitVec.ofNat 32 (floatCombine .f32 (Fl.add false) (r.getAcc m.block e.1 j).toNat
        (m.data.getD (8 * e.2 + j) 0).toNat))) r) r

/-- In deterministic mode adds reach a target in the order in which their `mdrp` took their turns (R255, R392): is there one for
the same block whose clock, cluster index or group comes before, on its way or not yet sent? -/
def State.peerBehind (s : State) (m : PeerMsg) : Bool :=
  let before := fun (clock : DWord) (gid num : Nat) =>
    let a := (clock.toNat, (s.clusterAt (gid / 384)).cluidx, gid % 384, num)
    let b := (m.clock.toNat, (s.clusterAt (m.gid / 384)).cluidx, m.gid % 384, m.num)
    decide (a.1 < b.1) || (a.1 == b.1 && (decide (a.2.1 < b.2.1) || (a.2.1 == b.2.1 && (decide (a.2.2.1 < b.2.2.1) ||
      (a.2.2.1 == b.2.2.1 && decide (a.2.2.2 < b.2.2.2))))))
  let queued := (s.gridTeams (s.clusterAt (m.gid / 384)).grid).any fun t =>
    (AMap.get {} (s.teamAt t).ctxs 2).queue.any fun c => !c.done && before c.clock c.gid c.num && (match c.op with
      | .mdrp _ _ n =>
        let x := c.ops.getD 0 0
        n.toNat == m.block && ((s.at_ c.gid c.slot).peerTeam (peerClu x) (peerPos x)).map (fun k => 32 * k + peerGrp x) == some m.target
      | _ => false)
  s.deterministic && queued

/-- PEER_ADD (R255, R257, R312): rows reach their target, once its cluster is active; a target that does not exist any more, or
a block that is not open, ends the grid. -/
def execPeerAdd (idx : Nat) (s : State) : Out :=
  match s.peers[idx]? with
  | none => .fault .notEnabled
  | some m =>
    let t := s.at_ m.target 0
    let u := { t with peers := t.peers.eraseIdx idx }
    let stopped := t.cluster.act == .parked || t.cluster.act == .saved
    if stopped || (s.at_ m.gid 0).peerBehind m then .fault .notEnabled
    else if t.grp.live && t.regs.openAcc.getLsbD m.block then
      .next ((u.setRegs (t.regs.peerAdd m)).at_ s.gid s.slot)
    else
      let tseq := (((t.ofTeam m.team).ctx 2).queue.find? fun c => c.num == m.num).map (·.tseq)
      .next ((u.failGrid (s.clusterAt (m.gid / 384)).grid 0x02 0 (tseq.getD 0) 0).at_ s.gid s.slot)

end Sys2Proof.Machine
end

