-- ==== Sys2Proof/Machine/Sync.lean ====
section
/-! DEFINITION. M = 0x1B: fences, acquiring loads and releasing stores, remote acquire, barriers, ready marks, cancellation,
the logical clock and the replica instructions (R397 to R421). -/

namespace Sys2Proof.Machine

/-- R398, R343, R351: the acquire and the release of a fence; `.ar` also performs every earlier store. What acquires comes after
the group's AtomicOps, and waits where a demand of it must wait (R340, R374), and in deterministic mode until the serial phase where the group has read
what another team has released in this period (R394). For `.ar` the replicas compare first, so that the group's unverified stores can be
performed, and a deterministic team's buffered stores wait for the serial phase (log 59). -/
def execFence (_ : BitVec 3) (k : BitVec 2) (e : BitVec 3) (st : State) : Out :=
  let scope := e.toNat
  let acquires := k != 2
  let releases := k != 1
  let both := k == 3 && decide (2 ≤ scope)
  let ready := fun (go : Out) =>
    if acquires && decide (2 ≤ scope) && st.grp.heard then .next (st.waitFor (.held []))
    else if let some x := (if acquires && decide (2 ≤ scope) then st.grp.heardOf else []).find? fun e => st.stillWaits (.phase e.1 e.2) then
      .next (st.waitFor (.phase x.1 x.2))
    else if both && st.team.wbuf.any (fun w => w.agent == st.groupIdx) then .next (st.waitFor (.held []))
    else if acquires then st.afterAtomics true (st.afterDemands (if 2 ≤ scope then st.recorded.map Prod.snd else []) go) else go
  st.inTurn acquires (ready ((if both then st.compareFirst forcedRecord else id) ((if acquires then st.afterLeader else id)
    (let s := if both then st.writeBackDirty ((st.leaderCore st.gid).getD st.coreId) else st
     let s := if acquires && decide (2 ≤ scope) then s.acquireRecorded else s
     (if releases then s.setSpl { s.spl with rel := s.releaseScope (some scope) } else s).done))))

/-- What the leader of the executing group's set sees, and the state after something it does. -/
def State.leaderView (s : State) : State := s.at_ (((s.partners s.gid).find? s.leads).getD s.gid) s.slot
def State.atLeader (s : State) (act : State → State) : State := (act s.leaderView).at_ s.gid s.slot
/-- A follower takes the value that the leader has forwarded for its instruction (R396, R403): it waits for it, or, where the
leader has passed and the value is not on the wires any more, as after a re-seed, the leader reads it again. -/
def State.forwardedOr (s : State) (take : State → DWord → Out) (again : State → State × DWord) : Out :=
  let r := s.grp.repl
  let n := s.grp.place_
  match r.forwarded.find? fun e => e.1 == n with
  | some e => take (s.setRepl { r with forwarded := r.forwarded.filter fun f => decide (n.toNat < f.1.toNat) }) e.2
  | none =>
    let onWay := r.due.any fun f => match f with
      | .value k _ => k == n
      | .result _ => false
    if s.leaderPassed && !onWay then take (again s).1 (again s).2
    else .next ((s.setRepl { r with since := s.time.cycle }).waitFor .rendezvous)

/-- R400, R401, R403: the acquiring load: the leader performs it and forwards the value, a follower takes it. -/
def State.lda (s : State) (scope d a b : Nat) : Out :=
  let x := s.groupAddr a b
  s.access 8 .read anyTarget true true [x] fun p =>
    s.afterPhases (some scope) 8 (p.map Prod.snd) (if s.follows then s.forwardedOr (fun t v => ((t.wrG d v latVar).selfInvalidate s.coreId).done)
      fun u => ((u.atLeader fun u => u.polled (u.placeOf .read x) 8 (decide (scope < 2))),
        BitVec.ofNat 64 (u.leaderView.pollRead (u.leaderView.placeOf .read x) 8))
    else
      s.afterDemands (if 2 ≤ scope then s.wicksOf (placeLines p) else [])
        (let t := s.polled (s.placeOf .read x) 8 (decide (scope < 2))
         let v := BitVec.ofNat 64 (t.pollRead (s.placeOf .read x) 8)
         let t := t.acquireAt scope (if anyScratch p then [] else placeLines p)
         let t := if t.replicated then t.forward (.value t.grp.place_ v) else t
         (t.wrG d v latVar).done))

/-- A release store of a leader at its home is a write-back of its core towards the followers' shadows: a notice follows (R377). -/
def State.noticeStore (s : State) (t : Target) : State :=
  match t.line with
  | some l =>
    if !s.replicated then s
    else
      let cores := (((s.partners s.gid).filter (· != s.gid)).map fun g => (AMap.get {} s.groups g : Group).place.core).eraseDups
      { s with mem := { s.mem with notices := s.mem.notices ++ (cores.map fun c => (c, l)) } }
  | none => s
/-- A follower's release store goes to its shadow, which its compare has verified already (R403); where the leader has performed its
own, the home has the bytes. -/
def State.shadowStore (s : State) (t : Target) (x : Nat) : State :=
  match t with
  | .scratch team off => s.scratchWrite team off 8 x
  | .memory leaf va pa =>
    if s.leaderPassed then s.dropShadow (leaf.tile va) (pa / 128)
    else
      let s := s.shadowWrite (s.grid.asid, va / 128) (leaf.tile va) [pa / 128] pa 8 x
      let m := AMap.get [] s.core.shadows s.gid
      let y : L1Line := AMap.get {} m (pa / 128)
      let m := AMap.set m (pa / 128) { y with verified := true }
      s.setCore { s.core with shadows := AMap.set s.core.shadows s.gid m }

/-- R400, R401, R403, R428: the releasing store: the leader's write is performed at the home, a follower's in its shadow. The pending
release that it takes adds a record of its own (R399). -/
def State.stl (s : State) (own d a b : Nat) : Out :=
  let x := s.groupAddr a b
  let scope := s.releaseScope (some own)
  s.access 8 .write anyTarget true true [x] fun p =>
    s.withRoom (if s.follows then placeLines p else []) (s.afterAtomics true (s.afterDemands (s.wicksOf (placeLines p))
      (s.compareFirst (sigRecord x.toNat 0x40 (leBytes 8 (s.rdG d).toNat) ++ s.takenRecord x.toNat)
        (s.afterLeader
          (let at_ := s.placeOf .write x
           let t := if s.follows then s.shadowStore at_ (s.rdG d).toNat
             else s.releasing scope p fun s => (s.writeHome at_ 8 (s.rdG d).toNat).noticeStore at_
           (t.noteRelease 8 p).clearRelease.done)))))

/-- R401: at group scope. -/
def execLdaGrp (_ : BitVec 3) (d a b : BitVec 6) (st : State) : Out := st.lda 0 d.toNat a.toNat b.toNat
/-- R401: at team scope. -/
def execLdaTeam (_ : BitVec 3) (d a b : BitVec 6) (st : State) : Out := st.lda 1 d.toNat a.toNat b.toNat
/-- R401: at cluster scope. -/
def execLdaClu (_ : BitVec 3) (d a b : BitVec 6) (st : State) : Out := st.lda 2 d.toNat a.toNat b.toNat
/-- R401: at die scope. -/
def execLdaDie (_ : BitVec 3) (d a b : BitVec 6) (st : State) : Out := st.lda 3 d.toNat a.toNat b.toNat
/-- R401: at device scope. -/
def execLdaDev (_ : BitVec 3) (d a b : BitVec 6) (st : State) : Out := st.lda 4 d.toNat a.toNat b.toNat
/-- R401: at system scope. -/
def execLdaSys (_ : BitVec 3) (d a b : BitVec 6) (st : State) : Out := st.lda 5 d.toNat a.toNat b.toNat
/-- R401: at group scope. -/
def execStlGrp (_ : BitVec 3) (d a b : BitVec 6) (st : State) : Out := st.stl 0 d.toNat a.toNat b.toNat
/-- R401: at team scope. -/
def execStlTeam (_ : BitVec 3) (d a b : BitVec 6) (st : State) : Out := st.stl 1 d.toNat a.toNat b.toNat
/-- R401: at cluster scope. -/
def execStlClu (_ : BitVec 3) (d a b : BitVec 6) (st : State) : Out := st.stl 2 d.toNat a.toNat b.toNat
/-- R401: at die scope. -/
def execStlDie (_ : BitVec 3) (d a b : BitVec 6) (st : State) : Out := st.stl 3 d.toNat a.toNat b.toNat
/-- R401: at device scope. -/
def execStlDev (_ : BitVec 3) (d a b : BitVec 6) (st : State) : Out := st.stl 4 d.toNat a.toNat b.toNat
/-- R401: at system scope. -/
def execStlSys (_ : BitVec 3) (d a b : BitVec 6) (st : State) : Out := st.stl 5 d.toNat a.toNat b.toNat

/-- The core that a victim descriptor names (R404): in deterministic mode the place of the team that R64 puts there, the
acquirer's own cluster before the others (log 31). -/
def State.victim (s : State) (x : DWord) : Option Nat :=
  let core := (x.extractLsb' 0 7).toNat
  let die := (x.extractLsb' 7 2).toNat
  if !s.deterministic then some (72 * die + core)
  else
    let l := s.grid.launch
    let places := (s.clusterId :: s.clustersOf s.gridId).flatMap fun c =>
      if (s.clusterAt c).cluidx % 4 == die && ((s.clusterAt c).replica == s.cluster.replica) then
        (s.teamsOf c).filter fun t => (t % 12) / l.width * 9 + t % 12 % l.width == core
      else []
    places.head?.map fun t => (s.teamAt t).core

/-- Write back every line of a core and invalidate its L1, counting the lines written back (R352, R404). -/
def State.drainCore (s : State) (core : Nat) : State × Nat :=
  let dirty := (s.coreAt core).l1.filter fun e => e.2.dirty != 0 && e.2.owner.isNone
  let s := s.writeBackDirty core
  let c := s.coreAt core
  (s.setCoreAt core (CoreState.sweepHeaders { c with l1 := c.l1.filter fun e => e.2.owner.isSome }), dirty.length)

/-- R352, R404, R405: the remote acquire. DESIGN CHOICE (log 31): in deterministic mode a place where no team of the grid stands has no
core to drain, and the count is 0. -/
def execAcqr (_ : BitVec 3) (g h : BitVec 6) (st : State) : Out :=
  let x := st.rdG g.toNat
  st.checked (x.extractLsb' 9 55 == 0 && decide ((x.extractLsb' 0 7).toNat < 72) && st.inService (x.extractLsb' 7 2).toNat)
    (st.inTurn true (st.once (st.groupEntry [x])
      (fun s => match s.victim x with
        | some core => let (t, n) := s.drainCore core
                       (t, { s.groupEntry [x] with result := BitVec.ofNat 64 n })
        | none => (s, s.groupEntry [x]))
      fun s e => ((s.selfInvalidate s.coreId).wrG h.toNat e.result latVar).done))

/-- A wait is over (R354, R259, R380): a target that was waited for is cleared and the split acquires; at team level too, where engines may
have arrived, their writes at home are seen, and by later commands (R240). -/
def State.finishWait (s : State) (level num : Nat) (phase : Word) (own : Bool) : Out :=
  let b := s.barrier level num
  let s := if own then s.setBarrier level num { b with targets := AMap.drop b.targets (s.member level) } else s
  let engines := level == 1 && s.team.ctxs.any fun x => x.2.issued != 0
  let s := if 2 ≤ level || engines then s.selfInvalidate s.coreId else s
  let reached := fun (p : Word) => decide ((phase - p).toNat < 2 ^ 31)
  let s := if level == 1 then s.waited fun u => match u.bar with
      | some (n, p) => n == num && reached p
      | none => false
    else s
  let s := if s.replicated && level == 1 then
      s.setRepl { s.grp.repl with
        engine := s.grp.repl.engine.map fun e => match e.bar with
          | some (n, p) => if n == num && reached p then { e with acquired := true } else e
          | none => e }
    else s
  s.done

/-- Wait for a phase, or go on (R409); in deterministic mode after the serial phase, where another team has arrived in this period
(R394). -/
def State.waitPhase (s : State) (level num : Nat) (phase : Word) (own : Bool) : Out :=
  if s.stillWaits (.barrier level num phase own) then .next (s.waitFor (.barrier level num phase own))
  else s.finishWait level num (s.phaseOf level num phase own) own

/-- The phase that the executing split waits for already. -/
def State.waitsFor (s : State) : Option (Word × Bool) :=
  match s.spl.wait with
  | some (.barrier _ _ p own) => some (p, own)
  | _ => none

/-- The arrival of `bar` and `bara` (R408, R411): its test, the AtomicOps before it (R340), the compare, the arrival; then what
follows. -/
def State.arrival (s : State) (level num : Nat) (k : State → Out) : Out :=
  s.checked (s.barrierLegal level && !(s.barrier level num).uncounted s.role.toNat)
    (s.inTurn true (s.afterAtomics true (s.compareFirst (sigRecord (16 * level + num) 0x43 [])
      (s.afterLeader (k (s.arriveBarrier level num))))))

/-- R406, R408, R409: an arrival and the wait. -/
def execBar (_ : BitVec 3) (l : BitVec 2) (n : BitVec 4) (st : State) : Out :=
  match st.waitsFor with
  | some p => st.waitPhase l.toNat n.toNat p.1 p.2
  | none => st.arrival l.toNat n.toNat fun s =>
      s.waitPhase l.toNat n.toNat (AMap.get 0 (s.barrier l.toNat n.toNat).targets (s.member l.toNat)) true

/-- R408: an arrival alone. -/
def execBara (_ : BitVec 3) (l : BitVec 2) (n : BitVec 4) (st : State) : Out := st.arrival l.toNat n.toNat State.done

/-- R409: the wait alone. -/
def execBarw (_ : BitVec 3) (l : BitVec 2) (n : BitVec 4) (st : State) : Out :=
  match st.waitsFor with
  | some p => st.waitPhase l.toNat n.toNat p.1 p.2
  | none =>
    let b := st.barrier l.toNat n.toNat
    let m := st.member l.toNat
    st.checked (st.barrierLegal l.toNat && (AMap.has b.targets m || b.count))
      (st.inTurn true (st.afterLeader
        (st.waitPhase l.toNat n.toNat (if AMap.has b.targets m then AMap.get 0 b.targets m else b.phase) (AMap.has b.targets m))))

/-- Does a setting keep R410? -/
def settingLegal (x : DWord) : Bool :=
  let counts := x &&& 0x0000FFFFFFFFFFFF#64
  x.extractLsb' 48 15 == 0 && (List.range 4).all (fun k => decide (counter x k ≤ 32)) &&
  (if settingOff x then counts == 0 else counts != 0)

/-- R410: a setting, at once or from the next phase. -/
def execBarc (_ : BitVec 3) (n : BitVec 4) (g : BitVec 6) (st : State) : Out :=
  let x := st.rdG g.toNat
  let b := st.barrier 1 n.toNat
  st.checked (settingLegal x)
    (st.inTurn true (st.afterLeader
      (let c := if b.arrived.isEmpty && b.counted == 0 && !st.hasWaiter 1 n.toNat then
          { b with count := !settingOff x, expected := (if settingOff x then 0 else x), pending := none }
        else { b with pending := some x }
       (st.setBarrier 1 n.toNat c.retarget).done)))

/-- The tests of `trdy` and `twt` on their tile, in the order of R412, then the tile's use. -/
def State.onTile (s : State) (k : Need) (x : DWord) (reserved : DWord) (go : TileRef → Header → Out) : Out :=
  let a := x &&& 0x00FFFFFFFFFFFFFF#64
  s.checked (x &&& reserved == 0 && !inScratchAperture a)
    (match s.target a k with
     | .error c => s.raise c (a.setWidth 56)
     | .ok (.scratch _ _) => s.illegalOperand
     | .ok (.memory leaf va _) =>
       match leaf.tile va with
       | none => s.illegalOperand
       | some t =>
         let h := s.header t.header
         if h.kind == 3 then s.raise 0x08 h.torn1 h.torn2
         else if s.poisoned (t.header / 128) then s.raise 0x09 (a.setWidth 56)
         else go t h)

/-- The place of a tile's header, by which a ready mark is a release and its wait an acquire (R394). -/
def markPlace (t : TileRef) : Target := .memory {} 0 t.header

/-- R413: the ready mark. -/
def execTrdy (_ : BitVec 3) (g : BitVec 6) (st : State) : Out :=
  let x := st.rdG g.toNat
  st.onTile .write x 0x7F00000000000000 fun t h =>
    st.inTurn true (st.afterAtomics true (st.compareFirst (sigRecord t.va 0x45 [])
      (st.afterLeader
       (if h.lock then .next (st.waitFor (.lock t.header))
       else if st.follows then st.done
       else if let some l := (st.core.tileLines t).find? (st.foreign st.coreId) then .next (st.waitFor (.line l))
       else
         let s := (st.core.tileLines t).foldl (fun s l => s.writeBack s.coreId l) st
         let h := s.header t.header
         let s := s.commitHeader t h { h with ready := !x.getLsbD 63 }
         (if x.getLsbD 63 then s
          else (s.noteRelease 32 [(0, markPlace t)]).releaseClocks s.regs.clock fun _ _ w => w.wait == some (.ready t.va)).done))))

/-- R414: the wait for a ready mark; a mark set by another team in this period is acquired after the serial phase (R394). -/
def execTwt (_ : BitVec 3) (g : BitVec 6) (st : State) : Out :=
  let x := st.rdG g.toNat
  st.onTile .read x 0xFF00000000000000 fun t h =>
    st.inTurn true (st.afterLeader (if !h.ready && !(st.deterministic && st.follows) then .next (st.waitFor (.ready t.va))
      else st.afterPhases (some 4) 32 [markPlace t] (st.dropClean st.coreId t).done))

/-- R415, R416: a token on its way to the command processor. -/
def execSnuff (_ : BitVec 3) (g : BitVec 6) (st : State) : Out :=
  let x := st.rdG g.toNat
  st.checked (hiWord x == 0 && loWord x != 0)
    (st.inTurn true (st.once (st.groupEntry [x])
      (fun s => ({ s with cp := { s.cp with snuffs := s.cp.snuffs ++ [loWord x] } }, s.groupEntry [x]))
      fun s _ => s.done))

/-- R417, R396: the logical clock; in both modes a follower takes the leader's. -/
def execDclk (_ : BitVec 3) (g : BitVec 6) (st : State) : Out :=
  if !(st.deterministic && st.replicated) then st.inTurn true (st.wrG g.toNat st.regs.clock latVar).done
  else if st.follows then st.forwardedOr (fun t v => (t.wrG g.toNat v latVar).done) fun t => (t, t.regs.clock)
  else st.inTurn true ((st.forward (.value st.grp.place_ st.regs.clock)).wrG g.toNat st.regs.clock latVar).done

/-- R418: a wait for the serial phase; outside deterministic mode nothing. -/
def execDsync (_ : BitVec 3) (st : State) : Out :=
  if !st.deterministic then st.done
  else if st.follows then st.afterLeader (st.selfInvalidate st.coreId).done
  else match st.spl.wait with
  | some (.period n) =>
    if (st.grid.det.period - n).toNat < 2 ^ 31 then (st.selfInvalidate st.coreId).done else .next (st.waitFor (.period n))
  | _ => st.inTurn true (.next (st.waitFor (.period (st.grid.det.period + 1))))

/-- R420: the signature so far. -/
def execRsig (_ : BitVec 3) (g : BitVec 6) (st : State) : Out :=
  (st.wrG g.toNat (if st.replicated then st.grp.repl.sig else 0) latVar).done

/-- R421: a forced compare. -/
def execRchk (_ : BitVec 3) (st : State) : Out := st.compareFirst forcedRecord st.done

end Sys2Proof.Machine
end

