-- ==== Sys2Proof/Machine/Directory.lean ====
section
/-! DEFINITION. The steps of the coherence protocol as they stand alone (R356 to R368): requests at the home, messages, back
invalidations, and the steps of the wick (R347, R348, R351) and of tiled lines (R231). -/

namespace Sys2Proof.Machine

/-- Does the device hold a directory for a line, at this module (R356, R366, R368): device HBM of a die that has not failed,
and in the CXL personality host memory? -/
def State.hasDirectory (s : State) (line : Nat) : Bool :=
  match kindOf (128 * line) with
  | 0 => decide (128 * line < Config.hbmBytes) && (match homeDie line with
    | some d => !s.lamp.failed.contains d
    | none => false)
  | 1 => !s.plainPcie
  | _ => false

/-- May an agent ask for a line (R356, R367, R368)? The home die's own L2 is no agent; the host is one in the CXL
personality. -/
def State.agentOf (s : State) (agent line : Nat) : Bool :=
  s.hasDirectory line &&
  (if agent < 4 then s.inService agent && homeDie line != some agent
   else agent == 4 && !s.plainPcie && kindOf (128 * line) == 0)

/-- Does the fabric run (R14, R459, R461): is the module part of a domain, and the service more than reduced? -/
def State.fabricOn (s : State) : Bool := s.host.modnum.getLsbD 31 && s.level != 0 && s.level != 1
/-- May another module of the domain ask the home switch for a line of this module (R366)? -/
def State.moduleAsks (s : State) (m line : Nat) : Bool :=
  s.fabricOn && s.hasDirectory line && kindOf (128 * line) == 0 && decide (m < 1024) &&
    m != s.host.modnum.toNat % 1024 && !s.lamp.unreachable.contains m
/-- The home switch's entry of a line (R366). -/
def State.switchEntry (s : State) (line : Nat) : SwitchEntry := AMap.get {} s.mem.switch line
/-- The set of the snoop filter in which a line lies (R366). -/
def switchSet (line : Nat) : Nat := Config.switchSet line % Config.switchSets
/-- The line of an entry used least lately. -/
def oldestSwitch : AMap SwitchEntry → Option (Nat × SwitchEntry)
  | [] => none
  | e :: r =>
    match oldestSwitch r with
    | some f => if f.2.used < e.2.used then some f else some e
    | none => some e
/-- The home switch makes room for a line's entry: a full set evicts the entry used least lately, whose modules invalidate, and
write back if dirty (R366). -/
def State.switchRoom (s : State) (line : Nat) : State :=
  let rivals := s.mem.switch.filter fun e => e.1 != line && switchSet e.1 == switchSet line
  if AMap.has s.mem.switch line || decide (rivals.length < Config.ways) then s
  else match oldestSwitch rivals with
    | some v => State.settle 64 v.1 ((State.settle 64 v.1 s).sendBack v.1 5)
    | none => s
/-- Give a line's entry a state and its modules. -/
def State.setSwitch (s : State) (line : Nat) (st : BitVec 3) (modules : List Nat) : State :=
  { s with mem := { s.mem with
      tick := s.mem.tick + 1, switch := AMap.set s.mem.switch line { st := st, modules := modules, used := s.mem.tick + 1 } } }

/-- A read of a module at the home switch (R366): beside clean holders it is added; from a holder in E or M the data comes across
the fabric and to the home, as R361; else the fabric agent reads from the home, E to the module where the home grants it E, S
where other agents keep copies (log 8). -/
def State.fabricRead (s : State) (m line : Nat) : Option State :=
  let e := s.switchEntry line
  if e.modules.contains m then none
  else if e.st == 1 then some (s.setSwitch line 1 (e.modules ++ [m]))
  else if e.st != 0 then some ((s.homeDieRead line (BitVec.allOnes 128)).setSwitch line 1 (e.modules ++ [m]))
  else
    let t := (s.switchRoom line).request line (.read 5 (BitVec.allOnes 128))
    let d := t.dirEntry line
    if d.ag.getLsbD 5 then some (t.setSwitch line (if d.st == 2 then 2 else 1) [m]) else none
/-- An own of a module at the home switch (R366): other modules give the line up, a dirty one with its data; M to the module. Tiles that its bytes reach are materialised first (R227). -/
def State.fabricOwn (s : State) (m line : Nat) (mask : BitVec 128) (bytes : BitVec 1024) : Option State :=
  let t := ((s.switchRoom line).plainLine line mask).request line (.own 5 mask bytes)
  if (t.dirEntry line).ag.getLsbD 5 then some (t.setSwitch line 3 [m]) else none

/-- May a host access to memory be served now: the address names device HBM or host memory, no lease holds the page (R57), and the
page is not the device's, or it is shared (R218)? A page that is the device's flips first. -/
def State.hostMay (s : State) (pa : Nat) : Bool :=
  ((decide (pa < Config.hbmBytes) && s.level != 0) || kindOf pa == 1) && !s.pageLeased pa && (s.mappings pa).all fun e => e.2.sa

/-- A step that may find nothing to do. -/
def Out.ofOption (o : Option State) : Out :=
  match o with
  | some s => .next s
  | none => .fault .notEnabled

/-- READ (R218, R360, R366): a fill request for a load of an agent that does not hold the line; from agent 5 on, of the module whose
number follows. -/
def execRead (agent line : Nat) (s : State) : Out :=
  if 5 ≤ agent then (if s.moduleAsks (agent - 5) line then Out.ofOption (s.fabricRead (agent - 5) line) else .fault .notEnabled)
  else if s.agentOf agent line && !(s.dirEntry line).ag.getLsbD agent && (agent != 4 || s.hostMay (128 * line)) then .next (s.serve line (.read agent (BitVec.allOnes 128)))
  else .fault .notEnabled

/-- The core of a die whose L1 holds just these dirty bytes of a line, free to leave (R374). -/
def State.writerOf (s : State) (die line : Nat) (mask : BitVec 128) (bytes : BitVec 1024) : Option Nat :=
  (s.cores.find? fun c =>
    let x := AMap.get {} c.2.l1 line
    decide (c.1 / 72 = die) && x.dirty == mask && mask != 0 && x.owner.isNone &&
      x.data &&& spread mask == bytes &&& spread mask).map Prod.fst
/-- Does a die perform a write-back of these bytes in its own copy (R357)? -/
def State.ownsBytes (s : State) (die line : Nat) (mask : BitVec 128) : Bool :=
  let e := s.dirEntry line
  e.ag.getLsbD die && (e.exclusive || (e.st == 4 && mask &&& ~~~(e.copy die).claim == 0))
/-- A core's write-back goes to the home as an Own of its die (R429); the L1 keeps the bytes clean. -/
def State.sendOwn (s : State) (core line : Nat) : State :=
  let x := s.l1 core line
  let s := ((touchedTiles x.tile line x.dirty).foldl State.plainTile s).serve line (.own (core / 72) x.dirty x.data)
  let s := s.setL1 core line { x with dirty := 0, tag := none, valid := x.valid ||| x.dirty }
  { s with mem := { s.mem with notices := s.mem.notices ++ (s.shadowCores core line).map (fun c => (c, line)) } }

/-- OWN (R218, R227, R360, R362, R366, R429): a fill for a store or an upgrade: of a die the write-back of a core's bytes that the die
cannot perform in its own copy, of the host its bytes where the page is its own, and from agent 5 on those of the module whose number follows. -/
def execOwn (agent line : Nat) (mask : BitVec 128) (bytes : BitVec 1024) (s : State) : Out :=
  if 5 ≤ agent then
    (if s.moduleAsks (agent - 5) line && mask != 0 then Out.ofOption (s.fabricOwn (agent - 5) line mask bytes) else .fault .notEnabled)
  else if !s.agentOf agent line || mask == 0 then .fault .notEnabled
  else if agent = 4 then
    (if s.hostMay (128 * line) then .next ((s.plainLine line mask).serve line (.own agent mask bytes)) else .fault .notEnabled)
  else match s.writerOf agent line mask bytes with
    | some core => if s.ownsBytes agent line mask then .fault .notEnabled else .next (s.sendOwn core line)
    | none => .fault .notEnabled

/-- HOME_WRITE (R360): a write at the home slice: the write-back of a core of the home die; or of a line of a peer that this module
does not hold, a write performed at its home there (R461). -/
def execHomeWrite (line : Nat) (mask : BitVec 128) (bytes : BitVec 1024) (s : State) : Out :=
  match (homeDie line).bind fun d => s.writerOf d line mask bytes with
  | some core => .next (s.writeBack core line)
  | none =>
    if kindOf (128 * line) == 2 && s.fabricOn && !AMap.has s.mem.peerLines line && !s.poisoned line && mask != 0 then
      .next (s.putHome line mask bytes)
    else .fault .notEnabled

/-- CLAIM_ACCESS (R363, R364): a holder of a privatised line reaches bytes outside its claim. -/
def execClaimAccess (agent line : Nat) (mask : BitVec 128) (s : State) : Out :=
  let e := s.dirEntry line
  if s.agentOf agent line && e.st == 4 && !e.busy && e.ag.getLsbD agent && mask &&& ~~~(e.copy agent).claim != 0 then
    .next ((s.claimRead line agent mask).touch line)
  else .fault .notEnabled

/-- A recall of a line of a peer by its home switch reaches this module (R366): what remains of its hold. -/
def State.peerRecall (s : State) (line : Nat) (p : BitVec 3 → Bool) (left : Option (BitVec 3)) : Out :=
  if kindOf (128 * line) == 2 && AMap.has s.mem.peerLines line && p (AMap.get 0 s.mem.peerLines line) then
    .next (match left with
      | some st => s.setPeer line st
      | none => { s with mem := { s.mem with peerLines := AMap.drop s.mem.peerLines line } })
  else .fault .notEnabled

/-- Deliver the first message that satisfies a test; where there is none, something else may happen. -/
def State.deliverOr (s : State) (p : Msg → Bool) (other : Out) : Out :=
  match s.takeMsg p with
  | some (m, t) => .next (t.onMsg m)
  | none => other
def State.deliverMsg (s : State) (p : Msg → Bool) : Out := s.deliverOr p (.fault .notEnabled)
/-- Is something on its way from an agent about a line? -/
def State.agentSends (s : State) (line a : Nat) : Bool :=
  s.mem.msgs.any fun m => match m with
    | .wbData l b _ _ _ => l == line && b == a
    | .invAck l b => l == line && b == a
    | _ => false
/-- An agent gives its copy back by itself (R360): a clean one, or a dirty one. A forward may be on its way to it then, and finds
the line gone (R361); its notice or its bytes arrive by a step of their own. -/
def State.givesBack (s : State) (line : Nat) (p : Nat → Copy → Bool) : Out :=
  let e := s.dirEntry line
  match (if e.busy && e.st == 4 then none
         else e.holders.find? fun a => AMap.has e.copies a && (e.copy a).here && !s.agentSends line a && p a (e.copy a)) with
  | some a => .next (s.sendBack line a)
  | none => .fault .notEnabled

/-- FWD (R361): the home's forward reaches the holder; of a line of a peer, this module, which keeps S (R366). -/
def execFwd (line : Nat) (s : State) : Out :=
  s.deliverOr (fun m => match m with
    | .fwd l _ => l == line
    | _ => false) (s.peerRecall line (fun st => st == 2 || st == 3) (some 1))
/-- FWD_DATA (R361): the holder's copy reaches the requester. -/
def execFwdData (line : Nat) (s : State) : Out :=
  s.deliverMsg fun m => match m with
    | .fwdData l _ _ _ _ => l == line
    | _ => false
/-- WB_DATA (R357, R360, R361): the holder's bytes reach the home; with none on their way, a holder gives its dirty copy, or its
claim, back by itself. -/
def execWbData (line : Nat) (s : State) : Out :=
  s.deliverOr (fun m => match m with
    | .wbData l _ _ _ _ => l == line
    | _ => false) (s.givesBack line fun _ c => c.dirty != 0 || c.claim != 0)
/-- INV (R360): an invalidation reaches a holder; of a line of a peer that this module shares, this module (R366). -/
def execInv (agent line : Nat) (s : State) : Out :=
  s.deliverOr (fun m => match m with
    | .inv l a => l == line && a == agent
    | _ => false) (if agent = 5 then s.peerRecall line (· == 1) none else .fault .notEnabled)
/-- INV_ACK (R360): an acknowledgement or a clean notice reaches the home; with none on its way, an agent gives its clean copy back
by itself. -/
def execInvAck (agent line : Nat) (s : State) : Out :=
  s.deliverOr (fun m => match m with
    | .invAck l a => l == line && a == agent
    | _ => false) (s.givesBack line fun a c => a == agent && c.dirty == 0 && c.claim == 0)
/-- DATA (R360): a grant reaches the requester. -/
def execData (agent line : Nat) (s : State) : Out :=
  s.deliverMsg fun m => match m with
    | .data l a => l == line && a == agent
    | _ => false

/-- BINV (R365): a back-invalidation reaches an agent of an evicted line; of a line of a peer, this module, which writes back what
it holds dirty (R366). -/
def execBinv (agent line : Nat) (s : State) : Out :=
  s.deliverOr (fun m => match m with
    | .binv l a => l == line && a == agent
    | _ => false) (if agent = 5 then s.peerRecall line (fun _ => true) none else .fault .notEnabled)

/-- DEMAND (R348, R374): the core that a line's wick names writes back every line tagged at or before its epoch; it waits while
one of them is unverified. -/
def execDemand (line : Nat) (s : State) : Out :=
  let w := s.wick line
  if w.v && !w.dr && !(s.mem.demands.any fun d => d.line == line) && !s.demandWaits w then
    let t := s.writeBackAll w.coreId fun _ x => match x.tag with
      | some t => atOrBefore t w.epoch
      | none => false
    .next { t with mem := { t.mem with demands := t.mem.demands ++
      [{ line := line, die := w.die.toNat, core := w.core.toNat, epoch := w.epoch, done := true }] } }
  else .fault .notEnabled

/-- DEMAND_ACK (R348, R429): every write-back has been performed; the wick gets DR if it still names that release. -/
def execDemandAck (line : Nat) (s : State) : Out :=
  match s.mem.demands.find? fun d => d.line == line && !s.ownPending d.die with
  | none => .fault .notEnabled
  | some d =>
    let s := { s with mem := { s.mem with demands := s.mem.demands.filter fun d => d.line != line } }
    let w := s.wick line
    .next (if w.v && w.die.toNat == d.die && w.core.toNat == d.core && w.epoch == d.epoch then s.setWick line { w with dr := true }
      else s)

/-- EPOCH_WRITEBACK (R347): a core whose counter has passed a multiple of 2^18 writes back every tagged line. -/
def execEpochWriteback (core : Nat) (s : State) : Out :=
  if s.mem.epochDue.contains core then
    let t := s.writeBackAll core fun _ x => x.tag.isSome
    .next { t with mem := { t.mem with epochDue := t.mem.epochDue.erase core } }
  else .fault .notEnabled

/-- Has an L1 held a line of a tiled page for some mesh cycles (R231, R9)? An unverified line stays (R374). Where Lamplighter has
set no clock no time passes. -/
def State.heldFor (s : State) (core : Nat) (x : L1Line) (n : Nat) : Bool :=
  let clock := s.lamp.clocks.getD (core / 72) 0
  x.tile.isSome && x.owner.isNone && clock != 0 &&
    decide (n * clock ≤ x.aged * clock + (s.time.cycle - x.filled) * Config.meshClock)
/-- TILED_LINE_DROP (R231): a line of a tiled page that has been held for 65,535 mesh cycles leaves an L1. -/
def execTiledLineDrop (core line : Nat) (s : State) : Out :=
  if AMap.has (s.coreAt core).l1 line && s.heldFor core (s.l1 core line) Config.tiledLineLife then
    let t := s.purge core line
    .next (t.setCoreAt core (CoreState.sweepHeaders (t.coreAt core)))
  else .fault .notEnabled
/-- At the latest in the cycle after, such lines leave every L1. -/
def State.dropAged (s : State) : State :=
  let old := s.cores.flatMap fun c => (c.2.l1.filter fun e => s.heldFor c.1 e.2 (Config.tiledLineLife + 1)).map fun e => (c.1, e.1)
  old.foldl (fun s e =>
    let t := s.purge e.1 e.2
    t.setCoreAt e.1 (CoreState.sweepHeaders (t.coreAt e.1))) s

/-- The split of a group that is ready to issue a `pst` of two blocks. -/
def State.pairSlot (s : State) (va vb : Nat) : Option Nat :=
  slots.find? fun k =>
    let u := s.at_ s.gid k
    u.standing k == .ready && match (u.wordAt k).bind u.accepted with
      | some (.pst _ _ a b) => (u.rdG a.toNat).toNat == va && (u.rdG b.toNat).toNat == vb
      | _ => false

/-- The instruction of PAIR_TORN: a paired store that a hardware error interrupts. -/
def runTorn (i : Instr) (s : State) : Out :=
  match i with
  | .pst _ d a b => s.paired true d a b
  | _ => .fault .notEnabled

/-- PAIR_TORN (R234, R236): a group's paired store meets a hardware error between the taking and the release of its locks;
in replica mode it meets it when the held store is performed (R478). -/
def execPairTorn (group va vb : Nat) (s : State) : Out :=
  match (s.at_ group 0).pairSlot va vb with
  | none => .fault .notEnabled
  | some k =>
    match (s.at_ group k).issue runTorn with
    | .next t => .next (t.settleGroup.at_ s.gid s.slot)
    | o => o

end Sys2Proof.Machine
end

