-- ==== Sys2Proof/Machine/HostSide.lean ====
section
/-! DEFINITION. What the host does to the device: registers and doorbells (R42, R43, R459, R460, R477), snoops and accesses
over CXL (R367, R368, R479), accesses and AtomicOps over plain PCIe (R458, R472, R473). -/

namespace Sys2Proof.Machine

/-- Is a dependence met (R47, R48)? A team that has ended meets every dependence on it. -/
def State.depMet (s : State) (g : Grid) (d : Dependence) : Bool :=
  match d.kind with
  | 1 =>
    let q := s.queue d.index
    if d.value.getLsbD 63 then decide (d.value.toNat ≤ q.devDone.toNat) else decide (d.value.toNat ≤ q.done.toNat)
  | 2 =>
    let t := s.teamAt g.sub.team
    !t.live || t.ended || decide (d.value.toNat ≤ (AMap.get {} t.ctxs d.index : EngineCtx).counter.toNat)
  | _ => true

/-- Forget the dependences that are met: each stays met (R47). -/
def State.noteMet (s : State) : State :=
  { s with grids := AMap.mapVals (fun _ g =>
      if g.live && g.phase == .waiting then { g with deps := g.deps.filter fun d => !s.depMet g d } else g) s.grids }

/-- The bits of the queue registers that hold fields (R8, R42). -/
def qctlBits (v : Word) : Word := v &&& 0xFFFF00FF#32
def qbaseBits (v : DWord) : DWord := v &&& 0x00FFFFFFFFFF0000#64

/-- QCTL_WRITE (R42, R43): a write that sets EN starts the ring and its numbering again; while EN is 1 only PCAP and EN
change. -/
def execQctlWrite (q : Nat) (v : BitVec 32) (s : State) : Out :=
  if 64 ≤ q then .fault .notEnabled
  else
    let x := s.queue q
    let v := qctlBits v
    let cfg := fun (x : Queue) => { x with stat := x.stat ||| 4 }
    if qctlEn x.ctl then
      if qctlAsid v != qctlAsid x.ctl || qctlLogn v != qctlLogn x.ctl then .next (s.setQueue q (cfg x))
      else .next (s.setQueue q { x with ctl := v })
    else if !qctlEn v then .next (s.setQueue q { x with ctl := v })
    else if qctlLogn v < 4 || 12 < qctlLogn v then .next (s.setQueue q (cfg { x with ctl := v &&& 0xFFFFFFFE#32 }))
    else
      let s := s.noteMet
      .next (s.setQueue q { x with
        ctl := v, head := 0, tail := 0, done := 0, doneSet := [], hostNum := 0, enGen := x.enGen + 1 })

/-- QBASE_WRITE (R42). -/
def execQbaseWrite (q : Nat) (v : BitVec 64) (s : State) : Out :=
  if 64 ≤ q then .fault .notEnabled
  else
    let x := s.queue q
    if !qctlEn x.ctl then .next (s.setQueue q { x with base := qbaseBits v })
    else if qbaseBits v == x.base then .next s
    else .next (s.setQueue q { x with stat := x.stat ||| 4 })

/-- QTAIL_DOORBELL (R42, R43, R460, R477): discarded at service level 0, with EN clear, or beyond the ring; a doorbell that
is accepted lets a stopped queue be read again. -/
def execQtailDoorbell (q : Nat) (v : BitVec 32) (s : State) : Out :=
  if 64 ≤ q then .fault .notEnabled
  else
    let x := s.queue q
    let i := (v.extractLsb' 0 12).toNat
    if s.level == 0 || !qctlEn x.ctl then .next (s.setQueue q { x with stat := x.stat ||| 2 })
    else if 2 ^ qctlLogn x.ctl ≤ i then .next (s.setQueue q { x with stat := x.stat ||| 1 })
    else .next (s.setQueue q { x with tail := BitVec.ofNat 12 i, stopped := false })

/-- QSTAT_CLEAR (R42, R477): a bit is cleared by writing 1; clearing RING lets the queue be read again. -/
def execQstatClear (q : Nat) (v : BitVec 32) (s : State) : Out :=
  if 64 ≤ q then .fault .notEnabled
  else
    let x := s.queue q
    .next (s.setQueue q { x with stat := x.stat &&& ~~~v, stopped := x.stopped && !v.getLsbD 4 })

/-- REGISTER_WRITE (R8, R459, R460): a write into BAR0. ASIDTAB and the queues' registers take it; every other offset is
read only or names nothing, and nothing changes. The offset after BAR0 stands for the Device Control 2 register of PCI
Express, whose bit 6 is AtomicOp Requester Enable (R473; log 33). -/
def execRegisterWrite (off : Nat) (v : BitVec 64) (s : State) : Out :=
  if off = 0x100 then .next { s with host := { s.host with asidtab := v &&& 0x000FFFFFFFFFF000#64 } }
  else if 0x10000 ≤ off && off < 0x10000 + 0x40 * 64 then
    let q := (off - 0x10000) / 0x40
    match (off - 0x10000) % 0x40 with
    | 0x00 => execQbaseWrite q v s
    | 0x08 => execQctlWrite q (loWord v) s
    | 0x0C => execQtailDoorbell q (loWord v) s
    | 0x20 => execQstatClear q (loWord v) s
    | _ => .next s
  else if off < 2 ^ 24 then .next s
  else if off = 2 ^ 24 then .next { s with host := { s.host with atomicEn := v.getLsbD 6 } }
  else .fault .notEnabled

/-- Record an answer to the host: data, or poison with data 0 (R479). -/
def State.answer (s : State) (data : BitVec 1024) (poison : Bool) : State :=
  { s with host := { s.host with answers := (some (if poison then 0 else data), poison) :: s.host.answers } }
/-- An answer without data. -/
def State.answerEmpty (s : State) : State := { s with host := { s.host with answers := (none, false) :: s.host.answers } }

/-- Does a host access to bytes of a line meet poisoned data (R236, R371, R479)? -/
def State.hostPoisoned (s : State) (line : Nat) (mask : BitVec 128) : Bool :=
  s.poisoned line || (s.lineTiles line mask).any fun t => (s.header t.header).kind == 3 || s.poisoned (t.header / 128)

/-- A line of device memory as the host link reads it: each byte through the view of its tile (R225). -/
def State.hostLine (s : State) (line : Nat) : BitVec 1024 :=
  let tiles := s.lineTiles line (BitVec.allOnes 128)
  lineBytes fun k => BitVec.ofNat 8 (s.homeRead (tiles.find? fun t => (t.within line).getLsbD k) (128 * line + k) 1)
def State.hostRead (s : State) (pa n : Nat) : Nat := (s.hostLine (pa / 128)).toNat / 2 ^ (8 * (pa % 128)) % 2 ^ (8 * n)

/-- A host write (R227, R230, R371, R479): shaded tiles are materialised first, a torn one takes raw bytes; a write of all
128 bytes clears a poison mark. -/
def State.hostWrite (s : State) (line : Nat) (mask : BitVec 128) (bytes : BitVec 1024) : State :=
  ((s.lineTiles line mask).foldl State.plainTile s).request line (.homeWrite mask bytes true)

/-- The state of the device towards the host for a line of host memory (R368). -/
def State.setHostState (s : State) (line : Nat) (st : BitVec 3) : State :=
  if AMap.has s.mem.dir line then s.setDir line { s.dirEntry line with host := st } else s

/-- MEM_RD (R367, R470, R479): a host read over CXL.mem, served at the home slice as agent 4; of the host's own memory its read, which
snoops the device (log 8). -/
def execMemRd (pa : Nat) (s : State) : Out :=
  if s.plainPcie || !s.hostMay pa then .fault .notEnabled
  else
    let line := pa / 128
    if s.hostPoisoned line (BitVec.allOnes 128) then .next (s.answer 0 true)
    else if kindOf pa == 1 then
      let t := s.homeDieRead line (BitVec.allOnes 128)
      .next ((t.setHostState line 1).answer (t.hostLine line) false)
    else
      let t := State.settle 64 line s
      let t := if (t.dirEntry line).ag.getLsbD 4 then t else t.request line (.read 4 (BitVec.allOnes 128))
      .next (t.answer (t.hostLine line) false)

/-- MEM_WR (R367, R371, R470, R479): a host write over CXL.mem; of the host's own memory its write, which recalls the line from the
device (log 8). To a failed die it completes poisoned. -/
def execMemWr (pa : Nat) (mask : BitVec 128) (bytes : BitVec 1024) (s : State) : Out :=
  if s.plainPcie || !s.hostMay pa then .fault .notEnabled
  else if (homeDie (pa / 128)).any s.lamp.failed.contains then .next (s.answer 0 true)
  else .next (s.hostWrite (pa / 128) mask bytes)

/-- A line of host memory that some die holds under the I/O die's filter (R368). -/
def State.snooped (s : State) (line : Nat) : Bool :=
  kindOf (128 * line) == 1 && !s.plainPcie && (s.dirEntry line).ag != 0 && !(s.dirEntry line).busy

/-- SNP_DATA (R367, R368, R471): the holders answer with data and keep S, and so does the device. -/
def execSnpData (line : Nat) (s : State) : Out :=
  if s.snooped line then
    let t := s.homeDieRead line (BitVec.allOnes 128)
    .next ((t.setHostState line 1).answer (t.homeLine line) false)
  else .fault .notEnabled
/-- SNP_INV (R367, R368, R471): data if a holder is dirty, and I. -/
def execSnpInv (line : Nat) (s : State) : Out :=
  if s.snooped line then
    let u := State.settle 64 line s
    let e := u.dirEntry line
    let dirty := e.exclusive && e.holders.any fun a => (e.copy a).dirty != 0
    let t := u.request line (.homeWrite 0 0)
    .next (if dirty then t.answer (t.homeLine line) false else t.answerEmpty)
  else .fault .notEnabled
/-- SNP_CUR (R367, R471): the current data, and no change. -/
def execSnpCur (line : Nat) (s : State) : Out :=
  if s.snooped line then
    .next (s.answer (BitVec.ofNat 1024 (s.physRead (128 * line) 128)) false)
  else .fault .notEnabled

/-- HOST_BAR2_ACCESS (R458, R57, R470, R479): an uncached host read or write of device memory, of bytes of one line, served at its
home slice; or the host's access to its own memory (log 8). -/
def execHostBar2Access (isWrite : Bool) (pa bytes x : Nat) (s : State) : Out :=
  if !s.plainPcie || !s.hostMay pa || bytes = 0 || 128 < pa % 128 + bytes then .fault .notEnabled
  else
    let line := pa / 128
    if isWrite then
      if (homeDie line).any s.lamp.failed.contains then .next (s.answer 0 true)
      else .next (s.hostWrite line (byteMask (pa % 128) bytes) (BitVec.ofNat 1024 (x % 2 ^ (8 * bytes) <<< (8 * (pa % 128)))))
    else if s.hostPoisoned line (byteMask (pa % 128) bytes) then .next (s.answer 0 true)
    else
      let t := s.homeDieRead line (byteMask (pa % 128) bytes)
      .next (t.answer (BitVec.ofNat 1024 (t.hostRead pa bytes)) false)

/-- The operations of PCIe AtomicOps in the codes of R100 (R458): 0 FetchAdd, 9 Swap, 10 compare and swap. -/
def hostOperation (op bytes : Nat) : Bool :=
  ((op == 0 || op == 9) && (bytes == 4 || bytes == 8)) || (op == 10 && (bytes == 4 || bytes == 8 || bytes == 16))

/-- HOST_ATOMICOP (R276, R349, R374, R458, R474): a host AtomicOp on device memory, performed at the home slice as one atomic, once the
demand of its line's wick can be met; or, in both personalities, an atomic of the host on its own memory (log 8); `x` is the operand or the compare value, `y` the value swapped in. -/
def execHostAtomicop (op pa bytes x y : Nat) (s : State) : Out :=
  let line := pa / 128
  let w := s.wick line
  let demands := w.v && !w.dr
  if !(s.plainPcie || kindOf pa == 1) || !s.hostMay pa || !hostOperation op bytes || pa % bytes != 0 || (demands && s.demandWaits w) then
    .fault .notEnabled
  else if s.hostPoisoned line (byteMask (pa % 128) bytes) then .next (s.answer 0 true)
  else
    let m := 2 ^ (8 * bytes)
    let s := if demands then s.demand line w else s
    let s := s.homeDieRead line (byteMask (pa % 128) bytes)
    let old := s.hostRead pa bytes
    let operand := if op = 10 then x % m + y % m * m else x % m
    let s := if op = 10 && old != x % m then s
      else s.hostWrite line (byteMask (pa % 128) bytes) (BitVec.ofNat 1024 (combine op bytes old operand <<< (8 * (pa % 128))))
    .next (s.answer (BitVec.ofNat 1024 old) false)

/-- The lanes of an AtomicOp at the host's home, in order, with the old values. -/
def State.hostRmw (s : State) (op n : Nat) : List (Nat × Nat × Nat) → State × List (Nat × Nat)
  | [] => (s, [])
  | (l, pa, x) :: r =>
    let old := s.physRead pa n
    let s := if isCas op && old != x % 2 ^ (8 * n) then s else s.physWrite pa n (combine op n old x)
    let (s, olds) := s.hostRmw op n r
    (s, (l, old) :: olds)

/-- A completion ends the rendezvous of a replicated group (R386, R472): its entry goes to the leader's log and to the followers. -/
def State.endEntry (s : State) (e : LogEntry) : State :=
  (s.setRepl { s.grp.repl with log := s.grp.repl.log ++ [e] }).forward (.result e)

/-- ATOMICOP_COMPLETION (R219, R277, R346, R472, R473): the root port completes an instruction's AtomicOps: they have been
performed at the host, an acquiring form acquires, and the old values are on their way to the registers; or it refuses them,
nothing is written, and the grid ends. -/
def execAtomicopCompletion (group : Nat) (tseq : BitVec 32) (ok : Bool) (s : State) : Out :=
  match s.host.atomics.find? fun o => o.gid == group && o.tseq == tseq with
  | none => .fault .notEnabled
  | some o =>
    let s := { s with host := { s.host with atomics := s.host.atomics.erase o } }
    let t := s.at_ group o.slot
    if !ok then
      .next ((t.failGrid t.gridId 0x07 o.pc tseq (BitVec.ofNat 56 ((o.lanes.map fun e => e.2.1).headD 0))).at_ s.gid s.slot)
    else
      let (t, olds) := t.hostRmw o.op o.bytes o.lanes
      let t := match o.entry with
        | some e =>
          let back := fun (l : Nat) => (olds.lookup l).map (BitVec.ofNat 128)
          t.endEntry { e with results := lanes.map fun l => (back l).getD (e.results.getD l 0) }
        | none => t
      let t := match o.acq with
        | some scope => if 2 ≤ scope then t.selfInvalidate t.coreId else t
        | none => t
      if !o.returns then .next (t.at_ s.gid s.slot)
      else
        let regs := olds.foldl (fun r e => (List.range ((o.bytes + 3) / 4)).foldl (fun (r : Regs) i =>
          r.setV (o.reg + i) e.1 (BitVec.ofNat 32 (e.2 / 2 ^ (32 * i)))) r) t.regs
        let failed := isCas o.op && o.lanes.any fun e => olds.any fun d => d.1 == e.1 && d.2 != e.2.2 % 2 ^ (8 * o.bytes)
        let t := t.setRegs regs
        .next ((if failed then t.markDemotes tseq else t).at_ s.gid s.slot)

end Sys2Proof.Machine
end

