-- ==== Sys2Proof/Machine/Saved.lean ====
section
/-! DEFINITION. The context save area (R445, R447): which registers a stopped group keeps, and the bytes of the header, of
the team records and of the group records. -/

namespace Sys2Proof.Machine

/-- The vector registers and accumulator blocks that the executing group keeps at a stop (R26, R257, R445). -/
def State.liveMask (s : State) : BitVec 128 × BitVec 8 :=
  let live := slots.map s.splitAt |>.filter Split.live
  if live.any fun x => x.sched.parked then (BitVec.ofNat 128 (2 ^ s.grid.kernel.regs - 1), 0xFF)
  else
    let masks := live.map fun x => match x.sched.stopped with
      | some i => s.grid.kernel.masks.getD i (0, 0)
      | none => (0, 0)
    (masks.foldl (fun m e => m ||| e.1) 0, masks.foldl (fun m e => m ||| e.2) s.regs.openAcc)

/-- The registers that are not kept read 0 after the stop (R26). -/
def State.keepLive (s : State) : State :=
  let (v, a) := s.liveMask
  let r := s.regs
  s.setRegs { r with v := r.v.filter fun e => v.getLsbD (e.1 / 32), acc := r.acc.filter fun e => a.getLsbD (e.1 / 256) }

/-- Arrivals held for later phases, counted in the layout of R410. -/
def heldCounts (b : Barrier) : Nat := (b.next.foldl (fun x e => addCounter x e.2) (0 : DWord)).toNat

/-- A barrier entry. -/
def barrierBytes (b : Barrier) (members : List Nat) : List Byte :=
  leBytes 4 b.phase.toNat ++ leBytes 1 (if b.count then 1 else 0) ++ leBytes 1 (if b.pending.isSome then 1 else 0) ++ zeros 2 ++
  leBytes 8 b.expected.toNat ++ leBytes 8 b.counted.toNat ++ leBytes 8 (heldCounts b) ++ leBytes 8 (targetBits b members) ++
  leBytes 8 (b.pending.getD 0).toNat ++ zeros 16

/-- A bin entry. -/
def binBytes (b : Bin) : List Byte :=
  leBytes 8 b.entry.toNat ++ leBytes 1 b.threads.length ++ zeros 3 ++ leBytes 4 b.timer ++
  padTo 128 ((b.g.take 16).flatMap fun x => leBytes 8 x.toNat) ++ padTo 512 (b.threads.flatMap fun x => leBytes 16 x.toNat)

/-- The bins of a core that hold threads of a team; an empty one in every other place. -/
def State.teamBins (s : State) (core team : Nat) : List Bin :=
  binNums.map fun k => let b := s.bin core k
                       if !b.threads.isEmpty && b.team == team then b else {}

/-- The bytes of the executing group that a park area holds (R65): its live vector registers, then its live blocks. -/
def State.liveBytes (s : State) : List Byte :=
  let (v, a) := s.liveMask
  s.regs.dataBytes v a
/-- A team's scratch, rounded up to lines. -/
def State.scratchBytes (s : State) (team : Nat) : List Byte :=
  let n := (s.teamAt team).bytes
  padTo ((n + 127) / 128 * 128) ((List.range n).map fun k => Store.get s.mem.scratch (scratchKey team k))
/-- What a cluster writes to its cores' park areas (R65). The spec gives them no layout; DESIGN CHOICE (log 25): team by team its
scratch and its groups' live registers, one after the other. -/
def State.parkBytes (s : State) (c : Nat) : List Byte :=
  (s.teamsOf c).flatMap fun t => s.scratchBytes t ++ (s.groupsOf t).flatMap fun g => (s.at_ g 0).liveBytes

/-- The record of the executing group. -/
def State.groupBytes (s : State) : List Byte :=
  let (v, a) := s.liveMask
  s.grp.ctx.bytes v a

/-- A team's record, its scratch, and the records of its live groups. -/
def State.teamBytes (s : State) (team : Nat) : List Byte :=
  let t := s.teamAt team
  let c := s.clusterAt (team / 12)
  let members := (List.range 32).map (32 * team + ·)
  let live := s.groupsOf team
  ((List.range 4).flatMap fun x => leBytes 8 (AMap.get {} t.ctxs x : EngineCtx).counter.toNat) ++
  ((List.range 4).flatMap fun x => leBytes 8 (AMap.get {} t.ctxs x : EngineCtx).issued.toNat) ++
  leBytes 2 t.cprio.toNat ++ zeros 2 ++ leBytes 4 ((live.map fun g => 2 ^ (g % 32)).sum) ++ zeros 56 ++
  ((List.range 16).flatMap fun n => barrierBytes (AMap.get {} t.barriers n) members) ++
  (if team % 12 = 0 then (List.range 8).flatMap fun n => barrierBytes (AMap.get {} c.barriers n) members else zeros 512) ++
  ((s.teamBins t.core team).flatMap binBytes) ++
  s.scratchBytes team ++
  (live.flatMap fun g => (s.at_ g 0).groupBytes)

/-- The offsets of records that follow one another. -/
def offsets (o : Nat) : List (List Byte) → List Nat
  | [] => []
  | l :: r => o :: offsets (o + l.length) r

/-- A cluster's save area. -/
def State.clusterBytes (s : State) (c : Nat) : List Byte :=
  let l := (s.gridAt (s.clusterAt c).grid).launch
  let teams := (s.teamsOf c).map s.teamBytes
  [0x53, 0x41, 0x56, 0x45] ++ leBytes 2 1 ++ leBytes 1 teams.length ++ leBytes 1 l.groups ++ leBytes 4 l.regs ++ leBytes 4 l.bytes ++
  padTo 48 ((offsets 128 teams).flatMap (leBytes 4)) ++ zeros 64 ++ teams.flatten

end Sys2Proof.Machine
end

