-- ==== Sys2Proof/Machine/Launches.lean ====
section
/-! DEFINITION. From a launch that waits to its retirement (R53 to R67, R74, R75, R415, R444 to R449, R454 to R457):
arbitration, leases, admission, stops, parking, saving, resumption, cancellation and the ends of clusters and grids. -/

namespace Sys2Proof.Machine

/-- Does one launch come before another in arbitration (R53)? -/
def Grid.before (a b : Grid) : Bool := decide (b.prio < a.prio) || (a.prio == b.prio && decide (a.sub.order < b.sub.order))
/-- Has a launch ended, or been told to? -/
def Grid.over (g : Grid) : Bool := !g.live || g.phase == .retired || g.ending.failed || g.ending.snuffed
/-- A launch that takes part in arbitration and has not been taken (R53). -/
def Grid.ready (g : Grid) : Bool := !g.over && g.phase == .waiting && g.deps.isEmpty
/-- Replicas of each cluster. -/
def Grid.copies (g : Grid) : Nat := g.launch.replicas + 1

/-- Has a team of a deterministic grid set a ready mark in the present period, so that its tile is acquired after the serial phase
(R353, R394)? -/
def State.markedNow (s : State) (header : Nat) : Bool := s.grids.any fun e => e.2.live && e.2.det.names header 32
/-- Are the ready marks of every gated team of a cluster set (R75)? -/
def State.gatesOpen (s : State) (g : Grid) (cluidx : Nat) : Bool :=
  let n := g.launch.width * g.launch.height
  g.gates.all fun e => e.1 / n != cluidx || e.2.all fun h => (s.header h).ready && !s.markedNow h
/-- Have the buffered writes that a launch's release covers been committed (R153, R393)? -/
def State.released (s : State) (g : Grid) : Bool :=
  match g.sub.after with
  | some (grid, period) => !(s.gridAt grid).live || (s.gridAt grid).det.period != period
  | none => true
/-- A launch taken for admission of which clusters wait for room alone (R54): the launches behind it wait too. One that waits for
the tile gates of its next cluster holds none back; DESIGN CHOICE (log 52): the gates of later clusters of a co-resident grid do
not count here. -/
def State.atHead (s : State) (g : Grid) : Bool :=
  !g.over && g.phase == .taken && g.leased && decide (g.next < g.launch.clusters) && s.released g && s.gatesOpen g g.next
/-- Does a launch at the head come before a grid? -/
def State.blockedBy (s : State) (g : Grid) : Bool := s.grids.any fun e => s.atHead e.2 && e.2.before g

/-- The first launch in the order of R53 among some. -/
def firstLaunch : List (Nat × Grid) → Option (Nat × Grid)
  | [] => none
  | e :: r =>
    match firstLaunch r with
    | none => some e
    | some f => if f.2.before e.2 then some f else some e

/-- LAUNCH_ARBITRATION (R47, R53, R54): the ready launch of highest effective priority, then earliest order, is taken; the
ready launches of lower priority are one step older. A rise that is due comes first. -/
def execLaunchArbitration (s : State) : Out :=
  let s := s.noteMet
  let ready := s.grids.filter fun e => e.2.ready
  if ready.any fun e => 64 ≤ e.2.age then .fault .notEnabled
  else match firstLaunch ready with
  | none => .fault .notEnabled
  | some (k, g) =>
    if s.blockedBy g then .fault .notEnabled
    else .next { s with grids := AMap.mapVals (fun j x =>
      if j == k then { x with phase := .taken }
      else if x.ready && decide (x.prio < g.prio) then { x with age := x.age + 1 } else x) s.grids }

/-- LAUNCH_AGE_RISE (R54): at 64 steps the priority rises by one, up to 7. -/
def execLaunchAgeRise (grid : Nat) (s : State) : Out :=
  let g := s.gridAt grid
  if g.ready && 64 ≤ g.age then .next (s.setGridAt grid { g with prio := min 7 (g.prio + 1), age := 0 })
  else .fault .notEnabled

/-- The base pages of a run of addresses. -/
def pagesOf (base len : Nat) : List Nat :=
  if len = 0 then [] else (List.range ((base + len - 1) / 65536 - base / 65536 + 1)).map (base / 65536 + ·)
/-- The pages of a launch's declared ranges and of its code (R56). -/
def Grid.leasePages (g : Grid) : List Nat :=
  ((g.ranges.filter fun r => r.rights != 0).flatMap fun r => pagesOf r.base r.len) ++ pagesOf g.kernel.base g.kernel.size

/-- Is a physical page retired, or homed on a die that is not in service (R466, R481)? -/
def State.frameRefused (s : State) (pa : Nat) : Bool :=
  s.lamp.retired.any (fun f => f / 65536 == pa / 65536) ||
  (kindOf pa == 0 && (!s.inService (pa / Config.dieBytes) || !s.inService ((pa + 65535) / Config.dieBytes)))

/-- The physical address of the base page that a leaf gives an address. -/
def LeafAt.frame (l : LeafAt) (va : Nat) : Nat := (leafFields l.bits).phys va / 65536 * 65536

/-- A tile address of a gating table (R74): its header, or none inside where it breaks the rules; none while its page is
missing (R56). -/
def State.gatingTile (s : State) (g : Grid) (root va : Nat) : Option (Option Nat) :=
  if g.ranges.any fun r => r.rights.getLsbD 0 && decide (r.base ≤ va) && decide (va < r.base + r.len) then
    match s.walk root va with
    | some l =>
      if l.present then some (match (leafFields l.bits).tile va with
        | some t => if t.va == va then some t.header else none
        | none => none)
      else none
    | none => none
  else some none

/-- The tile-gating table of a launch (R74): for each entry the team and its tiles' headers; none where a page is missing,
or the verdict that the table breaks the rules. DESIGN CHOICE (log 52): a team index at or above the grid's number of teams
breaks them. -/
def State.gatingEntry (s : State) (g : Grid) (root k : Nat) : Option (Except Unit (Nat × List Nat)) :=
  match s.readPresent root (g.gating.1 + 16 * k) 16 with
  | none => none
  | some e =>
    let n := field e 4 2
    if n == 0 || decide (64 < n) || field e 6 2 != 0 ||
      decide (g.launch.clusters * (g.launch.width * g.launch.height) ≤ field e 0 4) then some (.error ())
    else
      let list := (List.range n).map fun j => s.readPresent root (field e 8 8 + 8 * j) 8
      match list.allSome with
      | none => none
      | some tiles =>
        let found := tiles.map (s.gatingTile g root)
        if found.any fun x => x == some none then some (.error ())
        else (found.map Option.join).allSome.map fun hs => .ok (field e 0 4, hs)
/-- Do team indices ascend strictly? -/
def ascending : List Nat → Bool
  | a :: b :: r => decide (a < b) && ascending (b :: r)
  | _ => true

/-- What lease installation finds (R50, R56): a code that rejects the launch, a wait for a page, or the leaves of its pages
and its gates. -/
inductive LeaseResult where
  | reject (code : Nat)
  | wait
  | ok (leaves : List (Nat × LeafAt)) (gates : List (Nat × List Nat))

/-- The frames of device HBM that the leases of other launches map (R50). -/
def State.otherFrames (s : State) (grid : Nat) : List Nat :=
  (s.grids.filter fun e => e.2.live && e.2.leased && e.1 != grid).flatMap fun e =>
    e.2.trans.map (fun p => p.2.phys (p.1 * 65536) / 65536 * 65536)

/-- The checks of lease installation, in the order of R50; a refused frame rejects at once, whatever page is missing, and pages
that do not fit what other leases leave free are waited for. Pages of a peer's memory are a feature that reduced service does
not offer (R14; log 52). -/
def State.checkLease (s : State) (grid root : Nat) : LeaseResult :=
  let g := s.gridAt grid
  let pages := g.leasePages.eraseDups
  let found := pages.filterMap fun p => match s.walk root (p * 65536) with
    | some l => if l.present then some (p, l) else none
    | none => none
  let frames := (found.map fun e => e.2.frame (e.1 * 65536)).eraseDups
  let own := frames.filter fun f => kindOf f == 0
  let table := if g.launch.gated then (List.range g.gating.2).map (s.gatingEntry g root) else []
  let bad := table.any fun e => match e with
    | some (.error _) => true
    | _ => false
  let gates := table.filterMap fun e => match e with
    | some (.ok x) => some x
    | _ => none
  if bad || (gates.length == table.length && !ascending (gates.map Prod.fst)) then .reject 11
  else if s.level == 1 && frames.any (fun f => kindOf f == 2) then .reject 12
  else if s.host.leasecap.toNat < 65536 * own.length then .reject 14
  else if frames.any s.frameRefused then .reject 16
  else if found.length < pages.length || gates.length < table.length ||
      decide (s.host.leasecap.toNat < 65536 * ((own ++ (s.otherFrames grid).filter fun f => kindOf f == 0).eraseDups).length) then .wait
  else .ok found gates

/-- LEASE_INSTALL (R56, R218, R460, R466): the pages of a launch flip to the device and its translations are installed; a
page that is missing delays it. A launch that waits for dependences has no lease, and so holds no memory back from others (R53);
without service it stays queued (R463). -/
def execLeaseInstall (grid : Nat) (s : State) : Out :=
  let s := s.noteMet
  let g := s.gridAt grid
  if g.over || g.leased || g.next != 0 || !g.deps.isEmpty || s.level == 0 then .fault .notEnabled
  else match s.rootOf g.asid with
  | none => .next (s.rejectGrid grid 15)
  | some root =>
    match s.checkLease grid root with
    | .reject code => .next (s.rejectGrid grid code)
    | .wait => .fault .notEnabled
    | .ok leaves gates =>
      let s := leaves.foldl (fun s e =>
        if (leafFields e.2.bits).sa then s
        else
          let s := s.setHostPages g.asid e.1 (leafFields e.2.bits).large false
          if (leafFields e.2.bits).flipped then s.setLeafValid e.2 true else s) s
      let trans := leaves.foldl (fun m e => AMap.set m e.1 { leafFields e.2.bits with valid := true, flipped := false }) []
      let s := s.launchDies.foldl (fun s d => (List.range 12).foldl (fun s k =>
        s.putTlb (12 * d + k) (trans.map fun e => { grid := grid, page := e.1, leaf := e.2 })) s) s
      .next (s.setGridAt grid { g with leased := true, root := root, trans := trans, gates := gates })

/-- The cores of a rectangle from its top-left core, row by row; none where it leaves the die's mesh (R60). -/
def rectangle (origin w h : Nat) : Option (List Nat) :=
  let c := origin % 72
  if c % 9 + w ≤ 9 && c / 9 + h ≤ 8 then
    some ((List.range (w * h)).map fun p => origin / 72 * 72 + (c / 9 + p / w) * 9 + c % 9 + p % w)
  else none
/-- Has a core room for one more team (R59)? -/
def State.hasRoom (s : State) (core groups bytes : Nat) : Bool :=
  let held := ((s.teams.filter fun t => t.2.live && t.2.core == core && s.onCores (t.1 / 12)).map fun t => t.2.bytes).sum
  decide (s.activeGroups core + groups ≤ 32) && decide (s.parkedGroups core ≤ 96) && decide (held + bytes ≤ 393216)
/-- Has a core room for one more team that is held parked (R59, R67)? -/
def State.hasParkedRoom (s : State) (core groups : Nat) : Bool :=
  decide (s.activeGroups core ≤ 32) && decide (s.parkedGroups core + groups ≤ 96)
/-- The cores of a rectangle on a die in service, each of which passes a test. -/
def State.coresAt (s : State) (l : Launch) (origin : Nat) (room : Nat → Bool) : Option (List Nat) :=
  match rectangle origin l.width l.height with
  | some cores => if decide (origin < 288) && s.launchDies.contains (origin / 72) && cores.all room then some cores else none
  | none => none
/-- The cores where a launch's cluster finds room to run, or to be held parked. -/
def State.roomAt (s : State) (l : Launch) (origin : Nat) : Option (List Nat) :=
  s.coresAt l origin fun c => s.hasRoom c l.groups l.bytes
def State.parkedRoomAt (s : State) (l : Launch) (origin : Nat) : Option (List Nat) :=
  s.coresAt l origin fun c => s.hasParkedRoom c l.groups
/-- Is there room for one cluster of a launch, with all its replicas (R55, R63)? -/
def State.roomFor (s : State) (l : Launch) : Bool :=
  (s.permittedSets l.replicas).any fun set => set.all fun d =>
    (List.range 72).any fun c => (s.roomAt l (72 * d + c)).isSome

/-- A cluster comes to its cores (R18, R60, R67, R372), to run or to be held parked: its teams and groups in their initial
state. What the command
processor's reading acquired they see, and the tiles that gated them (R48, R75, R470). -/
def State.startCluster (s : State) (grid replica origin : Nat) (act : Activity) (cores : List Nat) : State :=
  let g := s.gridAt grid
  let c := s.cp.nextCluster
  let bases := g.ranges.map fun r => if r.rights == 0 then (0 : DWord) else BitVec.ofNat 64 r.base
  let s := { s with cp := { s.cp with nextCluster := c + 1 } }
  let s := s.setClusterAt c
    { live := true, grid := grid, cluidx := g.next, replica := replica, die := origin / 72, origin := origin, act := act }
  cores.zipIdx.foldl (fun s e =>
    let team := 12 * c + e.2
    let s := s.selfInvalidate e.1
    let s := s.setTeamAt team { live := true, groups := g.launch.groups, bytes := g.launch.bytes, core := e.1 }
    let s := { s with groups := (List.range g.launch.groups).foldl (fun m k =>
      AMap.set m (32 * team + k) (newGroup e.1 (BitVec.ofNat 56 g.kernel.entry) 0xFFFFFFFF bases [])) s.groups }
    s.keepFirst ((List.range g.launch.groups).map (32 * team + ·))) s

/-- The replicas of one cluster are admitted on the places named, on a permitted set of dies (R60, R63). -/
def State.admitCluster (s : State) (grid : Nat) (act : Activity) (places : List Nat) : Option State :=
  let g := s.gridAt grid
  if (s.permittedSets g.launch.replicas).contains (places.map (· / 72)) && s.gatesOpen g g.next then
    (places.zipIdx.foldl (fun (s : Option State) e => s.bind fun s =>
      (if act == .parked then s.parkedRoomAt g.launch e.1 else s.roomAt g.launch e.1).map fun cores =>
        s.startCluster grid e.2 e.1 act cores) (some s)).map fun s =>
        s.setGridAt grid { s.gridAt grid with next := (s.gridAt grid).next + 1 }
  else none
/-- Clusters are admitted in ascending order, each with its replicas' places. -/
def State.admitClusters : Nat → Nat → Nat → List Nat → State → Option State
  | 0, _, _, _, s => some s
  | n + 1, copies, grid, places, s =>
    match s.admitCluster grid .active (places.take copies) with
    | some t => State.admitClusters n copies grid (places.drop copies) t
    | none => none

/-- CLUSTER_ADMIT (R59 to R64, R75, R415): the next cluster of the launch at the head, or of a co-resident grid all at once,
comes to the cores that firmware chooses; one of a grid that is not co-resident, where they have no room for it to run, is held
parked there (R67). Cancellations come first. -/
def execClusterAdmit (grid : Nat) (places : List Nat) (s : State) : Out :=
  let g := s.gridAt grid
  let n := if g.launch.coresident then g.launch.clusters else 1
  if !s.atHead g || s.blockedBy g || !s.cp.snuffs.isEmpty || places.length != n * g.copies then .fault .notEnabled
  else match State.admitClusters n g.copies grid places s with
  | some t => .next t
  | none =>
    match if g.launch.coresident then none else s.admitCluster grid .parked places with
    | some t => .next t
    | none => .fault .notEnabled

/-- The clusters that stop and go on together (R62, R448): the replicas of a cluster, of a co-resident grid all. -/
def State.unit (s : State) (c : Nat) : List Nat :=
  let x := s.clusterAt c
  let l := if (s.gridAt x.grid).launch.coresident then s.clustersOf x.grid else s.replicaClusters c
  l.filter fun k => (s.clusterAt k).act != .ended
/-- The groups of a cluster. -/
def State.clusterGroups (s : State) (c : Nat) : List Nat := (s.teamsOf c).flatMap s.groupsOf

/-- Does a launch none of whose clusters has been admitted wait for room with a higher priority than a grid, which is of the
lowest priority that runs (R54, R55)? -/
def State.mayPreempt (s : State) (g : Grid) : Bool :=
  s.grids.any (fun e => s.atHead e.2 && e.2.next == 0 && decide (g.prio < e.2.prio) && !s.roomFor e.2.launch) &&
  s.clusters.all fun c => !c.2.live || c.2.act != .active || (s.gridAt c.2.grid).over || decide (g.prio ≤ (s.gridAt c.2.grid).prio)

/-- PREEMPT_REQUEST (R55, R62, R65, R444): firmware asks a cluster to stop, for a launch of higher priority or to park it. -/
def execPreemptRequest (cluster : Nat) (park : Bool) (s : State) : Out :=
  let x := s.clusterAt cluster
  let g := s.gridAt x.grid
  if !x.live || x.act != .active || x.stop.isSome || g.over || !(park || s.mayPreempt g) then .fault .notEnabled
  else .next ((s.unit cluster).foldl (fun s c => s.setClusterAt c { s.clusterAt c with stop := some s.time.cycle }) s)

/-- Does the executing group stand at a safe point (R444)? -/
def State.stands (s : State) : Bool :=
  s.grp.handler.isNone && s.grp.pending.isEmpty && s.grp.nft.isNone &&
  slots.all fun k => let x := s.splitAt k
                     !x.live || x.sched.stopped.isSome || x.sched.parked
/-- Has every command of a team that was held started or been discarded (R129)? -/
def Team.noneHeld (t : Team) : Bool :=
  t.ctxs.all fun x => x.2.queue.all fun c => !c.held || c.started || c.guard == .discarded
/-- Does a unit of clusters stand (R62, R129, R444)? -/
def State.unitStands (s : State) (l : List Nat) : Bool :=
  l.all fun c => (s.teamsOf c).all (fun t => (s.teamAt t).noneHeld) && (s.clusterGroups c).all fun g => (s.at_ g 0).stands

/-- A split that has been asked to stop goes on; after a pre-emption or parking nothing of a stall count holds it (R87). -/
def Split.goOn (moved : Bool) (x : Split) : Split :=
  { x with sched := { x.sched with stopped := none, bound := if moved then 0 else x.sched.bound } }
/-- The stopped splits of a group go on at the word after their `safe` (R444), those of its checkpoint too (R451). -/
def Group.goOn (moved : Bool) (g : Group) : Group :=
  { g with
    ctx := { g.ctx with splits := AMap.mapVals (fun _ x => x.goOn moved) g.ctx.splits }
    repl := { g.repl with
      stopAt := none
      check := g.repl.check.map fun k =>
        { k with ctx := { k.ctx with splits := AMap.mapVals (fun _ x => x.goOn moved) k.ctx.splits } } } }
/-- The groups of a cluster go on. -/
def State.goOn (s : State) (c : Nat) (moved : Bool) : State :=
  let l := s.clusterGroups c
  { s with groups := AMap.mapVals (fun k g => if l.contains k then g.goOn moved else g) s.groups }

/-- PREEMPT_WITHDRAW (R62, R444): a unit that has not stood within 2^20 cycles goes on. -/
def execPreemptWithdraw (cluster : Nat) (s : State) : Out :=
  let l := s.unit cluster
  match (s.clusterAt cluster).stop with
  | none => .fault .notEnabled
  | some c =>
    if (s.clusterAt cluster).act != .active || s.time.cycle < c + 2 ^ 20 || s.unitStands l then .fault .notEnabled
    else .next (l.foldl (fun s k => (s.setClusterAt k { s.clusterAt k with stop := none }).goOn k false) s)

/-- Is a unit ready to be saved or parked: it stands at a request, its results are in, its matrix commands are done, and its
started engine commands have completed, but for collectives that wait for participants (R65, R446)? -/
def State.unitQuiet (s : State) (l : List Nat) : Bool :=
  !l.isEmpty && l.all (fun c => (s.clusterAt c).act == .active && (s.clusterAt c).stop.isSome) && s.unitStands l &&
  l.all fun c =>
    (s.clusterGroups c).all (fun g => ((AMap.get {} s.groups g).inflight.all fun e => e.ready.isSome) &&
      !(s.cores.any fun k => k.2.matrix.any fun m => m.gid == g) && !(s.host.atomics.any fun o => o.gid == g)) &&
    (s.teamsOf c).all fun t => (s.teamAt t).ctxs.all fun x => x.2.queue.all fun d =>
      !d.started || d.done || (collKind d.op != 0 && d.result.isNone)

/-- Commands that wait for participants are held with their numbers (R446). -/
def Team.hold (t : Team) : Team :=
  { t with ctxs := AMap.mapVals (fun _ x => { x with queue := x.queue.map fun d =>
      if d.started && !d.done then { d with started := false, share := [], table := [] } else d }) t.ctxs }
/-- The commands of a team are held, and their scoreboard entries free. -/
def State.holdTeam (s : State) (t : Nat) : State :=
  let s := s.setTeamAt t (s.teamAt t).hold
  { s with cores := AMap.mapVals (fun _ c => { c with locks := c.locks.filter fun e => e.team != t }) s.cores }

/-- What every stop does to a cluster's groups: registers that are not live read 0 from now on, and results are complete. -/
def State.settleCluster (s : State) (c : Nat) : State :=
  let s := (s.clusterGroups c).foldl (fun s g => (s.at_ g 0).keepLive.at_ s.gid s.slot) s
  let l := s.clusterGroups c
  { s with groups := AMap.mapVals (fun k g => if l.contains k then { g with inflight := [] } else g) s.groups }

/-- The shadow lines of a cluster's groups go (R377, R448, R455). -/
def State.dropShadows (s : State) (c : Nat) : State :=
  { s with cores := AMap.mapVals (fun _ k => { k with shadows := k.shadows.filter fun e => e.1 / 384 != c }) s.cores }

/-- The bins of a cluster's teams leave their cores (R444, R446). -/
def State.takeBins (s : State) (c : Nat) : State :=
  (s.teamsOf c).foldl (fun s t =>
    let core := (s.teamAt t).core
    binNums.foldl (fun s k =>
      let b := s.bin core k
      if !b.threads.isEmpty && b.team == t then
        let s := s.setBin core k {}
        s.setClusterAt c { s.clusterAt c with bins := (s.clusterAt c).bins ++ [(t % 12, k, b)] }
      else s) s) s

/-- Save one cluster (R446, R447, R448): its cores write back, its state goes to the save area, its cores are free. -/
def State.saveCluster (s : State) (c area : Nat) : State :=
  let teams := s.teamsOf c
  let s := teams.foldl (fun s t => s.writeBackDirty (s.teamAt t).core) s
  let s := s.dropShadows c
  let s := teams.foldl State.holdTeam s
  let s := s.physWriteRun area (s.clusterBytes c)
  let s := (s.settleCluster c).takeBins c
  s.setClusterAt c { s.clusterAt c with act := .saved, stop := none, area := area }

/-- May the processors write a park or save area of n bytes at an address: device memory at a multiple of 128 no page of which a
lease covers (R447)? -/
def State.areaLegal (s : State) (area n : Nat) : Bool :=
  area % 128 == 0 && decide (area + n ≤ Config.hbmBytes) && (pagesOf area n).all fun p => !s.pageLeased (65536 * p)
/-- The bytes that the save areas, or the park areas, of a unit of clusters take up. -/
def State.saveBytes (s : State) (l : List Nat) : Nat := (l.map fun c => (s.clusterBytes c).length).sum
def State.parkSize (s : State) (l : List Nat) : Nat := (l.map fun c => (s.parkBytes c).length).sum

/-- Has a cluster been asked to stop for a launch that waits for room (R55)? -/
def State.preempting (s : State) (c : Nat) : Bool :=
  (s.clusterAt c).act == .active && (s.clusterAt c).stop.isSome && s.mayPreempt (s.gridAt (s.clusterAt c).grid)

/-- CLUSTER_PREEMPT (R62, R446 to R448): a standing cluster, with all that stop together, goes to the save area that begins at
`area`, one after the other at multiples of 128. -/
def execClusterPreempt (cluster area : Nat) (s : State) : Out :=
  let l := s.unit cluster
  if !s.unitQuiet l || !s.areaLegal area (s.saveBytes l) then .fault .notEnabled
  else .next (l.foldl (fun (a : State × Nat) c =>
    (a.1.saveCluster c a.2, a.2 + (a.1.clusterBytes c).length)) (s, area)).1

/-- Park one cluster (R65): what its `safe` entries mark live, and its scratch, go to the park area. -/
def State.parkCluster (s : State) (c area : Nat) : State :=
  let s := (s.physWriteRun area (s.parkBytes c)).settleCluster c
  s.setClusterAt c { s.clusterAt c with act := .parked, stop := none, area := area }

/-- CLUSTER_PARK (R59, R62, R65, R129, R257): a standing cluster is parked on its cores; copies that touch its scratch have
ended. The park areas of a unit follow one another. -/
def execClusterPark (cluster area : Nat) (s : State) : Out :=
  let l := s.unit cluster
  let teams := l.flatMap s.teamsOf
  let room := teams.all fun t =>
    let core := (s.teamAt t).core
    decide (s.parkedGroups core + ((teams.filter fun u => (s.teamAt u).core == core).flatMap s.groupsOf).length ≤ 96)
  if !s.unitQuiet l || !room || !s.areaLegal area (s.parkSize l) || s.cores.any (fun k => k.2.locks.any fun e => teams.contains e.scratch) then .fault .notEnabled
  else .next (l.foldl (fun (a : State × Nat) c => (a.1.parkCluster c a.2, a.2 + (a.1.parkBytes c).length)) (s, area)).1

/-- Have the cores of a cluster's teams room for them again (R59)? -/
def State.fitsBack (s : State) (c : Nat) : Bool :=
  (s.teamsOf c).all fun t => s.hasRoom (s.teamAt t).core (s.groupsOf t).length (s.teamAt t).bytes

/-- A cluster is active again: a new run of each team (R314), and its splits go on. -/
def State.reactivate (s : State) (c : Nat) : State :=
  let s := (s.teamsOf c).foldl (fun s t => s.setTeamAt t { s.teamAt t with run := (s.teamAt t).run + 1 }) s
  (s.setClusterAt c { s.clusterAt c with act := .active }).goOn c true

/-- CLUSTER_UNPARK (R62, R66): a parked cluster goes on on its cores, with all that stopped together. -/
def execClusterUnpark (cluster : Nat) (s : State) : Out :=
  let l := s.unit cluster
  if l.isEmpty || !(l.all fun c => (s.clusterAt c).act == .parked) then .fault .notEnabled
  else match l.foldl (fun (a : Option State) c => a.bind fun s => if s.fitsBack c then some (s.reactivate c) else none) (some s) with
  | some t => .next t
  | none => .fault .notEnabled

/-- A saved cluster comes to a rectangle (R446): its teams and groups move, its bins are placed again, and each
group's next instruction acquires. -/
def State.resumeCluster (s : State) (c origin : Nat) : Option State :=
  let l := (s.gridAt (s.clusterAt c).grid).launch
  match rectangle origin l.width l.height with
  | none => none
  | some cores =>
    let teams := s.teamsOf c
    let place := fun (t : Nat) => cores.getD (t % 12) 0
    let s := teams.foldl (fun s t =>
      let s := s.setTeamAt t { s.teamAt t with core := place t }
      let own := s.groupsOf t
      { s with groups := AMap.mapVals (fun k g => if own.contains k then { g with place := { g.place with core := place t } } else g) s.groups }) s
    if !(s.fitsBack c) then none
    else
      let s := s.reactivate c
      let own := s.clusterGroups c
      let s := { s with groups := AMap.mapVals (fun k g => if own.contains k then { g with resumed := true } else g) s.groups }
      some (s.setClusterAt c { s.clusterAt c with origin := origin, die := origin / 72, bins := [] })

/-- The bins of a cluster go to empty bins of its cores (R444); none where a core has too few. -/
def State.placeBins (s : State) (c : Nat) : List (Nat × Nat × Bin) → Option State
  | [] => some s
  | (pos, _, b) :: r =>
    let core := (s.teamAt (12 * c + pos)).core
    match binNums.find? fun k => (s.bin core k).threads.isEmpty with
    | some k => (s.setBin core k b).placeBins c r
    | none => none

/-- CLUSTER_RESUME (R62, R63, R446): a saved cluster, with all that stopped together, goes on; the cores are named by the
digits of `place` in base 288, one for each cluster in turn. -/
def execClusterResume (cluster place : Nat) (s : State) : Out :=
  let l := s.unit cluster
  let origin := fun (i : Nat) => place / 288 ^ i % 288
  let dies := fun (c : Nat) => (l.zipIdx.filter fun e => (s.clusterAt e.1).cluidx == (s.clusterAt c).cluidx).map fun e => origin e.2 / 72
  let g := s.gridAt (s.clusterAt cluster).grid
  if l.isEmpty || !(l.all fun c => (s.clusterAt c).act == .saved) || g.over ||
    !(l.all fun c => (s.permittedSets g.launch.replicas).contains (dies c)) then .fault .notEnabled
  else match l.zipIdx.foldl (fun (a : Option State) e => a.bind fun s =>
      let bins := (s.clusterAt e.1).bins
      (s.resumeCluster e.1 (origin e.2)).bind fun s => s.placeBins e.1 bins) (some s) with
  | some t => .next t
  | none => .fault .notEnabled

/-- Is every engine command of a team done? -/
def Team.drained (t : Team) : Bool := t.ctxs.all fun x => x.2.queue.isEmpty

/-- Forget the unverified bytes of some groups in every L1 (R384, R437). -/
def State.discardUnverified (s : State) (p : Nat → Bool) : State :=
  { s with cores := AMap.mapVals (fun _ c =>
      let l1 := c.l1.filter fun e => match e.2.owner with
        | some g => !p g
        | none => true
      let full := match c.full with
        | some (g, _) => if p g then none else c.full
        | none => none
      CoreState.sweepHeaders { c with l1 := l1, full := full }) s.cores }

/-- CLUSTER_END (R437, R455): every team has ended, or the grid has failed, every engine command is done, every
AtomicOp has returned (R456) and no non-finite trap waits (R449): the cores write back the grid's lines and are free. -/
def execClusterEnd (cluster : Nat) (s : State) : Out :=
  let x := s.clusterAt cluster
  let g := s.gridAt x.grid
  let teams := s.teamsOf cluster
  if !x.live || x.act == .ended || !(g.ending.failed || teams.all fun t => (s.teamAt t).ended) ||
    (!g.ending.failed && s.groups.any fun e => e.1 / 384 == cluster && e.2.nft.isSome) ||
    !(teams.all fun t => (s.teamAt t).drained) || s.host.atomics.any (fun o => o.gid / 384 == cluster) then .fault .notEnabled
  else
    let mine := fun (k : Nat) => k / 384 == cluster
    let s := s.discardUnverified mine
    let s := teams.foldl (fun s t => s.writeBackAll (s.teamAt t).core fun _ y => y.virt.1 == g.asid) s
    let s := s.dropShadows cluster
    let s := { s with
      groups := AMap.mapVals (fun k y => if mine k then { y with live := false, handler := none, pending := [], inflight := [] } else y) s.groups
      teams := AMap.mapVals (fun t y => if teams.contains t then { y with ended := true } else y) s.teams
      cores := AMap.mapVals (fun _ c => { c with
        bins := AMap.mapVals (fun _ b => if teams.contains b.team then {} else b) c.bins
        locks := c.locks.filter fun e => !teams.contains e.team
        matrix := c.matrix.filter fun m => !mine m.gid }) s.cores }
    .next (s.setClusterAt cluster { s.clusterAt cluster with act := .ended, stop := none, bins := [] })

/-- Commit buffered writes at their homes (R393): oldest first. -/
def State.commitWrites (s : State) : List BufWrite → State
  | [] => s
  | w :: r => (s.performWrite ((homeDie w.line).getD 0) w.line w.mask w.data).commitWrites r

/-- The writes of a team in the order of R393: group writes in ascending group index and program order, then engine writes in
ascending context and number. The buffer holds the newest first. -/
def Team.ordered (t : Team) : List BufWrite :=
  let old := t.wbuf.reverse
  let ctxs := (List.range 4).flatMap fun x =>
    let mine := old.filter fun w => w.agent == 32 + x
    ((mine.map (·.num)).eraseDups.mergeSort (· ≤ ·)).flatMap fun n => mine.filter fun w => w.num == n
  ((List.range 32).flatMap fun k => old.filter fun w => w.agent == k) ++ ctxs

/-- The teams of a deterministic grid in ascending index, of leaders alone (R396). -/
def State.orderedTeams (s : State) (grid : Nat) : List Nat :=
  let l := (s.gridAt grid).launch
  let index := fun (t : Nat) => (s.clusterAt (t / 12)).cluidx * (l.width * l.height) + t % 12
  ((s.gridTeams grid).filter fun t => s.leads (32 * t)).mergeSort fun a b => index a ≤ index b

/-- Commit the buffers of a grid (R393, step 2): a write into a tile is performed at its home (R227), and one that a copy engine
made whole clears a poison mark (R371). -/
def State.commitBuffers (s : State) (grid : Nat) : State :=
  let s := (s.orderedTeams grid).foldl (fun s t =>
    let l := (s.teamAt t).ordered
    (l.foldl (fun s w => ((s.lineTiles w.line w.mask).foldl State.plainTile s).commitWrites [w]) s).cleared
      (l.map BufWrite.line)) s
  (s.gridTeams grid).foldl (fun s t => s.setTeamAt t { s.teamAt t with wbuf := [] }) s

/-- GRID_RETIRE (R456, R457): every cluster has ended: the last commit, the end of the lease, the completion record, the
counters. -/
def execGridRetire (grid : Nat) (s : State) : Out :=
  let g := s.gridAt grid
  let l := s.clustersOf grid
  if !g.live || g.phase != .taken || !(l.all fun c => (s.clusterAt c).act == .ended) ||
    !(g.ending.failed || g.ending.snuffed || g.next == g.launch.clusters) then .fault .notEnabled
  else
    let s := if g.launch.det then s.commitBuffers grid else s
    let g := s.gridAt grid
    let s := s.setGridAt grid { g with live := false, phase := .retired, leased := false, det := { g.det with own := [], released := [], arrived := [] } }
    .next ((s.dropTlb fun e => e.grid == grid).finishRecord g.sub g.ending.status g.ending.detail)

/-- Does a split end at once when its grid is snuffed (R415): off its cores, stopped at a `safe`, parked
behind such a one, or waiting at a barrier, in
`tlw`, `twt` or `dsync`, or for a clock turn; a replica too that waits for one which has ended? -/
def State.endsSnuffed (s : State) (x : Split) : Bool :=
  s.cluster.act != .active || x.sched.stopped.isSome || x.sched.parked || match x.wait with
    | some .compare => (s.partners s.gid).any fun g => !(AMap.get {} s.groups g).live
    | some .rendezvous => (s.partners s.gid).any fun g => !(AMap.get {} s.groups g).live
    | some (.barrier _ _ _ _) => true
    | some (.timeline _ _) => true
    | some (.ready _) => true
    | some (.period _) => true
    | some .turn => true
    | _ => false

/-- A group of a snuffed grid ends once every split of it has stopped or waits (R415). -/
def State.reap (s : State) (gid : Nat) : State :=
  let t := s.at_ gid 0
  if t.grp.live && t.grid.ending.snuffed && (slots.all fun k => !(t.splitAt k).live || t.endsSnuffed (t.splitAt k)) then
    t.endGroup.at_ s.gid s.slot
  else s
/-- The groups of a grid that can end do (R415). -/
def State.reapGrid (s : State) (grid : Nat) : State := (s.gridGroups grid).foldl State.reap s

/-- One launch is cancelled (R415): unadmitted, it is done with status 3; running, its groups end and its commands that have
not started are discarded. -/
def State.cancel (s : State) (grid status detail : Nat) : State :=
  let g := s.gridAt grid
  if g.over then s
  else if g.next = 0 then
    let s := s.setGridAt grid { g with live := false, phase := .retired, leased := false, ending := { status := status, detail := detail } }
    (s.dropTlb fun e => e.grid == grid).finishRecord g.sub status detail
  else
    let s := s.setGridAt grid { g with ending := { status := status, detail := detail, snuffed := true } }
    (s.discardCommands grid).reapGrid grid

/-- Cancel every launch that carries a token (R415). -/
def State.cancelToken (s : State) (token : Word) : State :=
  if token == 0 then s
  else (s.grids.filter fun e => e.2.launch.snuff == token).foldl (fun s e => s.cancel e.1 3 0) s

/-- SNUFF_CANCEL (R415): the command processor performs a cancellation that has reached it. -/
def execSnuffCancel (token : BitVec 32) (s : State) : Out :=
  if s.cp.snuffs.contains token then
    .next ({ s with cp := { s.cp with snuffs := s.cp.snuffs.erase token } }.cancelToken token)
  else .fault .notEnabled

/-- NON_FINITE_TRAP (R449): the command processor's part: the record, the cancellation of the grid's token, and the end of
the group, with its replicas. A grid already snuffed only counts the trap. -/
def execNonFiniteTrap (group : Nat) (s : State) : Out :=
  let t := s.at_ group 0
  match t.grp.nft with
  | none => .fault .notEnabled
  | some (pc, tseq) =>
    if !t.leads group then .fault .notEnabled else
    let grid := t.gridId
    let g := t.grid
    let token := g.launch.snuff
    let ends := fun (u : State) => (u.partners group).foldl (fun u k =>
      let u := u.at_ k 0
      if u.grp.live then (u.setGrp { u.grp with nft := none }).endGroup else u) u
    if g.ending.snuffed || g.ending.failed then
      let n := AMap.get 0 t.cp.nftTokens token.toNat + 1
      let t := { t with cp := { t.cp with nftTokens := AMap.set t.cp.nftTokens token.toNat n } }
      .next ((ends (t.logGroup 0x000F token (BitVec.ofNat 64 n))).at_ s.gid s.slot)
    else
      let d := BitVec.ofNat 32 (0x0D + 256 * 2 + 65536 * g.sub.queue)
      let t := t.logGroup 0x0004 token (pc.setWidth 64)
      let t := t.logGroup 1 d (pc.setWidth 64)
      let t := t.logGroup 1 d (tseq.setWidth 64)
      let t := t.logGroup 1 d 0
      let t := ends t
      let t := t.cancel grid 2 0x0D
      .next ((t.cancelToken token).at_ s.gid s.slot)

end Sys2Proof.Machine
end

