-- ==== Sys2Proof/Machine/Replicas.lean ====
section
/-! DEFINITION. What the replica wires bring (R377, R381 to R388, R403, R448 to R451, R478): compares and their outcomes,
rendezvous, restarts, votes and re-seeds, notices and forwarded results. -/

namespace Sys2Proof.Machine

/-- A group by its number, and a change of what it keeps as a replica. -/
def State.groupAt (s : State) (g : Nat) : Group := AMap.get {} s.groups g
def State.setReplAt (s : State) (g : Nat) (r : Replica) : State :=
  { s with groups := AMap.set s.groups g { s.groupAt g with repl := r } }
/-- The live replicas of a group, in the order of their numbers. -/
def State.replicaSet (s : State) (g : Nat) : List Nat := (s.partners g).filter fun k => (s.groupAt k).live
/-- Have all replicas of a group started (R69, R372)? They end together, but for a grid that is cancelled, so that one that is not live
is still to come. -/
def State.allThere (s : State) (g : Nat) : Bool :=
  let x := s.gridAt (s.clusterAt (g / 384)).grid
  x.ending.snuffed || x.ending.failed || (s.replicaSet g).length == x.copies
/-- The live replica that leads; the first where that one has ended. -/
def leadOf (s : State) (l : List Nat) : Nat := (l.find? s.leads).getD (l.headD 0)

/-- How a group is named in the log (R465). -/
def State.groupDetail (s : State) (g : Nat) : Word := BitVec.ofNat 32 (g % 32 + 256 * (s.at_ g 0).teamIndex)

/-- The split of a replicated group: it runs as one (R373). -/
def Group.oneSlot (g : Group) : Nat := (slots.find? fun k => (AMap.get {} g.ctx.splits k).live).getD 0
/-- Let a replicated group be the executing one. -/
def State.atReplica (s : State) (g : Nat) : State := s.at_ g (s.groupAt g).oneSlot

/-- The instruction that a waiting replica has issued. -/
def State.waiting_ (s : State) : Option Instr := (s.wordAt s.slot).bind s.accepted

/-- A context as a checkpoint holds it when it names the executing instruction (R383, R451): the state before it. -/
def State.contextBefore (s : State) : Context :=
  let x := s.spl
  let s := s.setSpl { x with wait := none, taken := none, num := none, token := false, word := none, sched := { x.sched with bound := 0 } }
  let s := match x.num with
    | some n => s.setRegs { s.regs with tseq := n }
    | none => s
  s.grp.ctx

/-- Write the executing group's checkpoint (R383, R388): the log keeps the rendezvous of the named instruction and what
follows it. -/
def State.checkpoint (s : State) (c : Context) (skip : Bool) : State :=
  let r := s.grp.repl
  (s.setRepl { r with
    log := r.log.filter fun e => decide (r.number < e.number)
    check := some {
      ctx := c, number := r.number, safes := r.safes, handler := s.grp.handler, trap := s.grp.trap, skip := skip,
      jumped := r.jumped }
  }).keepCheckpoint

/-- The lines of a group that a compare covers (R377, R381): the leader's are verified, a follower's are verified shadow
lines. -/
def State.verify (s : State) (g : Nat) : State :=
  { s with cores := AMap.mapVals (fun _ c => { c with
      l1 := AMap.mapVals (fun _ x => if x.owner == some g then { x with owner := none } else x) c.l1
      shadows := AMap.mapVals (fun k m => if k == g then AMap.mapVals (fun _ x => { x with verified := true }) m else m) c.shadows
      full := if (c.full.map Prod.fst) == some g then none else c.full }) s.cores }

/-- The compare of one replica has matched (R381, R449, R451): its lines are verified, SIG is 0, its checkpoint is written,
and the instruction goes on; an `exit`, a stop or an `rchk` is performed at once, and its checkpoint names what follows. -/
def State.matched (s : State) (g : Nat) : State :=
  let s := (s.verify g).atReplica g
  let r := s.grp.repl
  let before := s.contextBefore
  let s := s.setRepl { r with
    sig := 0, atomics := 0, sent := none, nft := none, again := false, retries := if r.again then r.retries else 0 }
  let s := match r.nft with
    | some x => s.setGrp { s.grp with nft := some x }
    | none => s
  let s := s.setSpl { s.spl with wait := none, token := !r.forced }
  let after := fun (o : Out) => match o with
    | .next t => let t := t.settleGroup
                 if t.grp.live then t.checkpoint t.contextBefore false else t
    | _ => s
  match (if r.forced then (none : Option Instr) else s.waiting_) with
  | some (.exit a) => after (execExit a s)
  | some (.safe a b) => after (execSafe a b s)
  | some (.rchk a) => after (execRchk a s)
  | _ => s.checkpoint before (!r.forced)

/-- The verified shadows that a follower keeps of some lines and tiles are no longer relevant: their bytes stand at the home. -/
def State.forgetShadows (s : State) (g : Nat) (lines : List Nat) (tiles : List TileRef) : State :=
  { s with cores := AMap.mapVals (fun _ c => { c with
      shadows := AMap.mapVals (fun k m => if k == g then
        m.filter fun e => !(e.2.verified && (lines.contains e.1 || tiles.any e.2.ofTile)) else m) c.shadows }) s.cores }
/-- The leader performs its held writes in program order, which clears the poison marks of lines that an engine wrote whole (R371),
and every replica drops its own (R478). -/
def State.performWrites (s : State) (lead : Nat) (l : List Nat) : State :=
  let old := (s.gid, s.slot)
  let held := (s.groupAt lead).repl.writes
  let lines := (held.flatMap fun w => w.parts.map fun e => e.1 / 128).eraseDups
  let s := (held.foldl State.performHeld (s.atReplica lead)).cleared lines
  (l.foldl (fun s g => (s.setReplAt g { (s.groupAt g).repl with writes := [] }).forgetShadows g lines
    (held.flatMap HeldWrite.tiles)) s).at_ old.1 old.2

/-- The shadow lines of a group that are not yet verified are gone (R384). -/
def State.discardShadows (s : State) (g : Nat) (all : Bool) : State :=
  { s with cores := AMap.mapVals (fun _ c => { c with
      shadows := AMap.mapVals (fun k m => if k == g then m.filter fun e => !all && e.2.verified else m) c.shadows }) s.cores }

/-- A replica reloads a checkpoint (R384, R385): registers, SCOUNT and split state; every result is complete. -/
def State.reload (s : State) (g : Nat) (c : Checkpoint) : State :=
  let x := s.groupAt g
  let r := x.repl
  { s with groups := AMap.set s.groups g { x with
      ctx := c.ctx, handler := c.handler, trap := c.trap, pending := [], inflight := [], nft := none,
      repl := { r with
        sig := 0, atomics := 0, sent := none, forced := false, number := c.number, operands := none, agreed := none, due := [],
        forwarded := [], writes := [], nft := none, safes := c.safes, jumped := c.jumped } } }

/-- R384: a replica restarts from its own checkpoint. -/
def State.restart (s : State) (g : Nat) : State :=
  match (s.groupAt g).repl.check with
  | none => s
  | some c =>
    let s := (s.discardUnverified (· == g)).discardShadows g false
    let s := s.reload g c
    s.setReplAt g { (s.groupAt g).repl with again := c.skip }

/-- REPLICA_MISMATCH (R384, R465): both signatures are logged, the leader's first; every replica restarts, or the grid ends
with status 4 once the retries are used up. -/
def State.mismatch (s : State) (group : Nat) : State :=
  let l := s.replicaSet group
  let lead := leadOf s l
  let n := (s.groupAt lead).repl.retries + 1
  let s := (lead :: l.filter (· != lead)).foldl (fun s g =>
    let r := (s.groupAt g).repl
    ((s.at_ g 0).logGroup 0x0002 (s.groupDetail g) (r.sent.getD r.sig)).at_ s.gid s.slot) s
  let s := l.foldl (fun s g => s.setReplAt g { (s.groupAt g).repl with retries := n }) s
  if s.cp.retryLimit < n then
    let t := s.atReplica group
    (t.failGridWith t.gridId 4 0 0x0B t.spl.pc (t.spl.num.getD t.regs.tseq) 0).at_ s.gid s.slot
  else l.foldl State.restart s

/-- The shadow lines of a replica that takes leadership become its verified dirty lines (R385). -/
def State.promote (s : State) (g : Nat) : State :=
  let core := (s.groupAt g).place.core
  let m := AMap.get [] (s.coreAt core).shadows g
  let s := m.foldl (fun s e =>
    let y := s.l1 core e.1
    s.setL1 core e.1 { y with
      data := blend e.2.dirty e.2.data y.data
      valid := y.valid ||| e.2.dirty
      dirty := y.dirty ||| e.2.dirty
      virt := e.2.virt, tile := e.2.tile }) s
  s.discardShadows g true

/-- Leadership of a set passes to a replica (R385), which keeps the clock from now on (R396). The old leader's verified bytes go to their homes first, so that no two
cores hold them dirty. -/
def State.passLead (s : State) (l : List Nat) (old new : Nat) : State :=
  let s := s.writeBackDirty (s.groupAt old).place.core
  let core := (s.groupAt new).place.core
  let c := s.coreAt core
  let kept := (AMap.get [] c.shadows new).filter fun e => !(e.2.verified && s.mem.notices.contains (core, e.1))
  let s := s.setCoreAt core { c with shadows := AMap.set c.shadows new kept }
  let n := s.replicaOf new
  let x := s.groupAt new
  let s := { s with groups := AMap.set s.groups new (x.moveClock (x.place_ + (s.groupAt old).repl.jumped)) }
  let s := l.foldl (fun s g => s.setReplAt g { (s.groupAt g).repl with leader := n }) s
  s.promote new

/-- REPLICA_VOTE (R385): the vote is logged; the outvoted replica gives up its lines, reloads the checkpoint and the log of
the lowest-numbered replica of the majority, and acquires; where the majority's group has ended at its `exit`, it ends too. What was verified stands at its home for its reads. -/
def State.reseed (s : State) (l : List Nat) (out from_ : Nat) (sig : DWord) : State :=
  let old := (s.gid, s.slot)
  let s := ((s.at_ out 0).logGroup 0x0003 (BitVec.ofNat 32 (s.replicaOf out)) sig).at_ old.1 old.2
  let s := if s.leads out then s.passLead l out from_ else s
  let s := (s.discardUnverified (· == out)).discardShadows out true
  let s := s.selfInvalidate (s.groupAt out).place.core
  let s := s.writeBackDirty (s.groupAt (leadOf s l)).place.core
  let r := (s.groupAt from_).repl
  if !(s.groupAt from_).live then ((s.at_ out (s.groupAt out).oneSlot).endGroup).at_ old.1 old.2
  else match r.check with
  | none => s
  | some c =>
    let s := s.reload out c
    s.setReplAt out { (s.groupAt out).repl with
      log := r.log, check := some c, skip := c.skip, again := false, retries := r.retries, stopAt := r.stopAt }

/-- The replicas of a set whose value is that of the largest agreeing part, if two at least agree. -/
def majority {α : Type} [BEq α] (l : List (Nat × α)) : Option (List Nat) :=
  (l.find? fun e => decide (2 ≤ (l.filter fun f => f.2 == e.2).length)).map fun e => (l.filter fun f => f.2 == e.2).map Prod.fst

/-- The compare of a set is decided (R381, R384, R385). -/
def State.decideCompare (s : State) (l : List Nat) (sigs : List (Nat × DWord)) : State :=
  match majority sigs with
  | none => s.mismatch (l.headD 0)
  | some maj =>
    let out := l.filter fun g => !maj.contains g
    let s := maj.foldl (fun s g => (s.matched g).at_ s.gid s.slot) s
    let s := out.foldl (fun s g => s.reseed l g (maj.headD 0) (AMap.get 0 sigs g)) s
    s.performWrites (leadOf s l) l

/-- REPLICA_SIG (R381 to R385): the signatures of all replicas have arrived. -/
def execReplicaSig (group : Nat) (s : State) : Out :=
  let l := s.replicaSet group
  let sigs := l.filterMap fun g => (s.groupAt g).repl.sent.map fun x => (g, x)
  if l.contains group && 2 ≤ l.length && s.allThere group && sigs.length == l.length then
    .next ((s.decideCompare l sigs).at_ s.gid s.slot)
  else .fault .notEnabled

/-- The cycles after which a partner that has not come counts as a mismatch (R382). -/
def replicaPatience : Nat := 2 ^ 24
/-- Has the executing replica waited too long? -/
def State.impatient (s : State) : Bool := decide (s.grp.repl.since + replicaPatience ≤ s.time.cycle)

/-- COMPARE_TIMEOUT (R382). -/
def execCompareTimeout (group : Nat) (s : State) : Out :=
  let t := s.atReplica group
  if t.grp.live && t.spl.wait == some .compare && t.grp.repl.sent.isSome && t.impatient &&
      (!s.allThere group || (s.replicaSet group).any fun g => (s.groupAt g).repl.sent.isNone) then
    .next (s.mismatch group)
  else .fault .notEnabled

/-- What a rendezvous compares (R386). -/
def LogEntry.sent (e : LogEntry) : LogEntry := { e with results := [], result := 0 }

/-- RENDEZVOUS_OPERANDS (R386, R396): the operands of all replicas have arrived; where they agree, the leader performs the
operation, or the lowest replica of the majority, which then leads. -/
def execRendezvousOperands (group : Nat) (s : State) : Out :=
  let l := s.replicaSet group
  let ops := l.filterMap fun g => (s.groupAt g).repl.operands.map fun e => (g, e.sent)
  if !(l.contains group && 2 ≤ l.length && s.allThere group && ops.length == l.length) || l.any fun g => (s.groupAt g).repl.agreed.isSome then
    .fault .notEnabled
  else match majority ops with
  | none => .next (s.mismatch group)
  | some maj =>
    let out := l.filter fun g => !maj.contains g
    let s := out.foldl (fun s g => s.reseed l g (maj.headD 0) (s.groupAt g).repl.sig) s
    let lead := leadOf s l
    .next (s.setReplAt lead { (s.groupAt lead).repl with agreed := some ((s.groupAt lead).repl.number + 1) })

/-- RENDEZVOUS_TIMEOUT (R386). -/
def execRendezvousTimeout (group : Nat) (s : State) : Out :=
  let t := s.atReplica group
  if t.grp.live && t.spl.wait == some .rendezvous && t.grp.repl.operands.isSome && t.impatient &&
      (!s.allThere group || (s.replicaSet group).any fun g => (s.groupAt g).repl.operands.isNone) then
    .next (s.mismatch group)
  else .fault .notEnabled

/-- LDA_FORWARD_TIMEOUT (R403). -/
def execLdaForwardTimeout (group : Nat) (s : State) : Out :=
  let t := s.atReplica group
  if t.grp.live && t.spl.wait == some .rendezvous && t.grp.repl.operands.isNone && t.grp.repl.forwarded.isEmpty && t.impatient then
    .next (s.mismatch group)
  else .fault .notEnabled

/-- A verified shadow becomes an ordinary clean line of its core (R377): its bytes are valid where the L1 holds no dirty ones. A
line of a tiled page, which has come without its tile's header, and one that is held under another virtual address, leave
(R217, R231). -/
def State.cleanShadow (s : State) (core line : Nat) (e : L1Line) : State :=
  let y := s.l1 core line
  let fresh := !AMap.has (s.coreAt core).l1 line
  if e.tile.isSome || !(fresh || y.virt == e.virt) then s
  else s.setL1 core line { y with
    data := blend (e.dirty &&& ~~~y.dirty) e.data y.data, valid := y.valid ||| e.dirty, virt := e.virt
    filled := if fresh then s.time.cycle else y.filled }
/-- REPLICA_NOTICE (R377): the leader's copy of a line has gone to its home: a verified shadow of it on a core is an ordinary
clean line. -/
def execReplicaNotice (core line : Nat) (s : State) : Out :=
  if s.mem.notices.contains (core, line) then
    let c := s.coreAt core
    let clean := (c.shadows.flatMap Prod.snd).filter fun e => e.1 == line && e.2.verified
    let t := { s with mem := { s.mem with notices := s.mem.notices.erase (core, line) } }
    let t := t.setCoreAt core { c with
      shadows := AMap.mapVals (fun _ m => m.filter fun e => !(e.1 == line && e.2.verified)) c.shadows }
    .next (clean.foldl (fun t e => t.cleanShadow core line e.2) t)
  else .fault .notEnabled

/-- REPLICA_RESULT (R386, R387, R403): a result or a value of the leader arrives. -/
def execReplicaResult (group : Nat) (s : State) : Out :=
  let r := (s.groupAt group).repl
  match r.due with
  | [] => .fault .notEnabled
  | .result e :: rest => .next (s.setReplAt group { r with due := rest, log := r.log ++ [e] })
  | .value n x :: rest => .next (s.setReplAt group { r with due := rest, forwarded := r.forwarded ++ [(n, x)] })

end Sys2Proof.Machine
end

