-- ==== Sys2Proof/Machine/Determinism.lean ====
section
/-! DEFINITION. The ends of periods and the serial phase of deterministic mode (R390 to R394, R396, R418). -/

namespace Sys2Proof.Machine

/-- PERIOD_END (R393): a group whose clock has reached the end of its period stops before its next instruction. Whether it
stands there follows from its clock, so the state stays as it is. -/
def execPeriodEnd (group : Nat) (s : State) : Out :=
  let t := s.at_ group 0
  if t.groupRuns && t.periodOver then .next s else .fault .notEnabled

/-- The groups whose unverified bytes a wait is for (R374, R375). -/
def State.holders (s : State) (w : Wait) : List Nat :=
  match w with
  | .line l => s.cores.filterMap fun c => if s.foreign c.1 l then (s.l1 c.1 l).owner else none
  | .demand core epoch => (s.coreAt core).l1.filterMap fun e => match e.2.owner, e.2.tag with
    | some g, some t => if atOrBefore t epoch then some g else none
    | _, _ => none
  | .room _ => (s.core.full.map Prod.fst).toList
  | _ => []
/-- Is every split of a leader group stopped, or does it wait for what only the serial phase brings, itself or through the groups
that it waits for (R393)? What goes on by itself is waited for: a wait that is over, a turn that has come, a replica's partners, an
engine's range, a lock, an AtomicOp, a bin that can take a thread, so that the phase falls at one place of every instruction stream (R395). -/
def State.restsFor : Nat → State → Nat → Bool
  | 0, _, _ => false
  | n + 1, s, g =>
    let t := s.at_ g 0
    !t.leads g || !t.groupRuns || slots.all fun k =>
      let x := t.splitAt k
      !x.live || x.sched.stopped.isSome || x.sched.parked || match x.wait with
        | none => t.periodOver
        | some (.spawn _ entry _) => !t.canPlace entry
        | some w => !t.waitOver k w && match w with
          | .compare => false
          | .rendezvous => false
          | .range _ _ _ => false
          | .lock _ => false
          | .atomics _ => false
          | .line _ => let l := t.holders w; !l.isEmpty && l.all (State.restsFor n s)
          | .demand _ _ => let l := t.holders w; !l.isEmpty && l.all (State.restsFor n s)
          | .room _ => let l := t.holders w; !l.isEmpty && l.all (State.restsFor n s)
          | _ => true
/-- Does a leader group of a deterministic grid rest? -/
def State.rests (s : State) (g : Nat) : Bool := State.restsFor (s.groups.length + 1) s g

/-- The agents of each buffered line of a grid: pairs of line and team. -/
def State.bufferedBy (s : State) (grid : Nat) : List (Nat × Nat) :=
  ((s.orderedTeams grid).flatMap fun t => (s.teamAt t).bufferedLines.map fun l => (l, (s.at_ (32 * t) 0).teamIndex))

/-- The commands of a team at which its contexts stand: the first of each that has not started, with its context. -/
def Team.standing (t : Team) : List (Nat × Cmd) := t.ctxs.filterMap fun x => (x.2.queue.find? fun c => !c.started).map fun c => (x.1, c)
/-- The lines that the waiting accesses of a grid's groups and engines ask for. -/
def State.askedLines (s : State) (grid : Nat) : List Nat :=
  (((s.gridGroups grid).flatMap fun g => (AMap.get {} s.groups g).ctx.splits.flatMap fun e =>
    match e.2.wait with
    | some (.held l) => if e.2.live then l else []
    | _ => []) ++
  (s.gridTeams grid).flatMap fun t => (s.teamAt t).standing.flatMap fun e => (s.at_ e.2.gid e.2.slot).heldLines e.1 e.2).eraseDups

/-- Does some core hold unverified bytes of a line (R374)? -/
def State.unverified (s : State) (line : Nat) : Bool := s.cores.any fun c => (AMap.get {} c.2.l1 line).owner.isSome
/-- No core of a grid keeps a copy of a line: dirty bytes go home (R393, step 3). -/
def State.recallGrid (s : State) (grid line : Nat) : State :=
  ((s.gridTeams grid).map fun t => (s.teamAt t).core).eraseDups.foldl (fun s c => s.purge c line) s

/-- After the serial phase: accesses that were held are performed in the order of the clocks, and each group released has
moved past its own clock (R392, R393); a `dsync` finds the new period's first clock (R418). -/
def releaseHeld (start : Nat) (g : Group) : Group :=
  let r := g.ctx.regs
  let heldOf := fun (x : Split) => match x.wait with
    | some (.held _) => x.live
    | _ => false
  let syncs := g.ctx.splits.any fun e => match e.2.wait with
    | some (.period _) => e.2.live
    | _ => false
  let clock := if g.ctx.splits.any (fun e => heldOf e.2) then r.clock + 1
    else if syncs && decide (r.clock.toNat < start) then BitVec.ofNat 64 start else r.clock
  let g := { g.moveClock clock with heard := false }
  { g with ctx := { g.ctx with splits := AMap.mapVals (fun _ x => if heldOf x then { x with wait := some .turn } else x) g.ctx.splits } }

/-- Is every engine command of a team done, as far as the serial phase waits for it (R393, step 1)? A shade command that waits for
the team's buffered stores (R290), and a command that is held on a line private to another team (R391), cannot start before the phase, and
so come after it (log 10). -/
def State.enginesDone (s : State) (team : Nat) : Bool :=
  (s.teamAt team).ctxs.all fun x =>
    match x.2.queue.filter fun c => !c.done with
    | [] => true
    | c :: _ => !c.started && ((x.1 == 1 && isShade c.op && (s.ofTeam team).tilesBuffered c) ||
        !((s.at_ c.gid c.slot).heldLines x.1 c).isEmpty)
/-- SERIAL_PHASE (R393, R394, R396): every live leader group rests and every engine command is done. The buffers are
committed; lines become private or shared; what was held goes on; PERIOD advances. -/
def execSerialPhase (grid : Nat) (s : State) : Out :=
  let g := s.gridAt grid
  let live := s.gridGroups grid
  if !g.live || !g.launch.det || live.isEmpty || !(live.all s.rests) ||
    !((s.gridTeams grid).all s.enginesDone) || s.host.atomics.any (fun o => live.contains o.gid) then
    .fault .notEnabled
  else
    let by_ := s.bufferedBy grid
    let asked := (s.askedLines grid).filter fun l => !s.unverified l
    let s := (asked ++ by_.map Prod.fst).eraseDups.foldl (fun s l => s.recallGrid grid l) s
    let s := s.commitBuffers grid
    let g := s.gridAt grid
    let own := asked.foldl (fun m l => if (AMap.get {} m l : Own).state == 1 then AMap.set m l { state := 2, team := 0 } else m) g.det.own
    let own := by_.foldl (fun m e =>
      let many := by_.any fun f => f.1 == e.1 && f.2 != e.2
      if asked.contains e.1 || many then AMap.set m e.1 { state := 2, team := 0 }
      else AMap.set m e.1 { state := 1, team := BitVec.ofNat 32 e.2 }) own
    let period := g.det.period + 1
    let s := s.setGridAt grid { g with det := { period := period, arrived := [], released := [], own := own } }
    .next { s with groups := AMap.mapVals (fun k x =>
      if live.contains k then releaseHeld (period.toNat * g.launch.period) x else x) s.groups }

end Sys2Proof.Machine
end

