-- ==== Sys2Proof/Machine/Lamplighter.lean ====
section
/-! DEFINITION. What Lamplighter does (R369 to R371, R462 to R469): service levels, failures, salvage, retired pages, clock
steps, shutdown, firmware and reset. -/

namespace Sys2Proof.Machine

/-- SVC from a level and the dies in service (R459). -/
def svcOf (level dies : Nat) : Word := BitVec.ofNat 32 (level + 4096 * dies)
/-- The dies in service as bits. -/
def State.dieBits (s : State) : Nat := (s.host.svc.extractLsb' 12 4).toNat

/-- A change of the service level (R459, R468): SVC, LEASECAP less what firmware keeps and, from full service on, the salvage
areas (R370), and the record 0x000C. -/
def State.setService (s : State) (level dies : Nat) : State :=
  let n := ((List.range 4).filter dies.testBit).length
  let s := { s with host := { s.host with
    svc := svcOf level dies
    leasecap := BitVec.ofNat 64 (n * Config.dieBytes - Config.firmwareBytes level - if 2 ≤ level then n * Config.salvageBytes else 0) } }
  s.logDevice 0x000C (svcOf level dies) 0

/-- A grid ends for a cause that no instruction raised: its first group on a core that satisfies a test names the place. -/
def State.endGrid (s : State) (grid detail : Nat) : State :=
  let g := (s.gridGroups grid).headD 0
  ((s.at_ g 0).failGridWith grid 2 detail detail 0 0 0).at_ s.gid s.slot
/-- The grids that have begun to run and have not retired (R463). -/
def State.runningGrids (s : State) : List Nat :=
  (s.grids.filter fun e => e.2.live && e.2.phase == .taken && e.2.next != 0).map Prod.fst

/-- The bytes of a line that a mask names, the others 0. -/
def maskedBytes (mask : BitVec 128) (data : BitVec 1024) : List Byte :=
  (List.range 128).map fun k => if mask.getLsbD k then lineByte data k else 0
/-- A line that an agent holds in E, M or P when its home fails (R370): the state, the module for the fabric, the bytes that it
holds dirty or possibly dirty, and its data. -/
structure Orphan where
  line : Nat
  agent : Nat
  st : BitVec 3
  module : Nat
  mask : BitVec 128
  data : BitVec 1024
/-- A salvage record (R370), with the state codes 1 E, 2 M, 3 P. -/
def salvageRecord (o : Orphan) : List Byte :=
  leBytes 8 (128 * o.line) ++ leBytes 16 o.mask.toNat ++ leBytes 1 (o.st.toNat - 1) ++ leBytes 1 o.agent ++
    leBytes 2 o.module ++ leBytes 4 0 ++ maskedBytes o.mask o.data
/-- What a holder holds dirty, or possibly dirty, in E, M or P (R370). -/
def orphanMask (st : BitVec 3) (c : Copy) : BitVec 128 :=
  if st == 2 then BitVec.allOnes 128 else if st == 3 then c.dirty else c.claim

/-- The module that holds a line of this module through the fabric agent (R366, R370). -/
def State.moduleOf (s : State) (line agent : Nat) : Nat := if agent = 5 then (s.switchEntry line).modules.headD 0 else 0
/-- The bytes of a holder that a write-back carries to the home (R361). -/
def State.wbMask (s : State) (line a : Nat) : BitVec 128 :=
  s.mem.msgs.foldl (fun m x => match x with
    | .wbData l b _ w true => if l == line && b == a then m ||| w else m
    | _ => m) 0
/-- The state in which a holder holds its copy: a write makes E M silently (R359). -/
def heldState (st : BitVec 3) (c : Copy) : BitVec 3 := if st == 2 && c.dirty != 0 then 3 else st
/-- The orphans of a failed die (R370): what its entries' holders hold, and the dirty copies on their way between agents. -/
def State.orphans (s : State) (die : Nat) : List Orphan :=
  let held := s.mem.dir.flatMap fun e =>
    if homeDie e.1 == some die && decide (2 ≤ e.2.st.toNat) then
      (e.2.holders.filter fun a => a != die && AMap.has e.2.copies a).map fun a =>
        let st := heldState e.2.st (e.2.copy a)
        ({ line := e.1, agent := a, st := st, module := s.moduleOf e.1 a
           mask := orphanMask st (e.2.copy a) ||| s.wbMask e.1 a, data := (e.2.copy a).data } : Orphan)
    else []
  let moving := s.mem.msgs.filterMap fun m => match m with
    | .fwdData l a d w true =>
      if homeDie l == some die then some ({ line := l, agent := a, st := 3, module := s.moduleOf l a, mask := w, data := d } : Orphan)
      else none
    | .wbData l a d w false =>
      if homeDie l == some die && a != die then some { line := l, agent := a, st := 3, module := s.moduleOf l a, mask := w, data := d }
      else none
    | _ => none
  held ++ moving
/-- Where the salvage area of a die lies: in its own memory, at a place that firmware chooses. -/
def salvageBase (die : Nat) : Nat :=
  die * Config.dieBytes + Config.salvageBase die % ((Config.dieBytes - Config.salvageBytes) / 128 + 1) * 128

/-- The lines of live dies that the failed die held alone or in part are marked poisoned, and its copies are gone (R371);
clean shared copies simply go. -/
def State.loseHolder (s : State) (die : Nat) : State :=
  (s.mem.dir.filter fun e => e.2.ag.getLsbD die && homeDie e.1 != some die).foldl (fun s e =>
    let s := State.settle 64 e.1 s
    let d := s.dirEntry e.1
    if !d.ag.getLsbD die then s
    else if d.st == 1 then s.setDir e.1 (d.revoke die)
    else
      let s := s.setDir e.1 (d.revoke die)
      let s := if d.st == 4 then s.merge e.1 else s
      { s with mem := { s.mem with poison := e.1 :: s.mem.poison.erase e.1 } }) s

/-- Salvage (R370): a record for each orphan, in the area of the lowest live die, as far as there is room; then no copy of a
line of the failed die is left. -/
def State.salvage (s : State) (die : Nat) : State :=
  let l := s.orphans die
  let s := { s with mem := { s.mem with
    dir := s.mem.dir.filter fun e => homeDie e.1 != some die
    stalled := s.mem.stalled.filter fun e => homeDie e.1 != some die
    switch := s.mem.switch.filter fun e => homeDie e.1 != some die
    msgs := s.mem.msgs.filter fun m => homeDie m.line != some die } }
  match (List.range 4).find? fun d => d != die && s.inService d with
  | none => if l.isEmpty then s else s.logDevice 0x0008 (BitVec.ofNat 32 l.length) 0
  | some d =>
    let n := min l.length Config.salvageRecords
    let base := salvageBase d
    let s := (l.take n).zipIdx.foldl (fun s e => s.physWriteRun (base + 160 * e.2) (salvageRecord e.1)) s
    let s := s.logDevice 0x0007 (BitVec.ofNat 32 n) (BitVec.ofNat 64 base)
    if n < l.length then s.logDevice 0x0008 (BitVec.ofNat 32 (l.length - n)) 0 else s

/-- DIE_FAILURE (R369 to R371, R468): grids with a team on the die end; wicks that name its cores get DR; its orphans are
salvaged; what it held of other dies' lines is poisoned; the device is in partial service. -/
def execDieFailure (die : Nat) (s : State) : Out :=
  if !(decide (die < 4) && s.inService die) then .fault .notEnabled
  else
    let s := s.logAt 0x0006 (BitVec.ofNat 8 die) 0xFF 0 0
    let hit := s.runningGrids.filter fun g => (s.clustersOf g).any fun c =>
      ((s.clusterAt c).act == .active || (s.clusterAt c).act == .parked) && (s.teamsOf c).any fun t => (s.teamAt t).core / 72 == die
    let s := hit.foldl (fun s g => s.endGrid g 0x09) s
    let s := { s with
      mem := { s.mem with
        wicks := AMap.mapVals (fun _ w => if w.die.toNat == die then { w with dr := true } else w) s.mem.wicks
        demands := s.mem.demands.filter fun d => d.die != die
        notices := s.mem.notices.filter fun e => e.1 / 72 != die }
      cores := AMap.mapVals (fun k c => if k / 72 == die then { c with l1 := [], shadows := [], headers := [] } else c) s.cores }
    let s := s.loseHolder die
    let s := s.salvage die
    let s := { s with lamp := { s.lamp with failed := die :: s.lamp.failed } }
    .next (s.setService (if s.level == 2 then 3 else s.level) (s.dieBits - 2 ^ die))

/-- The collectives in progress that name a module: team, command. -/
def State.collectivesNaming (s : State) (peer : Nat) : List (Nat × Cmd) :=
  s.teams.flatMap fun t => ((AMap.get {} t.2.ctxs 3).queue.filter fun c =>
    c.started && !c.done && c.table.any fun e => e % 1024 == peer).map fun c => (t.1, c)

/-- PEER_UNREACHABLE (R462): later accesses to the module's memory are poisoned, and collectives that name it end the grids of
their participants here. -/
def execPeerUnreachable (peer : Nat) (s : State) : Out :=
  if 1024 ≤ peer || s.lamp.unreachable.contains peer || peer == s.host.modnum.toNat % 1024 then .fault .notEnabled
  else
    let s := s.logDevice 0x000A (BitVec.ofNat 32 peer) 0
    let s := { s with
      lamp := { s.lamp with unreachable := peer :: s.lamp.unreachable }
      posts := s.posts.filter fun p => !(p.table.any fun e => e % 1024 == peer) }
    .next ((s.collectivesNaming peer).foldl (fun s e =>
      ((s.at_ e.2.gid e.2.slot).engineFault 3 e.2 0x09 (e.2.ops.getD 2 0)).at_ s.gid s.slot) s)

/-- PAGE_RETIRE (R466): firmware retires a page frame after errors. -/
def execPageRetire (pa errors : Nat) (s : State) : Out :=
  let frame := pa / 65536 * 65536
  if Config.hbmBytes ≤ pa || s.lamp.retired.contains frame then .fault .notEnabled
  else
    let s := s.logAt 0x0009 (BitVec.ofNat 8 (pa / Config.dieBytes)) 0xFF (BitVec.ofNat 32 errors) (BitVec.ofNat 64 frame)
    .next { s with lamp := { s.lamp with retired := frame :: s.lamp.retired } }

/-- The clock range of a die at the present service level in MHz (R463, R468). -/
def clockFloor : Nat := 1200
def State.clockTop (s : State) : Nat := if s.level == 1 then 1200 else 3600
/-- The clocks change: what lines of tiled pages have stayed so far counts in mesh cycles under the clock before (R231). -/
def State.setClocks (s : State) (new : List Nat) : State :=
  let stay := fun (old : Nat) (x : L1Line) =>
    if x.tile.isNone then x
    else { x with aged := x.aged + (s.time.cycle - x.filled) * Config.meshClock / old, filled := s.time.cycle }
  { s with
    lamp := { s.lamp with clocks := new }
    cores := AMap.mapVals (fun k c =>
      let old := s.lamp.clocks.getD (k / 72) 0
      if old == new.getD (k / 72) 0 then c else { c with l1 := AMap.mapVals (fun _ x => stay old x) c.l1 }) s.cores }
/-- One clock step of one die (R463): 100 MHz, within its range; a step that changes the clock is logged. -/
def State.clockStep (s : State) (sensor die : Nat) (up : Bool) : State :=
  let old := s.lamp.clocks.getD die 0
  let new := if up then min s.clockTop (old + 100) else max clockFloor (old - 100)
  if new == old || !s.inService die then s
  else
    let s := s.setClocks (s.lamp.clocks.set die new)
    s.logAt 0x000B (BitVec.ofNat 8 die) 0xFF (BitVec.ofNat 32 new) (BitVec.ofNat 64 sensor)

/-- The refresh interval of one stack is halved, or as it was (R463). -/
def State.halve (s : State) (stack : Nat) (hot : Bool) : State :=
  let rest := s.lamp.halved.filter (· != stack)
  { s with lamp := { s.lamp with halved := if hot then stack :: rest else rest } }
/-- The records that the RAM and the flash of Lamplighter keep: rings in which the oldest is overwritten (R464). -/
def Lamp.inRam (l : Lamp) : List LogRecord := l.log.take 8192
def Lamp.inFlash (l : Lamp) : List LogRecord := l.log.take 262144

/-- A shutdown (R463): every running grid ends with status 2 and detail 0, queued launches stay queued, and there is no
service until the next reset. -/
def State.shutdown (s : State) : State :=
  let s := s.runningGrids.foldl (fun s g => s.endGrid g 0) s
  let s := s.setService 0 0
  { s with lamp := { s.lamp with down := true } }

/-- SENSOR_LIMIT (R463). The sensors are numbered by the model (log 32): 0 module power, 1 and 2 a die's temperature above
105 and above 115 °C, 3 and 5 the temperature of a die's lower and upper stack, 4 a supply voltage; 16 and more, that the
cause 16 less has passed. -/
def execSensorLimit (sensor die : Nat) (s : State) : Out :=
  let all := fun (up : Bool) => (List.range 4).foldl (fun s d => s.clockStep (sensor % 16) d up) s
  if 4 ≤ die || s.level == 0 then .fault .notEnabled
  else match sensor with
  | 0 => .next (all false)
  | 1 => .next (s.clockStep 1 die false)
  | 2 => .next s.shutdown
  | 3 => .next ((s.halve (2 * die) true).clockStep 3 die false)
  | 5 => .next ((s.halve (2 * die + 1) true).clockStep 5 die false)
  | 4 => .next s.shutdown
  | 16 => .next (all true)
  | 17 => .next (s.clockStep 1 die true)
  | 19 => .next ((s.halve (2 * die) false).clockStep 3 die true)
  | 21 => .next ((s.halve (2 * die + 1) false).clockStep 5 die true)
  | _ => .fault .notEnabled

/-- COOLANT_FLOW_TIMEOUT (R463): the flow was below the rating for two seconds. -/
def execCoolantFlowTimeout (s : State) : Out := if s.level == 0 then .fault .notEnabled else .next s.shutdown

/-- A firmware slot by its number, 0 A and 1 B. -/
def Lamp.slot (l : Lamp) (k : Nat) : Firmware := if k = 0 then l.slotA else l.slotB
def Lamp.setSlot (l : Lamp) (k : Nat) (f : Firmware) : Lamp := if k = 0 then { l with slotA := f } else { l with slotB := f }
/-- What Lamplighter keeps over a reset after some cycles: its count, its log, its slots, the frames it has retired and the modules
it has lost. -/
def Lamp.kept (l : Lamp) (cycles : Nat) : Lamp :=
  { l with powered := l.powered + cycles, trial := false, down := false, clocks := [0, 0, 0, 0], halved := [], failed := [] }

/-- RESET (R467, R468): everything returns to its state after reset; a pending slot takes effect. -/
def execReset (s : State) : Out :=
  let l := s.lamp.kept s.time.cycle
  let other := 1 - l.active
  let f := l.slot other
  let fresh := { State.reset with lamp := l }
  if f.valid && f.pending then
    let l := { (l.setSlot other { f with pending := false }) with active := other, trial := true }
    .next ({ fresh with lamp := l }.logDevice 0x000D (BitVec.ofNat 32 other) f.version)
  else .next fresh

/-- The firmware that runs sets its policies (R77): a T outside 256 to 65,535 leaves the default. -/
def State.setPolicy (s : State) : State :=
  let v := (s.lamp.slot s.lamp.active).version
  let t := (Config.binTimer v).toNat
  { s with cp := { s.cp with binTimer := if 256 ≤ t then t else 2048, retryLimit := (Config.retries v).toNat } }

/-- Lamplighter fixes the personality of the host link (R468, step 1). -/
def State.fixLink (s : State) : State := { s with host := { s.host with link := if Config.cxlPersonality then 1 else 0 } }
/-- DIE_TRAINING_COMPLETE (R77, R467, R468): without D0 trained, step 1 of the bring-up; D0 trained brings reduced service, and a trial of new firmware has held; all dies
trained bring full service; otherwise the level stays. -/
def execDieTrainingComplete (trained : BitVec 4) (s : State) : Out :=
  if s.lamp.down then .fault .notEnabled
  else if s.level == 0 then
    let s := s.fixLink
    if trained.getLsbD 0 then
      let s := { s with
        lamp := { s.lamp with trial := false, clocks := [1200, 0, 0, 0] }
        host := { s.host with modnum := Config.moduleNumber &&& 0x800003FF#32 } }
      .next (s.setPolicy.setService 1 1)
    else .next s
  else if s.level == 1 then
    if trained == 0xF then
      .next ((s.setClocks [3600, 3600, 3600, 3600]).setService 2 15)
    else .next s
  else .fault .notEnabled

/-- FIRMWARE_UPDATE (R467): a bundle is written into the slot that does not run; one whose signature fails is discarded. -/
def execFirmwareUpdate (signed : Bool) (version : Nat) (s : State) : Out :=
  let f : Firmware := if signed then { version := BitVec.ofNat 64 version, valid := true, pending := true } else {}
  .next { s with lamp := s.lamp.setSlot (1 - s.lamp.active) f }

/-- FIRMWARE_FALLBACK (R467): the new slot has not reached reduced service within 60 seconds: a reset from the other slot. -/
def execFirmwareFallback (s : State) : Out :=
  if !(s.lamp.trial && s.level == 0) then .fault .notEnabled
  else
    let l := s.lamp.kept s.time.cycle
    let failed := l.slot l.active
    let l := { l with active := 1 - l.active }
    .next ({ State.reset with lamp := l }.logDevice 0x0010 (BitVec.ofNat 32 l.active) failed.version)

end Sys2Proof.Machine
end

