-- ==== Sys2Proof/Machine/Slots.lean ====
section
/-! DEFINITION. What becomes of an instruction after it has issued (R89, R121, R220, R439), and the fetch, the age and the
safe-point distance of a split (R112, R141, R443). -/

namespace Sys2Proof.Machine

/-- A result becomes readable (R89). -/
def arriveResult (cycle : Nat) (tseq : Word) (l : List Inflight) : List Inflight :=
  dropReadable cycle (l.map fun e => if e.tseq == tseq && e.ready.isNone then { e with ready := some cycle } else e)

/-- Is the result of an instruction still with another unit: the matrix engine, the host, or a line request that has no entry
yet (R220, R310, R472)? -/
def State.resultHeld (s : State) (gid : Nat) (tseq : Word) : Bool :=
  s.cores.any (fun c => c.2.matrix.any (fun m => m.gid == gid && m.tseq == tseq) ||
    c.2.misses.any fun m => m.gid == gid && m.tseq == tseq && m.entry == 0) ||
  s.host.atomics.any fun o => o.gid == gid && o.tseq == tseq

/-- The commands that wait for a group predicate among some results take its value (R128). -/
def State.resolveWritten (s : State) (l : List Inflight) : State :=
  (List.range 4).foldl (fun s x => s.resolveGuards (fun c => c.gid == s.gid && match c.guard with
    | .pending q => l.any fun e => e.reg == .q q
    | _ => false) x) s

/-- Can the fault of an outstanding load still be deferred (R439): is the split's state before it kept, and has the split done
nothing since that could not be cancelled? A later access that has been performed says that the load has passed its tests. -/
def State.mayDefer (s : State) (e : Inflight) : Bool :=
  e.ready.isNone && e.before.isSome && (s.splitAt e.slot).live && match (s.splitAt e.slot).solid with
    | some n => n == e.tseq || seqBefore n e.tseq
    | none => true
/-- The line request of an instruction whose data comes back poisoned: its home, or its module, has failed since (R369, R462). -/
def State.lostMiss (s : State) (gid : Nat) (tseq : Word) : Option Miss :=
  s.cores.findSome? fun c => c.2.misses.find? fun m => m.gid == gid && m.tseq == tseq && s.poisoned m.line
/-- VARIABLE_LATENCY_RESULT (R89, R121, R128): the results of an instruction are written, and a compare-and-swap that failed
demotes its split. Data that comes back poisoned is no result (R369). -/
def execVariableLatencyResult (group : Nat) (tseq : BitVec 32) (s : State) : Out :=
  let t := s.at_ group 0
  match t.grp.inflight.find? fun e => e.tseq == tseq && e.ready.isNone with
  | none => .fault .notEnabled
  | some e =>
    if t.resultHeld group tseq || (t.mayDefer e && (t.lostMiss group tseq).isSome) then .fault .notEnabled
    else
      let t := t.resolveWritten (t.grp.inflight.filter fun e => e.tseq == tseq && e.ready.isNone)
      let t := t.setGrp { t.grp with inflight := arriveResult t.time.cycle tseq t.grp.inflight }
      let c := t.core
      let t := t.setCore { c with misses := c.misses.filter fun m => !(m.gid == group && m.tseq == tseq) }
      let t := t.at_ group e.slot
      let t := if e.demotes && t.spl.live then t.demote tseq else t
      .next (t.at_ s.gid s.slot)

/-- A newer write of a sibling to the same group-wide register covers a cancelled one: it is the newer one that held the old
value (R90, R439). -/
def coveredBy (e : Inflight) : List Inflight → Option (List Inflight)
  | [] => none
  | f :: r =>
    match coveredBy e r with
    | some l => some (f :: l)
    | none => if f.reg == e.reg && f.lanes &&& e.lanes == f.lanes then some ({ f with old := e.old } :: r) else none
/-- Undo some results, newest first: the registers as they held before, and the results that stay, newest first (R439). -/
def undoResults (mine : Inflight → Bool) : List Inflight → List Inflight → Regs → List Inflight × Regs
  | [], kept, r => (kept, r)
  | e :: l, kept, r =>
    if !mine e then undoResults mine l (kept ++ [e]) r
    else match coveredBy e kept with
    | some kept => undoResults mine l kept r
    | none => undoResults mine l kept (r.restore e.reg e.lanes e.old)

/-- What a cancelled instruction has left in the replicas' and the group's pending non-finite traps goes (R439, R449). -/
def Group.undoTraps (g : Group) (undone : List Inflight) : Group :=
  let keep := fun (x : Option (Addr × Word)) => x.filter fun e => undone.all fun f => f.tseq != e.2
  { g with nft := keep g.nft, repl := { g.repl with nft := keep g.repl.nft } }

/-- A load whose fault can still be found (R439), and the number of its split's state before it. -/
def State.faultable (s : State) (tseq : Word) : Option Inflight :=
  s.grp.inflight.find? fun e => e.slot == s.slot && e.tseq == tseq && e.ready.isNone && e.before.isSome

/-- Everything that the executing split has issued from an instruction on is cancelled with all its effects (R439); what its
siblings have done stays. -/
def State.cancelFrom (s : State) (tseq : Word) (b : Split) : State :=
  let x := s.spl
  let mine := fun (f : Inflight) => f.slot == s.slot && !seqBefore f.tseq tseq
  let undone := s.grp.inflight.filter mine
  let (kept, r) := undoResults mine s.grp.inflight [] s.regs
  let r := { r with clock := r.clock - BitVec.ofNat 64 (x.dist - b.dist) }
  let demo := match x.demo.by_ with
    | some n => if seqBefore n tseq then x.demo else b.demo
    | none => x.demo
  let c := s.grp.ctx
  let g := s.grp.undoTraps undone
  let y := { b with num := none, taken := none, demo := demo, sched := { x.sched with parked := b.sched.parked, bound := 0 } }
  let s := s.setGrp { g with
    inflight := kept
    pending := g.pending.filter (·.slot != s.slot)
    ctx := { c with regs := r, splits := AMap.set c.splits s.slot y } }
  let k := s.core
  s.setCore { k with misses := k.misses.filter fun m => !(m.gid == s.gid && undone.any fun f => f.tseq == m.tseq) }

/-- DEFERRED_FAULT (R439, R440): a test of rows 6 to 9 of a load fails after the split has gone on: everything it issued since is
cancelled, and the fault is pending; the pending one of lowest TSEQ is delivered at the end of the cycle. A fault found after the
group's slot had its turn counts for the next cycle. -/
def execDeferredFault (group slot : Nat) (tseq : BitVec 32) (cls : Nat) (adda addb : BitVec 56) (s : State) : Out :=
  let t := s.at_ group slot
  match t.faultable tseq with
  | none => .fault .notEnabled
  | some e =>
    let b := e.before.getD {}
    if !t.mayDefer e || cls < 5 || 9 < cls || t.resultHeld group tseq || slotNumber group t.grp < s.time.turn then .fault .notEnabled
    else
      let t := t.cancelFrom tseq b
      let f : PendingFault := { slot := slot, cls := cls, detail := 0, pc := b.pc, mask := b.mask, tseq := tseq, adda := adda, addb := addb }
      .next ((if cls == 0x07 then t.fault f else t.setGrp { t.grp with pending := f :: t.grp.pending }).at_ s.gid s.slot)

/-- SAFE_POINT_DISTANCE (R443): the split's count stands at its bound, and its next instruction is not `safe`. -/
def execSafePointDistance (group slot : Nat) (s : State) : Out :=
  let t := s.at_ group slot
  match t.wordAt slot with
  | none => .fault .notEnabled
  | some w =>
    match t.accepted w with
    | none => .fault .notEnabled
    | some i =>
      if t.standing slot == .ready && t.spl.wait.isNone && decide (Config.safeBound ≤ t.spl.dist) && !t.handlerMode && !isSafe i then
        match (t.beginIssue (stallOf w)).raise 0x0A with
        | .next u => .next (u.at_ s.gid s.slot)
        | o => o
      else .fault .notEnabled

/-- SPLIT_URGENT (R112): a ready split of age 192 is urgent until it issues. -/
def execSplitUrgent (group slot : Nat) (s : State) : Out :=
  let t := s.at_ group slot
  let x := t.spl
  if x.live && decide (Config.urgentAge ≤ x.sched.age) then
    .next ((t.setSpl { x with sched := { x.sched with urgent := true } }).at_ s.gid s.slot)
  else .fault .notEnabled

/-- INSTRUCTION_FETCH (R109, R141): the word at a split's program counter arrives; it stays until the split has issued it. -/
def execInstructionFetch (group slot : Nat) (s : State) : Out :=
  let t := s.at_ group slot
  let x := t.spl
  if !x.live || x.word.isSome || x.wait.isSome then .fault .notEnabled
  else match t.fetch x.pc with
  | some w => .next ((t.setSpl { x with word := some w }).at_ s.gid s.slot)
  | none => .fault .notEnabled

/-- The line requests of a core that have no entry, and how many hold one of a kind. -/
def CoreState.entries (c : CoreState) (k : Nat) : Nat := (c.misses.filter fun m => m.entry == k).length
/-- Change one line request of a core. -/
def State.setMiss (s : State) (core idx : Nat) (m : Miss) : State :=
  let c := s.coreAt core
  s.setCoreAt core { c with misses := c.misses.set idx m }

/-- MSHR_RETRY (R220): a rejected line request is tried again: it takes a free ordinary entry, or is one rejection older. -/
def execMshrRetry (core idx : Nat) (s : State) : Out :=
  let c := s.coreAt core
  match c.misses[idx]? with
  | none => .fault .notEnabled
  | some m =>
    if m.entry != 0 then .fault .notEnabled
    else if c.entries 1 < Config.mshrOrdinary then .next (s.setMiss core idx { m with entry := 1 })
    else .next (s.setMiss core idx { m with age := m.age + 1 })

/-- MSHR_AGED (R220): a request of age 64 takes a reserved entry, the oldest first. -/
def execMshrAged (core idx : Nat) (s : State) : Out :=
  let c := s.coreAt core
  match c.misses[idx]? with
  | none => .fault .notEnabled
  | some m =>
    if m.entry == 0 && decide (64 ≤ m.age) && decide (c.entries 2 < Config.mshrReserved) &&
        c.misses.all (fun o => o.entry != 0 || decide (o.age ≤ m.age)) then
      .next (s.setMiss core idx { m with entry := 2 })
    else .fault .notEnabled

end Sys2Proof.Machine
end

