-- ==== Sys2Proof/Machine/Cycle.lean ====
section
/-! DEFINITION. How the machine goes on when nothing from outside stands first (R9, R17, R109, R110): the issue slots of the
cores one after the other, each with one issue in a cycle, and between cycles everything that the device does by itself. -/

namespace Sys2Proof.Machine

/-- The issue slots with live groups that have not had their turn in this cycle. -/
def State.slotsLeft (s : State) (turn : Nat) : List Nat :=
  (s.groups.filter fun e => e.2.live && decide (turn ≤ slotNumber e.1 e.2)).map fun e => slotNumber e.1 e.2
/-- The least number of a list. -/
def least : List Nat → Option Nat
  | [] => none
  | a :: r => some (match least r with
    | some b => if a ≤ b then a else b
    | none => a)

/-- The next issue slot that has a ready split, and the split that R110 chooses there. -/
def State.nextIssue (s : State) : Nat → Nat → Option (Nat × Nat × Nat)
  | 0, _ => none
  | n + 1, turn =>
    match least (s.slotsLeft turn) with
    | none => none
    | some k =>
      match bestOf (s.candidates (k / 4) (k % 4)) with
      | some c => some (k, c.2)
      | none => s.nextIssue n (k + 1)

/-- The hold sets of a core's groups are brought up to date: an issue may fill a queue that its groups share (R122). -/
def State.refreshCore (s : State) (core : Nat) : State :=
  let l := (s.groups.filter fun e => e.2.live && e.2.place.core == core).map Prod.fst
  (l.foldl (fun (t : State) g => (t.at_ g 0).refreshHolds) s).at_ s.gid s.slot

/-- What follows an issue: the splits of the group settle, the hold sets are brought up to date, and a group of a snuffed
grid may end (R117 to R122, R415). -/
def State.afterIssue (s : State) : State := (s.settleGroup.refreshCore s.coreId).reap s.gid

/-- The turn of the issue slots passed over without a ready split: their splits start their age again (R112). -/
def State.skipSlots (s : State) (passed : Nat → Bool) : State :=
  { s with groups := AMap.mapVals (fun g x =>
      if x.live && passed (slotNumber g x) then
        { x with ctx := { x.ctx with splits := AMap.mapVals (fun _ y => { y with sched := { y.sched with age := 0 } }) x.ctx.splits } }
      else x) s.groups }

/-- One issue of an issue slot. -/
def State.issueAt (s : State) (run : Instr → State → Out) (k gid slot : Nat) : Out :=
  let s := s.skipSlots fun j => decide (s.time.turn ≤ j) && decide (j < k)
  let s := s.grow (k / 4) (k % 4) (gid, slot)
  let s := { s with time := { s.time with turn := k + 1 } }
  match (s.at_ gid slot).issue run with
  | .next t => .next t.afterIssue
  | o => o

/-- Perform a step of the device if it can happen. -/
def attempt (f : State → Out) (s : State) : State :=
  match f s with
  | .next t => t
  | _ => s
/-- Perform a step for each of some arguments, in order. -/
def attemptAll {α : Type} (l : List α) (f : α → State → Out) (s : State) : State := l.foldl (fun s a => attempt (f a) s) s

/-- The live groups. -/
def State.liveGroups (s : State) : List Nat := (s.groups.filter fun e => e.2.live).map Prod.fst
/-- The live teams, with each engine context. -/
def State.liveContexts (s : State) : List (Nat × Nat) :=
  (s.teams.filter fun e => e.2.live).flatMap fun e => (List.range 4).map fun x => (e.1, x)
/-- The outstanding results: group and sequence number (R89), by ascending group index (R110). -/
def State.outstanding (s : State) : List (Nat × Word) :=
  ((List.range 32).flatMap fun k => s.groups.filter fun e => e.2.live && e.1 % 32 == k).flatMap fun e => ((e.2.inflight.filter fun r => r.ready.isNone).map fun r => (e.1, r.tseq)).eraseDups
/-- The started commands. -/
def State.startedCmds (s : State) : List (Nat × Nat × Nat) :=
  s.liveContexts.flatMap fun e => ((AMap.get {} (s.teamAt e.1).ctxs e.2 : EngineCtx).queue.filter fun c => c.started && !c.done).map
    fun c => (e.1, e.2, c.num)
/-- The cores that hold something. -/
def State.coreIds (s : State) : List Nat := s.cores.map Prod.fst

/-- Places for one cluster's replicas on a set of dies: on each a rectangle's first core with room. -/
def State.placesOn (s : State) (l : Launch) : List Nat → List (List Nat)
  | [] => [[]]
  | d :: r => (((List.range 72).map (72 * d + ·)).filter fun c => (s.roomAt l c).isSome).flatMap fun c =>
      (s.placesOn l r).map (c :: ·)
/-- The places that R60 and R63 permit for one cluster of a launch. -/
def State.clusterPlaces (s : State) (l : Launch) : List (List Nat) := (s.permittedSets l.replicas).flatMap (s.placesOn l)
/-- Firmware's choice of places for the next clusters of a launch, by an exact search (R61). -/
def State.choosePlaces : Nat → Nat → State → Option (List Nat)
  | 0, _, _ => some []
  | n + 1, grid, s =>
    (s.clusterPlaces (s.gridAt grid).launch).findSome? fun places =>
      (s.admitCluster grid .active places).bind fun t => (State.choosePlaces n grid t).map (places ++ ·)
/-- CLUSTER_ADMIT with those places. -/
def State.admitNext (s : State) (grid : Nat) : Out :=
  let g := s.gridAt grid
  match State.choosePlaces (if g.launch.coresident then g.launch.clusters else 1) grid s with
  | some places => execClusterAdmit grid places s
  | none => .fault .notEnabled

/-- Places where the clusters of a unit, each with its replicas, can go on, by the same search. -/
def State.resumePlaces (copies : Nat) (l : Launch) : Nat → List Nat → State → Option (List Nat)
  | _, [], _ => some []
  | 0, _ :: _, _ => none
  | n + 1, c :: r, s =>
    (s.clusterPlaces l).findSome? fun places =>
      ((((c :: r).take copies).zip places).foldl (fun (a : Option State) e => a.bind (·.resumeCluster e.1 e.2)) (some s)).bind fun t =>
        (State.resumePlaces copies l n ((c :: r).drop copies) t).map (places ++ ·)
/-- CLUSTER_RESUME of a saved cluster with such places, where no launch stands before its grid (R446). -/
def State.resumeNext (c : Nat) (s : State) : Out :=
  let g := s.gridAt (s.clusterAt c).grid
  let l := s.unit c
  if (s.clusterAt c).act != .saved || g.over || s.blockedBy g then .fault .notEnabled
  else match State.resumePlaces g.copies g.launch l.length l s with
  | some places => execClusterResume c (places.foldr (fun p x => x * 288 + p) 0) s
  | none => .fault .notEnabled
/-- PREEMPT_REQUEST (R55): where a launch waits for room and no other stop is under way, the first cluster that may be asked. -/
def State.preemptNext (s : State) : Out :=
  if s.clusters.any fun c => c.2.live && c.2.act == .active && c.2.stop.isSome then .fault .notEnabled
  else match s.clusters.findSome? fun c => match execPreemptRequest c.1 false s with
    | .next t => some t
    | _ => none with
  | some t => .next t
  | none => .fault .notEnabled

/-- DEFERRED_FAULT of a load whose data comes back poisoned (R369, R462). -/
def execLostResult (group : Nat) (tseq : Word) (s : State) : Out :=
  match s.lostMiss group tseq, (AMap.get {} s.groups group).inflight.find? fun e => e.tseq == tseq && e.ready.isNone with
  | some m, some e => execDeferredFault group e.slot tseq 9 (BitVec.ofNat 56 m.va) 0 s
  | _, _ => .fault .notEnabled
/-- What the cores and engines do by themselves. -/
def State.unitsAct (s : State) : State :=
  let s := attemptAll (s.liveGroups.flatMap fun g => slots.map fun k => (g, k)) (fun e => execInstructionFetch e.1 e.2) s
  let s := attemptAll s.outstanding (fun e => execVariableLatencyResult e.1 e.2) s
  let s := attemptAll s.coreIds execMatrixEngineAccept s
  let s := attemptAll s.liveContexts (fun e => execGuardResolve e.1 e.2) s
  let s := attemptAll s.startedCmds (fun e => execEngineCommandComplete e.1 e.2.1 e.2.2) s
  let s := attemptAll s.liveContexts (fun e => execEngineCommandStart e.1 e.2) s
  let s := attemptAll (List.range 4) execCollectiveChunkBoundary s
  let s := attemptAll (s.peers.map fun _ => 0) execPeerAdd s
  let s := attemptAll (s.coreIds.flatMap fun c => (List.range (s.coreAt c).misses.length).map fun k => (c, k)) (fun e => execMshrAged e.1 e.2) s
  let s := attemptAll (s.coreIds.flatMap fun c => (List.range (s.coreAt c).misses.length).map fun k => (c, k)) (fun e => execMshrRetry e.1 e.2) s
  let s := attemptAll (s.coreIds.flatMap fun c => binNums.map fun k => (c, k)) (fun e => execBinTimerExpiry e.1 e.2) s
  let s := attemptAll (s.coreIds.flatMap fun c => binNums.map fun k => (c, k)) (fun e => execBinGroupStart e.1 e.2) s
  attemptAll (s.liveGroups.flatMap fun g => slots.map fun k => (g, k)) (fun e => execSpawnResume e.1 e.2) s

/-- What the replica wires and the memory bring by themselves. -/
def State.wiresAct (s : State) : State :=
  let s := attemptAll s.liveGroups execReplicaSig s
  let s := attemptAll s.liveGroups execRendezvousOperands s
  let s := attemptAll s.liveGroups execReplicaResult s
  let s := attemptAll s.mem.notices (fun e => execReplicaNotice e.1 e.2) s
  let s := attemptAll s.liveGroups execCompareTimeout s
  let s := attemptAll s.liveGroups execRendezvousTimeout s
  let s := attemptAll s.liveGroups execLdaForwardTimeout s
  let s := attemptAll s.mem.epochDue execEpochWriteback s
  let s := attemptAll (s.mem.demands.map (·.line)) execDemand s
  let s := attemptAll (s.mem.demands.map (·.line)) execDemandAck s
  attemptAll (s.mem.msgs.map Msg.line) (fun l s => .next (State.settle 64 l s)) s

/-- What the command processors do by themselves. -/
def State.processorsAct (s : State) : State :=
  let grids := s.grids.map Prod.fst
  let clusters := s.clusters.map Prod.fst
  let s := attemptAll ((s.groups.filter fun e => e.2.nft.isSome).map Prod.fst) execNonFiniteTrap s
  let s := attemptAll s.cp.snuffs execSnuffCancel s
  let s := grids.foldl (fun s g => if (s.gridAt g).ending.snuffed then s.reapGrid g else s) s
  let s := attemptAll clusters execClusterEnd s
  let s := attemptAll clusters (fun c s => if s.preempting c then execClusterPreempt c (Config.saveArea c) s else .fault .notEnabled) s
  let s := attemptAll grids execGridRetire s
  let s := attemptAll grids execSerialPhase s
  let s := attempt execRecordRead s
  let s := attemptAll grids execLaunchAgeRise s
  let s := attempt execLaunchArbitration s
  let s := attemptAll grids execLeaseInstall s
  let s := attemptAll grids (fun g s => s.admitNext g) s
  let s := attempt State.preemptNext s
  let s := attemptAll clusters (fun c s => s.resumeNext c) s
  attemptAll clusters execPreemptWithdraw s

/-- Every hold set is brought up to date (R122). -/
def State.refreshAll (s : State) : State :=
  (s.liveGroups.foldl (fun (t : State) g => (t.at_ g 0).refreshHolds) s).at_ s.gid s.slot

/-- The pending faults of groups in which no handler runs are delivered (R440). -/
def State.deliverFaults (s : State) : State :=
  (s.liveGroups.foldl (fun (t : State) g =>
    let t := t.at_ g 0
    if t.grp.handler.isNone then t.deliverNext else t) s).at_ s.gid s.slot

/-- The end of a cycle: no issue slot has a ready split left. Data that comes back poisoned is found as the next one begins. -/
def State.endCycle (s : State) : State :=
  let s := s.skipSlots fun j => decide (s.time.turn ≤ j)
  let s := s.deliverFaults.unitsAct.wiresAct.processorsAct
  let s := s.refreshAll.tickBins.dropAged
  let s := { s with time := { s.time with cycle := s.time.cycle + 1, turn := 0, free := s.time.free + 1 } }
  attemptAll s.outstanding (fun e => execLostResult e.1 e.2) s

/-- One step when no event from outside stands first. -/
def State.advance (s : State) (run : Instr → State → Out) : Out :=
  match s.nextIssue (s.groups.length + 1) s.time.turn with
  | some (k, gid, slot) => s.issueAt run k gid slot
  | none => .next s.endCycle

/-- The word of an instruction from its bits as the opcode table numbers them: all 32 are in its one word (R79). -/
def tableWord (w : Nat) : Word := BitVec.ofNat 32 w

/-- Where the machine fetches next: the physical address of the split that issues next. -/
def State.fetchPlace (s : State) : Option (Nat × Nat × Nat) :=
  match s.nextIssue (s.groups.length + 1) s.time.turn with
  | none => none
  | some (_, gid, slot) =>
    let t := s.at_ gid slot
    (t.leafOf t.spl.pc.toNat).map fun l => (gid, slot, l.phys t.spl.pc.toNat)

/-- The page that holds the text of a placed program, as its lease maps it. -/
def codeLeaf : Leaf := { valid := true, rd := true }
/-- A placed program: one grid of one cluster, team and group on core 0, whose text is the page at address 0, its lease and its
translation in place. It stands for the loading of a program from outside (log 34). -/
def State.placeProgram (s : State) : State :=
  let g := s.cp.nextGrid
  let c := s.cp.nextCluster
  let kernel : Kernel := { entry := 0x10000, base := 0x10000, size := 65536, limit := 0x20000 }
  let grid : Grid := {
    live := true, launch := { entry := 0x10000, bytes := 65536 }, kernel := kernel, phase := .taken, leased := true,
    trans := [(1, codeLeaf)], next := 1 }
  let s := { s with
    cp := { s.cp with nextGrid := g + 1, nextCluster := c + 1 }
    host := { s.host with svc := 0xF002#32 } }
  let s := (s.setGridAt g grid).setClusterAt c { live := true, grid := g }
  let s := s.putTlb 0 [{ grid := g, page := 1, leaf := codeLeaf }]
  let s := s.setTeamAt (12 * c) { live := true, groups := 1, bytes := 65536 }
  { s with groups := AMap.set s.groups (384 * c) (newGroup 0 0x10000 0xFFFFFFFF [] []) }

/-- Four bytes of a word at a physical address, lowest first (R7). -/
def State.placeWord (s : State) (pa : Nat) (w : Word) : State :=
  { s with mem := { s.mem with bytes := (List.range 4).foldl (fun m k =>
      Store.set m (pa + k) (w.extractLsb' (8 * k) 8)) s.mem.bytes } }

/-- Put a word where a split fetches, as one that has just arrived; the split has nothing to wait for. -/
def State.placeFor (s : State) (gid slot pa : Nat) (w : Word) : State :=
  let t := s.at_ gid slot
  ((t.setSpl { t.spl with word := some w, wait := none, num := none, taken := none }).placeWord pa w).at_ s.gid s.slot
/-- Put a word where the machine fetches next, in this cycle or from the first issue slot on; where no split is to issue, a
program is placed first. -/
def State.placeNext (s : State) (w : Word) : State :=
  let s := { s with events := [] }
  match s.fetchPlace with
  | some (gid, slot, pa) => s.placeFor gid slot pa w
  | none =>
    let s := { s with time := { s.time with turn := 0 } }
    match s.fetchPlace with
    | some (gid, slot, pa) => s.placeFor gid slot pa w
    | none => s.placeProgram.placeFor (384 * s.cp.nextCluster) 0 0 w

end Sys2Proof.Machine
end

