-- ==== Sys2Proof/Machine/CrossLane.lean ====
section
/-! DEFINITION. The cross-lane instructions of M = 0x08 (R202 to R205) and the lane and group predicates of M = 0x09 and
0x13 (R137 to R139). -/

namespace Sys2Proof.Machine

/-- A source lane: one that is not active reads all-zero bits (R96, R202). -/
def State.crossRead (s : State) (a l : Nat) : Word := if s.active.has l then s.rdV a l else 0

/-- A permute index with a reserved bit set (R203). -/
def permIllegal (i : Word) : Bool := i.extractLsb' 6 26 != 0

/-- R203: lane L reads from the lane its index names. -/
def execVperm (_ : BitVec 3) (d a b : BitVec 7) (st : State) : Out :=
  st.vector (st.checked (!(lanes.any fun l => st.active.has l && permIllegal (st.rdV b.toNat l)))
    (st.wrV d.toNat st.active (fun l =>
      let i := st.rdV b.toNat l
      if i.getLsbD 5 then 0 else st.crossRead a.toNat (i.extractLsb' 0 5).toNat) latCross).done)

/-- The three moves of R204 by a group-register lane or distance, which must be 0 to 31 (R202). -/
def State.crossMove (s : State) (src : Nat → Nat → Nat) (d a b : Nat) : Out :=
  let n := (s.rdG b).toNat
  s.vector (s.checked (decide (n < 32)) (s.wrV d s.active (fun l => s.crossRead a (src l n)) latCross).done)

/-- R204: from lane L xor s. -/
def execVbfly (_ : BitVec 3) (d a : BitVec 7) (b : BitVec 6) (st : State) : Out :=
  st.crossMove (fun l n => l ^^^ n) d.toNat a.toNat b.toNat
/-- R204: from lane (L + s) mod 32. -/
def execVrot (_ : BitVec 3) (d a : BitVec 7) (b : BitVec 6) (st : State) : Out :=
  st.crossMove (fun l n => (l + n) % 32) d.toNat a.toNat b.toNat
/-- R204: from lane s. -/
def execVbcl (_ : BitVec 3) (d a : BitVec 7) (b : BitVec 6) (st : State) : Out :=
  st.crossMove (fun _ n => n) d.toNat a.toNat b.toNat

/-- One level of the tree of R180: neighbours combined, node j of the level told to the operation. -/
def treeLevel (op : Nat → Nat → Nat → Nat) : Nat → List Nat → List Nat
  | _, [] => []
  | _, [x] => [x]
  | j, x :: y :: r => op j x y :: treeLevel op (j + 1) r
/-- The five levels over 32 values. -/
def tree (op : Nat → Nat → Nat → Nat → Nat) (x : List Nat) : Nat :=
  ((List.range 5).foldl (fun x k => treeLevel (op (k + 1)) 0 x) x).headD 0

/-- The lowest-numbered active lane (R165). -/
def lowestLane (m : Mask) : Nat := (lanes.find? (fun l => m.has l)).getD 0

/-- The 32-bit result of `vred` (R205): the tree at each element position, with the draws of R165. -/
def State.reduce (s : State) (t : Ty) (f : Rounding → Nat → Nat → Nat → Nat) (a : Nat) : Word :=
  let act := s.active
  if act = 0 then 0
  else
    let w := t.width
    fromElems w ((List.range (32 / w)).map fun e =>
      tree (fun lev j x y => f (modeRounding s.regs.gmode (s.draw (256 * e + 32 * lev + j) (lowestLane act))) x y 0)
        (lanes.map fun l => elem w (s.crossRead a l) e))

def State.reduceEffect (s : State) (t : Ty) (rsr : Bool) (f : Rounding → Nat → Nat → Nat → Nat) (d a : Nat) : State :=
  let r := s.reduce t f a
  State.nonFinite (State.bumpCounters (s.wrG d (zext 64 r) latCross) (rsr && match t with | .float _ => true | _ => false)
    s.active) (t.anyNonFinite r)

/-- `vred`: TYPE is tested whether or not any lane is active (R96). -/
def State.reduction (s : State) (rsr : Bool) (f : Ty → Rounding → Nat → Nat → Nat → Nat) (d a : Nat) : Out :=
  match TypeSet.arith.pick s.regs.gmode with
  | none => s.illegalOperand
  | some t => (s.reduceEffect t rsr (f t) d a).done

/-- R205: the sum. -/
def execVredAdd (_ : BitVec 3) (d : BitVec 6) (a : BitVec 7) (st : State) : Out := st.reduction true addOp d.toNat a.toNat
/-- R205: the minimum. -/
def execVredMin (_ : BitVec 3) (d : BitVec 6) (a : BitVec 7) (st : State) : Out := st.reduction false minOp d.toNat a.toNat
/-- R205: the maximum. -/
def execVredMax (_ : BitVec 3) (d : BitVec 6) (a : BitVec 7) (st : State) : Out := st.reduction false maxOp d.toNat a.toNat

/-- A lane-predicate instruction (R137): the active lanes of pD; without one nothing is written. -/
def State.lanePred (s : State) (d : Nat) (x : Mask) : Out := s.vector (s.wrP d s.active x latAlu).done

/-- R137: and. -/
def execPand (_ d a b : BitVec 3) (st : State) : Out := st.lanePred d.toNat (st.rdP a.toNat &&& st.rdP b.toNat)
/-- R137: or. -/
def execPor (_ d a b : BitVec 3) (st : State) : Out := st.lanePred d.toNat (st.rdP a.toNat ||| st.rdP b.toNat)
/-- R137: exclusive or. -/
def execPxor (_ d a b : BitVec 3) (st : State) : Out := st.lanePred d.toNat (st.rdP a.toNat ^^^ st.rdP b.toNat)
/-- R137: complement. -/
def execPnot (_ d a : BitVec 3) (st : State) : Out := st.lanePred d.toNat (~~~(st.rdP a.toNat))
/-- R139: does some active lane's predicate hold? -/
def execQany (_ d a : BitVec 3) (st : State) : Out :=
  (st.wrQ d.toNat (st.active &&& st.rdP a.toNat != 0) latAlu).done
/-- R139: does every active lane's predicate hold? -/
def execQall (_ d a : BitVec 3) (st : State) : Out :=
  (st.wrQ d.toNat (st.active &&& ~~~(st.rdP a.toNat) == 0) latAlu).done
/-- R139: the active lanes whose predicate holds, as a number. -/
def execPballot (_ : BitVec 3) (d : BitVec 6) (a : BitVec 3) (st : State) : Out :=
  (st.wrG d.toNat (zext 64 (st.active &&& st.rdP a.toNat)) latAlu).done
/-- R139: the active lanes of a predicate from the bits of a group register. -/
def execPmask (_ d : BitVec 3) (a : BitVec 6) (st : State) : Out := st.lanePred d.toNat ((st.rdG a.toNat).extractLsb' 0 32)

/-- R138: and. -/
def execQand (_ d a b : BitVec 3) (st : State) : Out := (st.wrQ d.toNat (st.rdQ a.toNat && st.rdQ b.toNat) latAlu).done
/-- R138: or. -/
def execQor (_ d a b : BitVec 3) (st : State) : Out := (st.wrQ d.toNat (st.rdQ a.toNat || st.rdQ b.toNat) latAlu).done
/-- R138: exclusive or. -/
def execQxor (_ d a b : BitVec 3) (st : State) : Out := (st.wrQ d.toNat (st.rdQ a.toNat != st.rdQ b.toNat) latAlu).done
/-- R138: complement. -/
def execQnot (_ d a : BitVec 3) (st : State) : Out := (st.wrQ d.toNat (!(st.rdQ a.toNat)) latAlu).done

end Sys2Proof.Machine
end

