-- ==== Sys2Proof/Machine/GroupAlu.lean ====
section
/-! DEFINITION. The group-register instructions: arithmetic, compares, immediates and the mode register (R130 to R136). -/

namespace Sys2Proof.Machine

/-- A group-register result of four cycles (R131). -/
def State.groupResult (s : State) (d : BitVec 6) (x : DWord) : Out := (s.wrG d.toNat x latAlu).done

/-- Shifts by a count read as n64 (R131). -/
def shl64 (x y : DWord) : DWord := if y.toNat < 64 then x <<< y.toNat else 0
def shr64 (x y : DWord) : DWord := if y.toNat < 64 then x >>> y.toNat else 0
def sar64 (x y : DWord) : DWord := x.sshiftRight (min y.toNat 63)

/-- R131: a copy. -/
def execGmov (_ : BitVec 3) (d a : BitVec 6) (st : State) : Out := st.groupResult d (st.rdG a.toNat)
/-- R131: the sum modulo 2^64. -/
def execGadd (_ : BitVec 3) (d a b : BitVec 6) (st : State) : Out :=
  st.groupResult d ((st.rdG a.toNat) + (st.rdG b.toNat))
/-- R131: the difference modulo 2^64. -/
def execGsub (_ : BitVec 3) (d a b : BitVec 6) (st : State) : Out :=
  st.groupResult d ((st.rdG a.toNat) - (st.rdG b.toNat))
/-- R131: the low half of the product. -/
def execGmul (_ : BitVec 3) (d a b : BitVec 6) (st : State) : Out :=
  st.groupResult d ((st.rdG a.toNat) * (st.rdG b.toNat))
/-- R131: the high half of the signed product. -/
def execGmulh (_ : BitVec 3) (d a b : BitVec 6) (st : State) : Out :=
  st.groupResult d (BitVec.ofInt 64 (((st.rdG a.toNat).toInt * (st.rdG b.toNat).toInt) / 2 ^ 64))
/-- R131: and. -/
def execGand (_ : BitVec 3) (d a b : BitVec 6) (st : State) : Out :=
  st.groupResult d ((st.rdG a.toNat) &&& (st.rdG b.toNat))
/-- R131: or. -/
def execGor (_ : BitVec 3) (d a b : BitVec 6) (st : State) : Out :=
  st.groupResult d ((st.rdG a.toNat) ||| (st.rdG b.toNat))
/-- R131: exclusive or. -/
def execGxor (_ : BitVec 3) (d a b : BitVec 6) (st : State) : Out :=
  st.groupResult d ((st.rdG a.toNat) ^^^ (st.rdG b.toNat))
/-- R131: left shift. -/
def execGshl (_ : BitVec 3) (d a b : BitVec 6) (st : State) : Out :=
  st.groupResult d (shl64 (st.rdG a.toNat) (st.rdG b.toNat))
/-- R131: logical right shift. -/
def execGshr (_ : BitVec 3) (d a b : BitVec 6) (st : State) : Out :=
  st.groupResult d (shr64 (st.rdG a.toNat) (st.rdG b.toNat))
/-- R131: arithmetic right shift. -/
def execGsar (_ : BitVec 3) (d a b : BitVec 6) (st : State) : Out :=
  st.groupResult d (sar64 (st.rdG a.toNat) (st.rdG b.toNat))
/-- R131: the lesser as i64. -/
def execGmin (_ : BitVec 3) (d a b : BitVec 6) (st : State) : Out :=
  st.groupResult d (if (st.rdG b.toNat).slt (st.rdG a.toNat) then (st.rdG b.toNat) else (st.rdG a.toNat))
/-- R131: the greater as i64. -/
def execGmax (_ : BitVec 3) (d a b : BitVec 6) (st : State) : Out :=
  st.groupResult d (if (st.rdG a.toNat).slt (st.rdG b.toNat) then (st.rdG b.toNat) else (st.rdG a.toNat))
/-- R131: the lesser as n64. -/
def execGminn (_ : BitVec 3) (d a b : BitVec 6) (st : State) : Out :=
  st.groupResult d (if (st.rdG b.toNat).ult (st.rdG a.toNat) then (st.rdG b.toNat) else (st.rdG a.toNat))
/-- R131: the greater as n64. -/
def execGmaxn (_ : BitVec 3) (d a b : BitVec 6) (st : State) : Out :=
  st.groupResult d (if (st.rdG a.toNat).ult (st.rdG b.toNat) then (st.rdG b.toNat) else (st.rdG a.toNat))
/-- R131, R132: g[B] where q[A] holds, else g[D]. -/
def execGsel (_ : BitVec 3) (d : BitVec 6) (a : BitVec 3) (b : BitVec 6) (st : State) : Out :=
  st.groupResult d (if st.rdQ a.toNat then st.rdG b.toNat else st.rdG d.toNat)
/-- R131: leading zero bits. -/
def execGclz (_ : BitVec 3) (d a : BitVec 6) (st : State) : Out :=
  st.groupResult d (BitVec.ofNat 64 (leadingZeros (st.rdG a.toNat)))
/-- R131: one bits. -/
def execGpop (_ : BitVec 3) (d a : BitVec 6) (st : State) : Out := st.groupResult d (BitVec.ofNat 64 (oneBits (st.rdG a.toNat)))

/-- R133: bits equal. -/
def execGcmpEq (_ d : BitVec 3) (a b : BitVec 6) (st : State) : Out :=
  (st.wrQ d.toNat ((st.rdG a.toNat) == (st.rdG b.toNat)) latAlu).done
/-- R133: bits differ. -/
def execGcmpNe (_ d : BitVec 3) (a b : BitVec 6) (st : State) : Out :=
  (st.wrQ d.toNat ((st.rdG a.toNat) != (st.rdG b.toNat)) latAlu).done
/-- R133: less as i64. -/
def execGcmpLt (_ d : BitVec 3) (a b : BitVec 6) (st : State) : Out :=
  (st.wrQ d.toNat ((st.rdG a.toNat).slt (st.rdG b.toNat)) latAlu).done
/-- R133: at most as i64. -/
def execGcmpLe (_ d : BitVec 3) (a b : BitVec 6) (st : State) : Out :=
  (st.wrQ d.toNat ((st.rdG a.toNat).sle (st.rdG b.toNat)) latAlu).done
/-- R133: less as n64. -/
def execGcmpLtn (_ d : BitVec 3) (a b : BitVec 6) (st : State) : Out :=
  (st.wrQ d.toNat ((st.rdG a.toNat).ult (st.rdG b.toNat)) latAlu).done
/-- R133: at most as n64. -/
def execGcmpLen (_ d : BitVec 3) (a b : BitVec 6) (st : State) : Out :=
  (st.wrQ d.toNat ((st.rdG a.toNat).ule (st.rdG b.toNat)) latAlu).done

/-- R134: an immediate. -/
def execGldi (_ : BitVec 3) (d : BitVec 6) (k : BitVec 17) (st : State) : Out := st.groupResult d (sext 64 k)
/-- R134: shifted left by 16, with an immediate below. -/
def execGldh (_ : BitVec 3) (d : BitVec 6) (k : BitVec 16) (st : State) : Out :=
  st.groupResult d (st.rdG d.toNat <<< 16 ||| zext 64 k)
/-- R134: an immediate added. -/
def execGaddi (_ : BitVec 3) (d : BitVec 6) (k : BitVec 17) (st : State) : Out :=
  st.groupResult d (st.rdG d.toNat + sext 64 k)

/-- Write GMODE; it governs the group's next instruction (R88, R95). -/
def State.setMode (s : State) (m : Word) : State := (s.mark .mode 0 (some 0)).setRegs { s.regs with gmode := m }

/-- R135, R136: GMODE from a group register, unless R95 refuses it. -/
def execSmode (_ : BitVec 3) (a : BitVec 6) (st : State) : Out :=
  let x := st.rdG a.toNat
  st.checked (x.extractLsb' 32 32 == 0 && modeLegal (x.extractLsb' 0 32)) (st.setMode (x.extractLsb' 0 32)).done
/-- R135: GMODE into a group register. -/
def execGmode (_ : BitVec 3) (d : BitVec 6) (st : State) : Out := st.groupResult d (zext 64 st.regs.gmode)
/-- The value that `smodi` writes: BSEL kept or cleared, the rest from the immediate (R135). -/
def smodiValue (old : Word) (z : BitVec 1) (k : BitVec 15) : Word :=
  (if z == 1 then (0 : Word) else zext 32 (old.extractLsb' 16 8) <<< 16) ||| zext 32 k
/-- R135, R136: GMODE from an immediate, the old value into a group register. -/
def execSmodi (_ : BitVec 3) (d : BitVec 6) (z : BitVec 1) (k : BitVec 15) (st : State) : Out :=
  let new := smodiValue st.regs.gmode z k
  st.checked (modeLegal new) ((st.wrG d.toNat (zext 64 st.regs.gmode) latAlu).setMode new).done

end Sys2Proof.Machine
end

