-- ==== Sys2Proof/Machine/Dispatch.lean ====
section
/-! DEFINITION. The dispatch: one arm for each constructor of Instr, one call of its meaning. -/

namespace Sys2Proof.Machine

def exec (i : Instr) (s : State) : Host.Outcome State Fault Refusal :=
  match i with
  | .vadd st d a b => Sys2Proof.Machine.execVadd st d a b s
  | .vsub st d a b => Sys2Proof.Machine.execVsub st d a b s
  | .vmul st d a b => Sys2Proof.Machine.execVmul st d a b s
  | .vmulh st d a b => Sys2Proof.Machine.execVmulh st d a b s
  | .vfma st d a b => Sys2Proof.Machine.execVfma st d a b s
  | .vfms st d a b => Sys2Proof.Machine.execVfms st d a b s
  | .vfnma st d a b => Sys2Proof.Machine.execVfnma st d a b s
  | .vdiv st d a b => Sys2Proof.Machine.execVdiv st d a b s
  | .vmin st d a b => Sys2Proof.Machine.execVmin st d a b s
  | .vmax st d a b => Sys2Proof.Machine.execVmax st d a b s
  | .vabs st d a => Sys2Proof.Machine.execVabs st d a s
  | .vneg st d a => Sys2Proof.Machine.execVneg st d a s
  | .vrcp st d a => Sys2Proof.Machine.execVrcp st d a s
  | .vsqrt st d a => Sys2Proof.Machine.execVsqrt st d a s
  | .vrsq st d a => Sys2Proof.Machine.execVrsq st d a s
  | .vtwosum st d a b => Sys2Proof.Machine.execVtwosum st d a b s
  | .vexp2 st d a => Sys2Proof.Machine.execVexp2 st d a s
  | .vlog2 st d a => Sys2Proof.Machine.execVlog2 st d a s
  | .vmix st d a b => Sys2Proof.Machine.execVmix st d a b s
  | .vsel st d a b => Sys2Proof.Machine.execVsel st d a b s
  | .vmov st d a => Sys2Proof.Machine.execVmov st d a s
  | .vbc st d a => Sys2Proof.Machine.execVbc st d a s
  | .vbcHi st d a => Sys2Proof.Machine.execVbcHi st d a s
  | .vlane st d a b => Sys2Proof.Machine.execVlane st d a b s
  | .vand st d a b => Sys2Proof.Machine.execVand st d a b s
  | .vor st d a b => Sys2Proof.Machine.execVor st d a b s
  | .vxor st d a b => Sys2Proof.Machine.execVxor st d a b s
  | .vnot st d a => Sys2Proof.Machine.execVnot st d a s
  | .vshl st d a b => Sys2Proof.Machine.execVshl st d a b s
  | .vshr st d a b => Sys2Proof.Machine.execVshr st d a b s
  | .vsar st d a b => Sys2Proof.Machine.execVsar st d a b s
  | .vclz st d a => Sys2Proof.Machine.execVclz st d a s
  | .vpop st d a => Sys2Proof.Machine.execVpop st d a s
  | .vcmpEq st d a b => Sys2Proof.Machine.execVcmpEq st d a b s
  | .vcmpNe st d a b => Sys2Proof.Machine.execVcmpNe st d a b s
  | .vcmpLt st d a b => Sys2Proof.Machine.execVcmpLt st d a b s
  | .vcmpLe st d a b => Sys2Proof.Machine.execVcmpLe st d a b s
  | .vcmpGt st d a b => Sys2Proof.Machine.execVcmpGt st d a b s
  | .vcmpGe st d a b => Sys2Proof.Machine.execVcmpGe st d a b s
  | .vcmpUn st d a b => Sys2Proof.Machine.execVcmpUn st d a b s
  | .vcvtF32 st d a => Sys2Proof.Machine.execVcvtF32 st d a s
  | .vcvtBf16 st d a => Sys2Proof.Machine.execVcvtBf16 st d a s
  | .vcvtF16 st d a => Sys2Proof.Machine.execVcvtF16 st d a s
  | .vcvtE4m3 st d a => Sys2Proof.Machine.execVcvtE4m3 st d a s
  | .vcvtE5m2 st d a => Sys2Proof.Machine.execVcvtE5m2 st d a s
  | .vcvtI8 st d a => Sys2Proof.Machine.execVcvtI8 st d a s
  | .vcvtN8 st d a => Sys2Proof.Machine.execVcvtN8 st d a s
  | .vcvtI32 st d a => Sys2Proof.Machine.execVcvtI32 st d a s
  | .vcvtN32 st d a => Sys2Proof.Machine.execVcvtN32 st d a s
  | .vcvtI16 st d a => Sys2Proof.Machine.execVcvtI16 st d a s
  | .vcvtN16 st d a => Sys2Proof.Machine.execVcvtN16 st d a s
  | .vpack st d a b => Sys2Proof.Machine.execVpack st d a b s
  | .vunpk st d a => Sys2Proof.Machine.execVunpk st d a s
  | .vperm st d a b => Sys2Proof.Machine.execVperm st d a b s
  | .vbfly st d a b => Sys2Proof.Machine.execVbfly st d a b s
  | .vrot st d a b => Sys2Proof.Machine.execVrot st d a b s
  | .vbcl st d a b => Sys2Proof.Machine.execVbcl st d a b s
  | .vredAdd st d a => Sys2Proof.Machine.execVredAdd st d a s
  | .vredMin st d a => Sys2Proof.Machine.execVredMin st d a s
  | .vredMax st d a => Sys2Proof.Machine.execVredMax st d a s
  | .pand st d a b => Sys2Proof.Machine.execPand st d a b s
  | .por st d a b => Sys2Proof.Machine.execPor st d a b s
  | .pxor st d a b => Sys2Proof.Machine.execPxor st d a b s
  | .pnot st d a => Sys2Proof.Machine.execPnot st d a s
  | .qany st d a => Sys2Proof.Machine.execQany st d a s
  | .qall st d a => Sys2Proof.Machine.execQall st d a s
  | .pballot st d a => Sys2Proof.Machine.execPballot st d a s
  | .pmask st d a => Sys2Proof.Machine.execPmask st d a s
  | .ldB8 st d a b => Sys2Proof.Machine.execLdB8 st d a b s
  | .ldB16 st d a b => Sys2Proof.Machine.execLdB16 st d a b s
  | .ldB32 st d a b => Sys2Proof.Machine.execLdB32 st d a b s
  | .ldB64 st d a b => Sys2Proof.Machine.execLdB64 st d a b s
  | .ldB128 st d a b => Sys2Proof.Machine.execLdB128 st d a b s
  | .ldPollB32 st d a b => Sys2Proof.Machine.execLdPollB32 st d a b s
  | .ldPollB64 st d a b => Sys2Proof.Machine.execLdPollB64 st d a b s
  | .gld st d a b => Sys2Proof.Machine.execGld st d a b s
  | .stB8 st d a b => Sys2Proof.Machine.execStB8 st d a b s
  | .stB16 st d a b => Sys2Proof.Machine.execStB16 st d a b s
  | .stB32 st d a b => Sys2Proof.Machine.execStB32 st d a b s
  | .stB64 st d a b => Sys2Proof.Machine.execStB64 st d a b s
  | .stB128 st d a b => Sys2Proof.Machine.execStB128 st d a b s
  | .gst st d a b => Sys2Proof.Machine.execGst st d a b s
  | .ldSys st d a b => Sys2Proof.Machine.execLdSys st d a b s
  | .stSys st d a b => Sys2Proof.Machine.execStSys st d a b s
  | .atomAdd st w r v a b => Sys2Proof.Machine.execAtomAdd st w r v a b s
  | .atomSub st w r v a b => Sys2Proof.Machine.execAtomSub st w r v a b s
  | .atomMin st w r v a b => Sys2Proof.Machine.execAtomMin st w r v a b s
  | .atomMax st w r v a b => Sys2Proof.Machine.execAtomMax st w r v a b s
  | .atomMinn st w r v a b => Sys2Proof.Machine.execAtomMinn st w r v a b s
  | .atomMaxn st w r v a b => Sys2Proof.Machine.execAtomMaxn st w r v a b s
  | .atomAnd st w r v a b => Sys2Proof.Machine.execAtomAnd st w r v a b s
  | .atomOr st w r v a b => Sys2Proof.Machine.execAtomOr st w r v a b s
  | .atomXor st w r v a b => Sys2Proof.Machine.execAtomXor st w r v a b s
  | .atomExch st w r v a b => Sys2Proof.Machine.execAtomExch st w r v a b s
  | .atomCas st w r v a b => Sys2Proof.Machine.execAtomCas st w r v a b s
  | .atomfFaddF32 st r v a b => Sys2Proof.Machine.execAtomfFaddF32 st r v a b s
  | .atomfFaddBf16x2 st r v a b => Sys2Proof.Machine.execAtomfFaddBf16x2 st r v a b s
  | .atomfFminF32 st r v a b => Sys2Proof.Machine.execAtomfFminF32 st r v a b s
  | .atomfFmaxF32 st r v a b => Sys2Proof.Machine.execAtomfFmaxF32 st r v a b s
  | .cas128 st r v a b => Sys2Proof.Machine.execCas128 st r v a b s
  | .redAdd st w r v a b => Sys2Proof.Machine.execRedAdd st w r v a b s
  | .redSub st w r v a b => Sys2Proof.Machine.execRedSub st w r v a b s
  | .redMin st w r v a b => Sys2Proof.Machine.execRedMin st w r v a b s
  | .redMax st w r v a b => Sys2Proof.Machine.execRedMax st w r v a b s
  | .redMinn st w r v a b => Sys2Proof.Machine.execRedMinn st w r v a b s
  | .redMaxn st w r v a b => Sys2Proof.Machine.execRedMaxn st w r v a b s
  | .redAnd st w r v a b => Sys2Proof.Machine.execRedAnd st w r v a b s
  | .redOr st w r v a b => Sys2Proof.Machine.execRedOr st w r v a b s
  | .redXor st w r v a b => Sys2Proof.Machine.execRedXor st w r v a b s
  | .redFaddF32 st r v a b => Sys2Proof.Machine.execRedFaddF32 st r v a b s
  | .redFaddBf16x2 st r v a b => Sys2Proof.Machine.execRedFaddBf16x2 st r v a b s
  | .redFminF32 st r v a b => Sys2Proof.Machine.execRedFminF32 st r v a b s
  | .redFmaxF32 st r v a b => Sys2Proof.Machine.execRedFmaxF32 st r v a b s
  | .sfil st d a b => Sys2Proof.Machine.execSfil st d a b s
  | .sscl st d a b => Sys2Proof.Machine.execSscl st d a b s
  | .soff st d a b => Sys2Proof.Machine.execSoff st d a b s
  | .sclp st d a b => Sys2Proof.Machine.execSclp st d a b s
  | .spmt st d a b => Sys2Proof.Machine.execSpmt st d a b s
  | .smat st d a => Sys2Proof.Machine.execSmat st d a s
  | .shdr st d a => Sys2Proof.Machine.execShdr st d a s
  | .pst st d a b => Sys2Proof.Machine.execPst st d a b s
  | .mma st c f a b => Sys2Proof.Machine.execMma st c f a b s
  | .mscale st c a => Sys2Proof.Machine.execMscale st c a s
  | .mzero st c => Sys2Proof.Machine.execMzero st c s
  | .mzeroOpen st c => Sys2Proof.Machine.execMzeroOpen st c s
  | .mdrain st d t c b => Sys2Proof.Machine.execMdrain st d t c b s
  | .mdrs st d t c => Sys2Proof.Machine.execMdrs st d t c s
  | .mdrp st d c => Sys2Proof.Machine.execMdrp st d c s
  | .mcbk st n a b => Sys2Proof.Machine.execMcbk st n a b s
  | .gmov st d a => Sys2Proof.Machine.execGmov st d a s
  | .gadd st d a b => Sys2Proof.Machine.execGadd st d a b s
  | .gsub st d a b => Sys2Proof.Machine.execGsub st d a b s
  | .gmul st d a b => Sys2Proof.Machine.execGmul st d a b s
  | .gmulh st d a b => Sys2Proof.Machine.execGmulh st d a b s
  | .gand st d a b => Sys2Proof.Machine.execGand st d a b s
  | .gor st d a b => Sys2Proof.Machine.execGor st d a b s
  | .gxor st d a b => Sys2Proof.Machine.execGxor st d a b s
  | .gshl st d a b => Sys2Proof.Machine.execGshl st d a b s
  | .gshr st d a b => Sys2Proof.Machine.execGshr st d a b s
  | .gsar st d a b => Sys2Proof.Machine.execGsar st d a b s
  | .gmin st d a b => Sys2Proof.Machine.execGmin st d a b s
  | .gmax st d a b => Sys2Proof.Machine.execGmax st d a b s
  | .gminn st d a b => Sys2Proof.Machine.execGminn st d a b s
  | .gmaxn st d a b => Sys2Proof.Machine.execGmaxn st d a b s
  | .gsel st d a b => Sys2Proof.Machine.execGsel st d a b s
  | .gclz st d a => Sys2Proof.Machine.execGclz st d a s
  | .gpop st d a => Sys2Proof.Machine.execGpop st d a s
  | .gcmpEq st d a b => Sys2Proof.Machine.execGcmpEq st d a b s
  | .gcmpNe st d a b => Sys2Proof.Machine.execGcmpNe st d a b s
  | .gcmpLt st d a b => Sys2Proof.Machine.execGcmpLt st d a b s
  | .gcmpLe st d a b => Sys2Proof.Machine.execGcmpLe st d a b s
  | .gcmpLtn st d a b => Sys2Proof.Machine.execGcmpLtn st d a b s
  | .gcmpLen st d a b => Sys2Proof.Machine.execGcmpLen st d a b s
  | .qand st d a b => Sys2Proof.Machine.execQand st d a b s
  | .qor st d a b => Sys2Proof.Machine.execQor st d a b s
  | .qxor st d a b => Sys2Proof.Machine.execQxor st d a b s
  | .qnot st d a => Sys2Proof.Machine.execQnot st d a s
  | .smode st a => Sys2Proof.Machine.execSmode st a s
  | .gmode st d => Sys2Proof.Machine.execGmode st d s
  | .gldi st d k => Sys2Proof.Machine.execGldi st d k s
  | .gldh st d k => Sys2Proof.Machine.execGldh st d k s
  | .gaddi st d k => Sys2Proof.Machine.execGaddi st d k s
  | .smodi st d z k => Sys2Proof.Machine.execSmodi st d z k s
  | .br st f => Sys2Proof.Machine.execBr st f s
  | .brq st c f => Sys2Proof.Machine.execBrq st c f s
  | .call st f => Sys2Proof.Machine.execCall st f s
  | .rcv st f => Sys2Proof.Machine.execRcv st f s
  | .brd st c f => Sys2Proof.Machine.execBrd st c f s
  | .cpy st q c g => Sys2Proof.Machine.execCpy st q c g s
  | .cpyt st q c g => Sys2Proof.Machine.execCpyt st q c g s
  | .cpyx st q c g v => Sys2Proof.Machine.execCpyx st q c g v s
  | .cpym st q c g => Sys2Proof.Machine.execCpym st q c g s
  | .cpyr st q c g => Sys2Proof.Machine.execCpyr st q c g s
  | .tlr st g x => Sys2Proof.Machine.execTlr st g x s
  | .tlw st g x => Sys2Proof.Machine.execTlw st g x s
  | .collAr st q g => Sys2Proof.Machine.execCollAr st q g s
  | .collRs st q g => Sys2Proof.Machine.execCollRs st q g s
  | .collAg st q g => Sys2Proof.Machine.execCollAg st q g s
  | .csred st q g v => Sys2Proof.Machine.execCsred st q g v s
  | .cprio st g => Sys2Proof.Machine.execCprio st g s
  | .fence st k e => Sys2Proof.Machine.execFence st k e s
  | .ldaGrp st d a b => Sys2Proof.Machine.execLdaGrp st d a b s
  | .ldaTeam st d a b => Sys2Proof.Machine.execLdaTeam st d a b s
  | .ldaClu st d a b => Sys2Proof.Machine.execLdaClu st d a b s
  | .ldaDie st d a b => Sys2Proof.Machine.execLdaDie st d a b s
  | .ldaDev st d a b => Sys2Proof.Machine.execLdaDev st d a b s
  | .ldaSys st d a b => Sys2Proof.Machine.execLdaSys st d a b s
  | .acqr st g h => Sys2Proof.Machine.execAcqr st g h s
  | .stlGrp st d a b => Sys2Proof.Machine.execStlGrp st d a b s
  | .stlTeam st d a b => Sys2Proof.Machine.execStlTeam st d a b s
  | .stlClu st d a b => Sys2Proof.Machine.execStlClu st d a b s
  | .stlDie st d a b => Sys2Proof.Machine.execStlDie st d a b s
  | .stlDev st d a b => Sys2Proof.Machine.execStlDev st d a b s
  | .stlSys st d a b => Sys2Proof.Machine.execStlSys st d a b s
  | .bar st l n => Sys2Proof.Machine.execBar st l n s
  | .bara st l n => Sys2Proof.Machine.execBara st l n s
  | .barw st l n => Sys2Proof.Machine.execBarw st l n s
  | .barc st n g => Sys2Proof.Machine.execBarc st n g s
  | .trdy st g => Sys2Proof.Machine.execTrdy st g s
  | .twt st g => Sys2Proof.Machine.execTwt st g s
  | .snuff st g => Sys2Proof.Machine.execSnuff st g s
  | .dclk st g => Sys2Proof.Machine.execDclk st g s
  | .dsync st => Sys2Proof.Machine.execDsync st s
  | .rsig st g => Sys2Proof.Machine.execRsig st g s
  | .rchk st => Sys2Proof.Machine.execRchk st s
  | .nop st => Sys2Proof.Machine.execNop st s
  | .exit st => Sys2Proof.Machine.execExit st s
  | .ret st => Sys2Proof.Machine.execRet st s
  | .jmpg st g => Sys2Proof.Machine.execJmpg st g s
  | .pdem st => Sys2Proof.Machine.execPdem st s
  | .safe st k => Sys2Proof.Machine.execSafe st k s
  | .trap st n => Sys2Proof.Machine.execTrap st n s
  | .tret st => Sys2Proof.Machine.execTret st s
  | .rdsp st d r => Sys2Proof.Machine.execRdsp st d r s
  | .wrsp st d r => Sys2Proof.Machine.execWrsp st d r s
  | .spawn st k f => Sys2Proof.Machine.execSpawn st k f s
  | .bflush st => Sys2Proof.Machine.execBflush st s
  | .launch st g => Sys2Proof.Machine.execLaunch st g s
  | .role st r => Sys2Proof.Machine.execRole st r s
  | .qctlWrite q v => Sys2Proof.Machine.execQctlWrite q v s
  | .qbaseWrite q v => Sys2Proof.Machine.execQbaseWrite q v s
  | .qtailDoorbell q v => Sys2Proof.Machine.execQtailDoorbell q v s
  | .qstatClear q v => Sys2Proof.Machine.execQstatClear q v s
  | .registerWrite off v => Sys2Proof.Machine.execRegisterWrite off v s
  | .imageLoad asid place => Sys2Proof.Machine.execImageLoad asid place s
  | .recordRead => Sys2Proof.Machine.execRecordRead s
  | .launchArbitration => Sys2Proof.Machine.execLaunchArbitration s
  | .launchAgeRise grid => Sys2Proof.Machine.execLaunchAgeRise grid s
  | .leaseInstall grid => Sys2Proof.Machine.execLeaseInstall grid s
  | .clusterAdmit grid places => Sys2Proof.Machine.execClusterAdmit grid places s
  | .preemptRequest cluster park => Sys2Proof.Machine.execPreemptRequest cluster park s
  | .preemptWithdraw cluster => Sys2Proof.Machine.execPreemptWithdraw cluster s
  | .clusterPreempt cluster area => Sys2Proof.Machine.execClusterPreempt cluster area s
  | .clusterPark cluster area => Sys2Proof.Machine.execClusterPark cluster area s
  | .clusterUnpark cluster => Sys2Proof.Machine.execClusterUnpark cluster s
  | .clusterResume cluster place => Sys2Proof.Machine.execClusterResume cluster place s
  | .binTimerExpiry core bin => Sys2Proof.Machine.execBinTimerExpiry core bin s
  | .binGroupStart core bin => Sys2Proof.Machine.execBinGroupStart core bin s
  | .spawnResume group slot => Sys2Proof.Machine.execSpawnResume group slot s
  | .clusterEnd cluster => Sys2Proof.Machine.execClusterEnd cluster s
  | .gridRetire grid => Sys2Proof.Machine.execGridRetire grid s
  | .deferredFault group slot tseq cls adda addb => Sys2Proof.Machine.execDeferredFault group slot tseq cls adda addb s
  | .nonFiniteTrap group => Sys2Proof.Machine.execNonFiniteTrap group s
  | .safePointDistance group slot => Sys2Proof.Machine.execSafePointDistance group slot s
  | .splitUrgent group slot => Sys2Proof.Machine.execSplitUrgent group slot s
  | .variableLatencyResult group tseq => Sys2Proof.Machine.execVariableLatencyResult group tseq s
  | .mshrRetry core idx => Sys2Proof.Machine.execMshrRetry core idx s
  | .mshrAged core idx => Sys2Proof.Machine.execMshrAged core idx s
  | .matrixEngineAccept core => Sys2Proof.Machine.execMatrixEngineAccept core s
  | .guardResolve team ctx => Sys2Proof.Machine.execGuardResolve team ctx s
  | .engineCommandStart team ctx => Sys2Proof.Machine.execEngineCommandStart team ctx s
  | .engineCommandComplete team ctx num => Sys2Proof.Machine.execEngineCommandComplete team ctx num s
  | .collectiveChunkBoundary die => Sys2Proof.Machine.execCollectiveChunkBoundary die s
  | .peerAdd idx => Sys2Proof.Machine.execPeerAdd idx s
  | .read agent line => Sys2Proof.Machine.execRead agent line s
  | .own agent line mask bytes => Sys2Proof.Machine.execOwn agent line mask bytes s
  | .homeWrite line mask bytes => Sys2Proof.Machine.execHomeWrite line mask bytes s
  | .claimAccess agent line mask => Sys2Proof.Machine.execClaimAccess agent line mask s
  | .fwd line => Sys2Proof.Machine.execFwd line s
  | .fwdData line => Sys2Proof.Machine.execFwdData line s
  | .wbData line => Sys2Proof.Machine.execWbData line s
  | .inv agent line => Sys2Proof.Machine.execInv agent line s
  | .invAck agent line => Sys2Proof.Machine.execInvAck agent line s
  | .binv agent line => Sys2Proof.Machine.execBinv agent line s
  | .demand line => Sys2Proof.Machine.execDemand line s
  | .demandAck line => Sys2Proof.Machine.execDemandAck line s
  | .epochWriteback core => Sys2Proof.Machine.execEpochWriteback core s
  | .tiledLineDrop core line => Sys2Proof.Machine.execTiledLineDrop core line s
  | .pageFlipToHost asid va => Sys2Proof.Machine.execPageFlipToHost asid va s
  | .pairTorn group va vb => Sys2Proof.Machine.execPairTorn group va vb s
  | .snpData line => Sys2Proof.Machine.execSnpData line s
  | .snpInv line => Sys2Proof.Machine.execSnpInv line s
  | .snpCur line => Sys2Proof.Machine.execSnpCur line s
  | .memRd pa => Sys2Proof.Machine.execMemRd pa s
  | .memWr pa mask bytes => Sys2Proof.Machine.execMemWr pa mask bytes s
  | .hostAtomicop op pa bytes x y => Sys2Proof.Machine.execHostAtomicop op pa bytes x y s
  | .hostBar2Access isWrite pa bytes x => Sys2Proof.Machine.execHostBar2Access isWrite pa bytes x s
  | .atomicopCompletion group tseq ok => Sys2Proof.Machine.execAtomicopCompletion group tseq ok s
  | .replicaSig group => Sys2Proof.Machine.execReplicaSig group s
  | .compareTimeout group => Sys2Proof.Machine.execCompareTimeout group s
  | .rendezvousOperands group => Sys2Proof.Machine.execRendezvousOperands group s
  | .rendezvousTimeout group => Sys2Proof.Machine.execRendezvousTimeout group s
  | .ldaForwardTimeout group => Sys2Proof.Machine.execLdaForwardTimeout group s
  | .replicaNotice core line => Sys2Proof.Machine.execReplicaNotice core line s
  | .periodEnd group => Sys2Proof.Machine.execPeriodEnd group s
  | .serialPhase grid => Sys2Proof.Machine.execSerialPhase grid s
  | .snuffCancel token => Sys2Proof.Machine.execSnuffCancel token s
  | .dieFailure die => Sys2Proof.Machine.execDieFailure die s
  | .peerUnreachable peer => Sys2Proof.Machine.execPeerUnreachable peer s
  | .pageRetire pa errors => Sys2Proof.Machine.execPageRetire pa errors s
  | .sensorLimit sensor die => Sys2Proof.Machine.execSensorLimit sensor die s
  | .coolantFlowTimeout => Sys2Proof.Machine.execCoolantFlowTimeout s
  | .reset => Sys2Proof.Machine.execReset s
  | .dieTrainingComplete trained => Sys2Proof.Machine.execDieTrainingComplete trained s
  | .firmwareUpdate signed version => Sys2Proof.Machine.execFirmwareUpdate signed version s
  | .firmwareFallback => Sys2Proof.Machine.execFirmwareFallback s
  | .illegalInstruction w => Sys2Proof.Machine.execIllegalInstruction w s
  | .instructionFetch group slot => Sys2Proof.Machine.execInstructionFetch group slot s
  | .data agent line => Sys2Proof.Machine.execData agent line s
  | .replicaResult group => Sys2Proof.Machine.execReplicaResult group s

end Sys2Proof.Machine
end

