-- ==== Sys2Proof/Machine/Step.lean ====
section
/-! DEFINITION. One step: an event from outside that stands first, or the next issue of an issue slot, or the end of a
cycle. -/

namespace Sys2Proof.Machine

/-- One step of the machine. -/
def step (s : State) : Host.Outcome State Fault Refusal :=
  match s.events with
  | e :: rest => exec e { s with events := rest }
  | [] => s.advance exec

/-- A state whose next step runs the instruction with these bits. -/
def State.withFetchWord (s : State) (_nbits w : Nat) : State := s.placeNext (tableWord w)

end Sys2Proof.Machine
end

