-- ==== Sys2Proof/Safety.lean ====
section
/-! DEFINITION. What claims call a well-formed state, a safe step, and the completion of an instruction with its frame. -/

namespace Sys2Proof.Machine

/-- Memory as the state holds it: bytes by physical address. -/
abbrev Memory := Store 8
/-- The canonical form of a memory: addresses strictly rising, no entry that reads as an unlisted address does. -/
def Memory.wf (m : Memory) : Bool := Store.wf m

/-- Both memories of a state are in canonical form. -/
def State.memoryWf (s : State) : Bool := Memory.wf s.mem.bytes && Memory.wf s.mem.scratch

/-- A step that neither faults nor is refused. -/
def State.safeStep (s : State) : Prop := ∃ t, step s = .next t

/-- One byte of memory at its home. -/
def State.byteAt (s : State) (pa : Nat) : Byte := Store.get s.mem.bytes pa
/-- One byte of the scratch of a team. -/
def State.scratchAt (s : State) (team off : Nat) : Byte := Store.get s.mem.scratch (scratchKey team off)

/-- No byte of memory has changed: at its home, in the coherence order, or in a scratch. -/
def State.sameBytes (s t : State) : Prop :=
  (∀ pa, t.byteAt pa = s.byteAt pa) ∧ (∀ pa, t.coherentByte pa = s.coherentByte pa) ∧
    ∀ team off, t.scratchAt team off = s.scratchAt team off

/-- Does a tile, or one that shares its line, take up part of a line, with its payload or with its header? -/
def TileRef.touches (t : TileRef) (line : Nat) : Bool :=
  t.mates.any fun u =>
    line == u.header / 128 || (decide (u.base / 128 ≤ line) && decide (line ≤ (u.base + 2 ^ (u.cls + 5) - 1) / 128))

/-- Has a core nothing to write back that would reach a line: no dirty bytes of it, none of a tile that takes up part of it? -/
def CoreState.idle (c : CoreState) (line : Nat) : Bool :=
  c.l1.all fun e => e.2.dirty == 0 || (e.1 != line && !(e.2.tile.any (·.touches line)))

/-- Would a request for one line write another, itself or through the request that an eviction makes room for? -/
def Request.writes : Request → Nat → Nat → Bool
  | .read _ _, _, _ => false
  | .own _ _ _, at_, line => at_ == line
  | .homeWrite _ _ _, at_, line => at_ == line
  | .evict l r, _, line => r.writes l line
/-- Does a message carry anything to a line but the bytes that stand at its home? -/
def Msg.writes (m : Msg) (line : Nat) (home : BitVec 1024) : Bool :=
  match m with
  | .fwdData l _ d w own => l == line && (own || w != 0 || d != home)
  | .wbData l _ _ w _ => l == line && w != 0
  | _ => false
/-- A quiet line: whatever is under way, no request, no message and no L1 writes it, no claims divide it, and every copy of it is
its home's bytes. -/
def State.quiet (s : State) (line : Nat) : Bool :=
  let e := s.dirEntry line
  s.mem.msgs.all (fun m => !m.writes line (s.homeLine line)) &&
  s.mem.dir.all (fun d => (d.2.serving.toList ++ d.2.waiting).all fun r => !r.writes d.1 line) &&
  s.mem.stalled.all (fun r => !r.2.writes r.1 line) && e.st != 4 &&
  e.copies.all (fun c => c.2.dirty == 0 && c.2.claim == 0 && c.2.data == s.homeLine line) && s.cores.all fun c => c.2.idle line
/-- Nothing of the coherence protocol is under way. -/
def State.calm (s : State) : Bool :=
  s.mem.msgs.isEmpty && s.mem.stalled.isEmpty &&
    s.mem.dir.all fun d => !d.2.busy && d.2.serving.isNone && d.2.waiting.isEmpty
/-- A line at rest: it is quiet, nothing at all is under way, its holders have their copies, and at most one holds it where it is
exclusive. -/
def State.atRest (s : State) (line : Nat) : Bool :=
  let e := s.dirEntry line
  s.calm && s.quiet line && e.holders.all (fun a => AMap.has e.copies a && (e.copy a).here) &&
    (!e.exclusive || decide (e.holders.length ≤ 1))

/-- What an access changes beyond what its instruction writes: L1s with what is kept with them, the coherence protocol's state,
translations, wicks and notices, what the team's engines have written unseen, and the count of free values drawn. No byte of a quiet line changes, unless `L`
names the line, no byte of scratch but those of `S`, and no line becomes poisoned. -/
structure State.spares (L S : Nat → Bool) (s t : State) : Prop where
  rest : t = { s with
    cores := t.cores, teams := t.teams, mem := { t.mem with demands := s.mem.demands }
    time := { s.time with free := t.time.free } }
  team : ∀ k, t.teamAt k = { s.teamAt k with unseen := (t.teamAt k).unseen }
  core : ∀ c, t.coreAt c = { s.coreAt c with
    epoch := (t.coreAt c).epoch, l1 := (t.coreAt c).l1, shadows := (t.coreAt c).shadows, headers := (t.coreAt c).headers,
    wickRec := (t.coreAt c).wickRec, ownRec := (t.coreAt c).ownRec, misses := (t.coreAt c).misses, full := (t.coreAt c).full }
  poison : ∀ k ∈ t.mem.poison, k ∈ s.mem.poison
  lines : ∀ j, L j = false → s.quiet j = true → t.quiet j = true ∧ ∀ pa, pa / 128 = j → t.byteAt pa = s.byteAt pa
  scratch : ∀ team off, S (scratchKey team off) = false → t.scratchAt team off = s.scratchAt team off

/-- n bytes as one number, lowest first (R7), and byte k of a number. -/
def numberOf (n : Nat) (f : Nat → Byte) : Nat := (List.range n).foldr (fun k x => x * 256 + (f k).toNat) 0
def byteOf (x k : Nat) : Byte := BitVec.ofNat 8 (x >>> (8 * k))

/-- A byte that the executing group or its deterministic team keeps to itself (R376, R391). -/
def State.ownByte (s : State) (pa : Nat) : Option Byte :=
  s.shadowByte pa <|> if s.deterministic then s.bufferedByte pa else none

/-- Where the L1 serves a place: memory, not tiled, neither past the L1 nor buffered. -/
def State.viaL1 (s : State) : Target → Bool
  | .scratch _ _ => false
  | .memory leaf _ pa => !leaf.tiled && s.throughL1 pa
/-- Does the L1 hold every byte of such a place, under its own address (R216)? -/
def State.inL1 (s : State) (n : Nat) : Target → Bool
  | .scratch _ _ => false
  | .memory _ va pa => (List.range n).all fun k => s.l1Has s.coreId (s.grid.asid, va / 128) (pa + k)

/-- Could a write of a place change bytes of a line of memory: its own line, or those of its tile? -/
def Target.reaches (t : Target) (line : Nat) : Bool :=
  match t with
  | .scratch _ _ => false
  | .memory leaf va pa => line == pa / 128 || (leaf.tile va).any (·.touches line)
/-- Does a write of n bytes of a place cover a byte of scratch? -/
def Target.covers (t : Target) (n key : Nat) : Bool :=
  match t with
  | .scratch team off => decide (scratchKey team off ≤ key) && decide (key < scratchKey team off + n)
  | .memory _ _ _ => false
/-- Bytes after a write of n bytes from a place. -/
def storeBytes (f : Nat → Byte) (place n x : Nat) : Nat → Byte :=
  fun a => if place ≤ a ∧ a < place + n then byteOf x (a - place) else f a

/-- Nothing that R106, R109, R235, R244, R374, R391, R392 or R396 names stands before an access: no row from 6 on fails, it has its
turn, and it neither waits nor first needs a compare. -/
def State.accessClear (s : State) (n : Nat) (k : Need) (more : Target → Bool) (sync atHome : Bool) (l : List DWord) : Prop :=
  s.coreId < 288 ∧ s.addressFault n k more l = none ∧
  (s.deterministic = true → s.follows = false → s.hasTurn = false →
    sync = false ∧ ∀ e ∈ s.places k l, s.reachesOut e.2 = false) ∧
  (s.deterministic = true → s.follows = true → s.leaderPassed = false → sync = false →
    ∀ e ∈ s.places k l, s.reachesOut e.2 = false) ∧
  s.atomicsOpen s.gid false = false ∧
  (∀ e ∈ s.places k l, s.needsForced e.2 n k.writes = false ∧ s.blocked e.2 n atHome = none ∧ s.dataFault n k e.1 e.2 = none) ∧
  (!atHome && s.heldFull k (s.places k l)) = false ∧
  s.holdsBack (linesOf ((s.places k l).map Prod.snd)) k.writes atHome = false
/-- Nothing that R340 and R374 name stands before an operation at the homes of some lines: where it releases, no AtomicOp of the
group is on its way, and no demand has to wait. -/
def State.releaseClear (s : State) (releases : Bool) (p : List (DWord × Target)) : Prop :=
  s.atomicsOpen s.gid releases = false ∧ ∀ w ∈ s.wicksOf (placeLines p), s.demandWaits w = false

/-- Does no L1 hold a dirty byte? -/
def State.flushed (s : State) : Bool := s.cores.all fun c => c.2.l1.all fun e => e.2.dirty == 0
/-- A write at the homes of some places, a release at a scope or none, makes no write-back on its way (R346, R347, R349): no L1 has
anything to write back; or no wick of the lines demands it, and the release, if it is one from cluster scope, is a lazy one. -/
def State.writesOnly (s : State) (scope : Option Nat) (p : List (DWord × Target)) : Prop :=
  s.flushed = true ∨ s.wicksOf (placeLines p) = [] ∧ ∀ sc, scope = some sc → sc < 2 ∨
    sc < 5 ∧ anyScratch p = false ∧ ∀ l ∈ placeLines p, kindOf (128 * l) = 0

/-- Registers that an instruction may write: lanes of vector registers, group registers, predicates, and the marks of the
rounding counters, GMODE and ROLE. -/
structure Writes where
  v : Nat → Nat → Bool := fun _ _ => false
  g : Nat → Bool := fun _ => false
  p : Nat → Bool := fun _ => false
  q : Nat → Bool := fun _ => false
  scount : Bool := false
  mode : Bool := false
  role : Bool := false

/-- Is a register among those named? -/
def Writes.names (w : Writes) : Reg → Bool
  | .v n => lanes.any (w.v n)
  | .g n => w.g n
  | .p n => w.p n
  | .q n => w.q n
  | .scount => w.scount
  | .mode => w.mode
  | .role => w.role

/-- Every register but those named keeps its value, and the logical clock adds 1 (R392). -/
def Regs.keeps (w : Writes) (r r' : Regs) : Prop :=
  (∀ n l, l < 32 → w.v n l = false → r'.getV n l = r.getV n l) ∧ (∀ n, w.g n = false → r'.getG n = r.getG n) ∧
  (∀ n, w.p n = false → r'.getP n = r.getP n) ∧ (∀ n, w.q n = false → r'.getQ n = r.getQ n) ∧
  (w.scount = false → ∀ l, r'.getSc l = r.getSc l) ∧ (w.mode = false → r'.gmode = r.gmode) ∧
  (w.role = false → r'.role = r.role) ∧ (∀ b i j, r'.getAcc b i j = r.getAcc b i j) ∧ r'.openAcc = r.openAcc ∧
  r'.tseq = r.tseq ∧ r'.clock = r.clock + 1

/-- The trap registers, the handler, the pending faults, the group barrier, the place of a group and the mark of a resumption stay; new results in
flight are of registers named. Where `nft` is false, so do its non-finite mark and what it keeps as a replica. -/
def Group.keeps (w : Writes) (nft : Bool) (g g' : Group) : Prop :=
  g'.live = g.live ∧ g'.trap = g.trap ∧ g'.handler = g.handler ∧ g'.pending = g.pending ∧ g'.place = g.place ∧
  g'.ctx.bar = g.ctx.bar ∧ g'.resumed = g.resumed ∧ (nft = false → g'.nft = g.nft ∧ g'.repl = g.repl) ∧
  ∃ l, g'.inflight = l ++ g.inflight ∧ ∀ e ∈ l, w.names e.reg = true

/-- What is in flight once every earlier result of a split is complete (R87, R157; log 53): a result of fixed latency that is the split's
own goes, but in the lanes of a vector register or lane predicate outside the mask; every other result stays. -/
def Group.settles (g : Group) (slot : Nat) (mask : Mask) (g' : Group) : Prop :=
  let own := fun (e : Inflight) => e.ready.isSome = true ∧ (e.slot = slot ∨ e.also.getLsbD slot = true)
  let lanewise := fun (e : Inflight) => (∃ n, e.reg = .v n) ∨ ∃ n, e.reg = .p n
  ∀ e, e ∈ g'.inflight ↔ (e ∈ g.inflight ∧ ¬own e) ∨
    ∃ f ∈ g.inflight, own f ∧ lanewise f ∧ f.lanes &&& ~~~mask ≠ 0 ∧ e = { f with lanes := f.lanes &&& ~~~mask }
/-- A fault is the pending one of lowest TSEQ, by the distance from the group's counter (R440), and none that ends the grid. -/
def State.waitsFirst (s : State) (f : PendingFault) : Prop :=
  f ∈ s.grp.pending ∧ f.cls ≠ 7 ∧ ∀ g ∈ s.grp.pending, g ≠ f → (s.regs.tseq - g.tseq).toNat < (s.regs.tseq - f.tseq).toNat
/-- A pending fault has been delivered to its handler as another ended (R438, R440, R441). -/
def State.delivers (s t : State) (f : PendingFault) (handler : Addr) : Prop :=
  t.grp.handler = some (f.slot, (t.splitAt f.slot).stack.length) ∧
  t.grp.trap = { tcause := BitVec.ofNat 16 (f.cls + 256 * f.detail), trappc := f.pc, tmask := f.mask, tadda := f.adda,
                 taddb := f.addb, tseq := f.tseq } ∧
  (t.splitAt f.slot).pc = handler ∧ (t.splitAt f.slot).mask = f.mask ∧ (t.splitAt f.slot).live = (s.splitAt f.slot).live ∧
  t.grp.pending = s.grp.pending.filter (· ≠ f)

/-- The writes of a block of registers. -/
def blockWrites (d k : Nat) (m : Mask) : Writes := { v := fun n l => decide (d ≤ n) && decide (n < d + k) && m.has l }

/-- What bytes of scratch, by their keys, become by a write of a place. -/
def Target.put (t : Target) (n x : Nat) (f : Nat → Byte) : Nat → Byte :=
  match t with
  | .scratch team off => storeBytes f (scratchKey team off) n x
  | .memory _ _ _ => f

/-- Is a place untiled memory in one line that is at rest, or in the sense `still`, of which the group keeps no byte to itself? -/
def State.settledAt (s : State) (n : Nat) (t : Target) (still : Nat → Bool := s.atRest) : Prop :=
  match t with
  | .scratch _ _ => False
  | .memory leaf _ pa => leaf.tiled = false ∧ still (pa / 128) = true ∧
      ∀ j, j < n → (pa + j) / 128 = pa / 128 ∧ s.ownByte (pa + j) = none

/-- The physical address of a place in memory. -/
def Target.phys : Target → Nat
  | .scratch _ _ => 0
  | .memory _ _ pa => pa
/-- The key of a place in scratch. -/
def Target.cell : Target → Nat
  | .scratch team off => scratchKey team off
  | .memory _ _ _ => 0
def Target.isScratch : Target → Bool
  | .scratch _ _ => true
  | .memory _ _ _ => false

/-- Writes of n bytes one after another: the last of a byte stays (R266). -/
def storesBytes (n : Nat) (l : List (Nat × Nat)) (f : Nat → Byte) : Nat → Byte :=
  l.foldl (fun f e => storeBytes f e.1 n e.2) f

/-- Read-modify-writes of n bytes one after another (R276): the old values, and the bytes they leave. `new` gives the value
that takes the place of the old one, if any. -/
def serially (n : Nat) (new : Nat → Nat → Option Nat) : List (Nat × Nat) → (Nat → Byte) → List Nat × (Nat → Byte)
  | [], f => ([], f)
  | (a, x) :: r, f =>
    let old := numberOf n fun j => f (a + j)
    let g := match new old x with
      | some y => storeBytes f a n y
      | none => f
    (old :: (serially n new r g).1, (serially n new r g).2)

/-- What a load returns from the places of its addresses (R265, R267, R337): the bytes of a scratch; where the L1 has the
bytes of every place, those; where all places lie in one line at rest that the L1 does not have and finds room for, and its home
an entry, or where the accesses go past the L1, the bytes at the home; over memory the group's own bytes. -/
def State.loads (s : State) (n : Nat) (l : List DWord) (v : DWord → Nat) : Prop :=
  let place := s.placeOf .read
  let own := fun (f : Nat → Byte) (a : DWord) => v a = numberOf n fun j => (s.ownByte ((place a).phys + j)).getD (f ((place a).phys + j))
  (∀ a ∈ l, (place a).isScratch = true → v a = numberOf n fun j => Store.get s.mem.scratch ((place a).cell + j)) ∧
  ((∀ a ∈ l, s.viaL1 (place a) = true ∧ s.inL1 n (place a) = true) → ∀ a ∈ l, own (s.l1Byte s.coreId) a) ∧
  (∀ k, s.atRest k = true → AMap.has s.core.l1 k = false → s.core.held < l1Lines → s.setFull k = false →
    (∀ a ∈ l, s.viaL1 (place a) = true ∧ ∀ j, j < n → ((place a).phys + j) / 128 = k) → ∀ a ∈ l, own s.byteAt a) ∧
  (∀ a ∈ l, ∀ leaf va pa, place a = .memory leaf va pa → leaf.tiled = false → s.throughL1 pa = false →
    (∀ j, j < n → s.quiet ((pa + j) / 128) = true) → own s.byteAt a)

/-- A split that has retired its instruction and goes on at `pc`; its safe-point distance counts it or not (R443). -/
def Split.retired (x : Split) (pc : Addr) (counts : Bool) : Split :=
  { x with
    pc := pc, dist := if counts then x.dist + 1 else x.dist, wait := none, num := none, word := none, token := false,
    taken := none }

/-- An instruction has completed: its split has become `y`, no other split has changed, of the registers only those named,
of the rest of the group what `Group.keeps` leaves open, and nothing else in the machine: no byte of memory, no other
group, no team, cluster, grid, core, queue or register of the device. -/
def State.completes (s t : State) (y : Split) (w : Writes) (nft : Bool) : Prop :=
  t = s.setGrp t.grp ∧ s.sameBytes t ∧ t.spl = y ∧ (∀ k, k ≠ s.slot → t.splitAt k = s.splitAt k) ∧
    Regs.keeps w s.regs t.regs ∧ Group.keeps w nft s.grp t.grp

/-- An instruction that reaches memory has completed: as `completes`, but for what `spares` leaves open; in replica mode what
the group keeps as a replica is for the instruction to say. -/
def State.completesMem (s t : State) (y : Split) (w : Writes) (L S : Nat → Bool) : Prop :=
  s.spares L S { s with cores := t.cores, teams := t.teams, mem := t.mem, time := t.time } ∧
    t = ({ s with cores := t.cores, teams := t.teams, mem := t.mem, time := t.time } : State).setGrp t.grp ∧
    t.spl = y ∧ (∀ k, k ≠ s.slot → t.splitAt k = s.splitAt k) ∧ Regs.keeps w s.regs t.regs ∧
    Group.keeps w s.replicated s.grp t.grp ∧ t.grp.nft = s.grp.nft

/-- The executing split as it stands when its instruction has retired and it goes on at the next word. -/
def State.nextSplit (s : State) : Split := s.spl.retired (s.spl.pc + 4) (!s.handlerMode)

/-- A result of the executing instruction is in flight: readable after `lat` cycles, or when its step reports it (R88, R89). -/
def State.pends (s t : State) (r : Reg) (lat : Option Nat) : Prop :=
  ∃ e ∈ t.grp.inflight, e.reg = r ∧ e.slot = s.slot ∧ e.tseq = s.tseq ∧ e.ready = lat.map (s.time.cycle + ·)

/-- The instruction writes `f` into the active lanes of vector register d, with a latency, and nothing else. -/
def State.answersV (s : State) (i : Instr) (d : Nat) (lat : Option Nat) (f : Nat → Word) : Prop :=
  ∃ t, exec i s = .next t ∧ (∀ l, s.active.has l = true → t.regs.getV d l = f l) ∧
    (s.active ≠ 0 → s.pends t (.v d) lat) ∧
    s.completes t s.nextSplit { v := fun n l => n == d && s.active.has l } false

/-- The instruction writes a group register, with a latency, and nothing else. -/
def State.answersG (s : State) (i : Instr) (d : Nat) (lat : Option Nat) (x : DWord) : Prop :=
  ∃ t, exec i s = .next t ∧ t.regs.getG d = x ∧ s.pends t (.g d) lat ∧
    s.completes t s.nextSplit { g := (· == d) } false

/-- The instruction writes the active lanes of a lane predicate, with a latency, and nothing else; p0 stays all-true. -/
def State.answersP (s : State) (i : Instr) (d : Nat) (lat : Option Nat) (x : Nat → Bool) : Prop :=
  ∃ t, exec i s = .next t ∧
    (∀ l, l < 32 → (t.regs.getP d).has l =
      if d = 0 then true else if s.active.has l then x l else (s.regs.getP d).has l) ∧
    (s.active ≠ 0 → s.pends t (.p d) lat) ∧
    s.completes t s.nextSplit { p := (· == d) } false

/-- The instruction writes a group predicate, with a latency, and nothing else; q0 stays true. -/
def State.answersQ (s : State) (i : Instr) (d : Nat) (lat : Option Nat) (x : Bool) : Prop :=
  ∃ t, exec i s = .next t ∧ t.regs.getQ d = (if d = 0 then true else x) ∧ s.pends t (.q d) lat ∧
    s.completes t s.nextSplit { q := (· == d) } false

/-- The instruction writes two vector registers, d and d + 1, in the active lanes, and nothing else. -/
def State.answersPair (s : State) (i : Instr) (d : Nat) (lat : Option Nat) (f g : Nat → Word) : Prop :=
  ∃ t, exec i s = .next t ∧ (∀ l, s.active.has l = true → t.regs.getV d l = f l ∧ t.regs.getV (d + 1) l = g l) ∧
    (s.active ≠ 0 → s.pends t (.v d) lat ∧ s.pends t (.v (d + 1)) lat) ∧
    s.completes t s.nextSplit { v := fun n l => (n == d || n == d + 1) && s.active.has l } false

/-- Is an element type floating? -/
def Ty.isFloat : Ty → Bool
  | .float _ => true
  | _ => false

/-- The rounding counters after an instruction: 1 more in every active lane where it rounds under RSR, else as before (R165). -/
def State.counters (s t : State) (rounds : Bool) : Prop :=
  ∀ l, l < 32 → t.regs.getSc l =
    if rounds && modeRnd s.regs.gmode == 5 && s.active.has l then s.regs.getSc l + 1 else s.regs.getSc l

/-- What NFT makes of a result (R170, R449): the group has stopped, or in replica mode holds the trap until its compare. -/
def State.nonFiniteMark (s t : State) (bad : Bool) : Prop :=
  t.grp.nft = (if bad && modeNft s.regs.gmode && !s.replicated then some (s.spl.pc, s.tseq) else s.grp.nft) ∧
  t.grp.repl = (if bad && modeNft s.regs.gmode && s.replicated && s.grp.repl.nft.isNone then
    { s.grp.repl with nft := some (s.spl.pc, s.tseq) } else s.grp.repl)

/-- A typed instruction under an element type: in every active lane element e of vector register d is `res l e`; the
counters and NFT follow, and nothing else changes. -/
def State.answersElements (s : State) (i : Instr) (w : Nat) (d : Nat) (lat : Option Nat) (rounds : Bool)
    (nonFinite : Nat → Bool) (res : Nat → Nat → Nat) : Prop :=
  ∃ t, exec i s = .next t ∧
    (∀ l, s.active.has l = true → ∀ e, e < 32 / w → elem w (t.regs.getV d l) e = res l e % 2 ^ w) ∧
    s.pends t (.v d) lat ∧ s.counters t rounds ∧
    s.nonFiniteMark t (lanes.any fun l => s.active.has l && (List.range (32 / w)).any fun e => nonFinite (res l e)) ∧
    s.completes t s.nextSplit { v := fun n l => n == d && s.active.has l, scount := rounds && modeRnd s.regs.gmode == 5 } true

/-- The number that a finite value is. -/
def Fl.rat : Fl → Rat
  | .fin s m e => (if s then -1 else 1) * (m : Rat) * 2 ^ e
  | _ => 0
/-- The code `c` is what one rounding makes of the exact magnitude x with a sign (R164 to R166, R169). The magnitudes of the codes up to
that of the largest finite value rise, and one unit in the last place after it stands the first that overflows; n is the lower
neighbour, n + 1 the upper one. -/
def Fmt.roundsTo (f : Fmt) (r : Rounding) (neg : Bool) (x : Real) (c : Nat) : Prop :=
  let max := f.maxCode
  let v := fun (n : Nat) => (((if n ≤ max then (f.value n).rat else 2 * (f.value max).rat - (f.value (max - 1)).rat) : Rat) : Real)
  let beyond := if r.sat = true ∨ r.rnd = 1 ∨ (r.rnd = 2 ∧ neg = false) ∨ (r.rnd = 3 ∧ neg = true) then f.signed neg max
    else match f.infCode with
      | some i => f.signed neg i
      | none => f.nanCode
  let put := fun (n : Nat) => if max < n then beyond else if r.ftz = true ∧ n < 2 ^ f.frac then f.signed neg 0 else f.signed neg n
  let up := fun (n : Nat) =>
    (r.rnd = 0 ∧ (v (n + 1) - x < x - v n ∨ (v (n + 1) - x = x - v n ∧ n % 2 = 1))) ∨
    (r.rnd = 2 ∧ neg = true ∧ v n < x) ∨ (r.rnd = 3 ∧ neg = false ∧ v n < x) ∨
    (r.rnd = 4 ∧ v (n + 1) - x ≤ x - v n) ∨
    (5 ≤ r.rnd ∧ r.draw < Nat.floor (2 ^ 32 * (x - v n) / (v (n + 1) - v n)))
  (v (max + 1) ≤ x → c = beyond) ∧
  ∀ n, n ≤ max → v n ≤ x → x < v (n + 1) → (up n → c = put (n + 1)) ∧ (¬up n → c = put n)

/-- The element of an elementwise operation (R186 to R189): the exact value of a floating type rounded once with the
element's own draw, that of an integer type reduced or clamped. -/
def State.elementOf (s : State) (ty : Ty) (fl : Bool → Fl → Fl → Fl → Fl) (int : Int → Int → Int → Int) (d a b l e : Nat) : Nat :=
  let m := s.regs.gmode
  let x := elem ty.width (s.rdV a l) e
  let y := elem ty.width (s.rdV b l) e
  let z := elem ty.width (s.rdV d l) e
  match ty with
  | .float f =>
    let r : Rounding :=
      { rnd := modeRnd m, sat := modeSat m, ftz := modeFtz m,
        draw := (vmix (BitVec.ofNat 32 (l + 32 * e)) ((s.rdG 63).setWidth 32 ^^^ s.regs.getSc l)).toNat }
    f.roundTo r (fl (modeRnd m == 2) (f.input (modeFtz m) x) (f.input (modeFtz m) y) (f.input (modeFtz m) z))
  | .int t => t.result (modeSat m) (int (t.value x) (t.value y) (t.value z))
  | .vq2 => 0

/-- The number of leading zero bits of a word (R193). -/
def leadsWith {w : Nat} (x : BitVec w) (n : Nat) : Prop :=
  n ≤ w ∧ (∀ j, w - n ≤ j → j < w → x.getLsbD j = false) ∧ (n < w → x.getLsbD (w - 1 - n) = true)

/-- The instruction ends with the illegal-operand trap and no other effect (R108, R438). -/
def State.refusesOperand (s : State) (i : Instr) : Prop := exec i s = .next (s.fault (s.ownFault 0x02 0 0 0))

/-- A command has entered a context's queue, under the next number, with its issuer and the cycle of its issue; it is held if its
guard is still open (R127, R238, R315), and it does not see what the commands write for which the program has not waited, nor
what later ones write (R240). -/
def State.withCommand (s : State) (ctx : Nat) (c : Cmd) : State :=
  let x := s.ctx ctx
  let n := (x.issued + 1).toNat
  let u := s.setTeam { s.team with unwaited := s.team.unwaited ++ [{ ctx := ctx, num := n }] }
  u.setCtx ctx { x with
    issued := x.issued + 1
    queue := x.queue ++ [{ c with
      num := n, gid := s.gid, slot := s.slot, tseq := s.tseq, clock := s.regs.clock, order := s.time.cycle
      held := (match c.guard with
        | .pending _ => true
        | _ => false)
      blind := s.team.unwaited.map fun u => (u.ctx, u.num)
      upTo := (List.range 4).map fun k => if k = ctx then n else (s.ctx k).issued.toNat }] }
/-- The instruction has put a command into a context's queue; nothing else has changed. -/
def State.queues (s : State) (i : Instr) (ctx : Nat) (c : Cmd) : Prop := exec i s = .next (s.withCommand ctx c).retire

/-- The instruction stops at its first unaligned operand address, else at its first that fails in scratch, else at none
(R106, R319). -/
def State.testsOperands (s : State) (i : Instr) (l : List OperandTest) (go : Prop) : Prop :=
  let scratch := fun (t : OperandTest) => match s.aperture t.addr with
    | .scratch _ _ => True
    | .outside => False
    | _ => t.inScratch = false
  (∀ a t b, l = a ++ t :: b → (∀ u ∈ a, u.addr.toNat % u.align = 0) → t.addr.toNat % t.align ≠ 0 →
    exec i s = .next (s.fault (s.ownFault 0x05 0 (t.addr.setWidth 56) 0))) ∧
  ((∀ t ∈ l, t.addr.toNat % t.align = 0) →
    (∀ a t b, l = a ++ t :: b → (∀ u ∈ a, scratch u) → ¬scratch t →
      exec i s = .next (s.fault (s.ownFault 0x06 0 (t.addr.setWidth 56) 0))) ∧
    ((∀ t ∈ l, scratch t) → go))

/-- The turn of a synchronising operation has come (R392), for a follower with its leader (R396), or it needs none. -/
def State.mayGo (s : State) : Prop := s.deterministic = false ∨ s.myTurn = true

/-- No set is near its bound and no eviction is under way: a request for a line concerns no other line (R365, R366, R430). -/
def State.uncrowded (s : State) : Bool :=
  s.mem.stalled.isEmpty && decide (s.mem.dir.length < Config.ways) && decide (s.mem.switch.length < Config.ways) &&
    s.mem.dir.all fun e => match e.2.serving with
      | some (.evict _ _) => false
      | _ => true
/-- Only what belongs to one line has changed: its bytes at its home, its entries in the directory and in the home switch, its mark
of poison and the messages about it. -/
def State.onlyLine (line : Nat) (s t : State) : Prop :=
  t = { s with mem := { s.mem with
    bytes := t.mem.bytes, dir := t.mem.dir, msgs := t.mem.msgs, tick := t.mem.tick, switch := t.mem.switch, poison := t.mem.poison,
    clearing := t.mem.clearing } } ∧
  (∀ j, j ≠ line → t.dirEntry j = s.dirEntry j ∧ t.switchEntry j = s.switchEntry j ∧ (j ∈ t.mem.poison ↔ j ∈ s.mem.poison)) ∧
  (∀ j, j ≠ line → t.mem.msgs.filter (fun m => m.line == j) = s.mem.msgs.filter (fun m => m.line == j)) ∧
  ∀ pa, pa / 128 ≠ line → t.byteAt pa = s.byteAt pa

/-- The outcome of an event that another group takes part in: the executing group and split stay as they are named. -/
def State.back (s t : State) : State := t.at_ s.gid s.slot

/-- The places of the rows of a paired store's two blocks (R296). -/
def State.pairPlaces (s : State) (a b : BitVec 6) : List (DWord × Target) :=
  let ctl := s.rdG (b.toNat + 1)
  let rows := fun (x step : DWord) => (List.range 8).map fun r => x + BitVec.ofNat 64 (r * step.toNat)
  s.places .write (rows (s.rdG a.toNat) ((ctl.extractLsb' 0 16).setWidth 64) ++
    rows (s.rdG b.toNat) ((ctl.extractLsb' 16 16).setWidth 64))
/-- The paired store of the executing group is made at once (R296 to R299): its operands pass every test, both blocks lie in
tiles of elements of w bytes, and nothing stands before the access. -/
structure State.pairs (s : State) (d : BitVec 7) (a b : BitVec 6) (pa pb : Nat) (ta tb : TileRef) : Prop where
  active : s.active ≠ 0
  plain : s.replicated = false ∧ s.deterministic = false ∧ s.coreId < 288
  control : (s.rdG (b.toNat + 1)).extractLsb' 34 30 = 0 ∧ (s.rdG (b.toNat + 1)).extractLsb' 32 2 ≠ 3 ∧
    ((s.rdG (b.toNat + 1)).extractLsb' 32 2 = 2 → d.toNat % 2 = 0 ∧ d.toNat + 1 < s.grid.kernel.regs)
  aligned : let w := 2 ^ ((s.rdG (b.toNat + 1)).extractLsb' 32 2).toNat
    ∀ n ∈ [((s.rdG (b.toNat + 1)).extractLsb' 0 16).toNat, ((s.rdG (b.toNat + 1)).extractLsb' 16 16).toNat,
      (s.rdG a.toNat).toNat, (s.rdG b.toNat).toNat], n % (8 * w) = 0
  outside : inScratchAperture (s.rdG a.toNat) = false ∧ inScratchAperture (s.rdG b.toNat) = false
  first : ∃ leaf va, s.target (s.rdG a.toNat) .write = .ok (.memory leaf va pa)
  second : ∃ leaf va, s.target (s.rdG b.toNat) .write = .ok (.memory leaf va pb)
  tiles : let w := 2 ^ ((s.rdG (b.toNat + 1)).extractLsb' 32 2).toNat
    s.pairTile (s.rdG a.toNat) (7 * ((s.rdG (b.toNat + 1)).extractLsb' 0 16).toNat + 8 * w - 1) w = .ok (some (pa, ta)) ∧
    s.pairTile (s.rdG b.toNat) (7 * ((s.rdG (b.toNat + 1)).extractLsb' 16 16).toNat + 8 * w - 1) w = .ok (some (pb, tb))
  clear : let p := s.pairPlaces a b
    let n := 8 * 2 ^ ((s.rdG (b.toNat + 1)).extractLsb' 32 2).toNat
    (∀ e ∈ p, s.needsForced e.2 n true = false ∧ s.blocked e.2 n true = none ∧ s.dataFault n .write e.1 e.2 = none) ∧
    s.atomicsOpen s.gid s.spl.rel.isSome = false ∧ (s.spl.rel.isSome = true → ∀ w ∈ s.wicksOf (placeLines p), s.demandWaits w = false)

end Sys2Proof.Machine
end

