-- ==== Sys2Proof/Certificates/Slice0/Obligations.lean ====
section
/-! DEFINITION. The statements for the provers: each formalises rules of the spec about one family of instructions or steps. -/

open Sys2Proof Sys2Proof.Machine

/-- R79 to R105, of some forms: words written out bit by bit from the encoding tables of the spec decode to their instructions, and
words that R8, R81, R86, R99, R103, R104 and R301 exclude are rejected, each by name. -/
def Obligations.DecodeWords : Prop :=
  -- S, M, N, D, A, B (R80)
  decode 0b010_00000_100_0000101_0000011_1111111#32 = .ok (.vfma 2 5 3 127) ∧
  decode 0b000_01001_110_0111111_0000011_0000000#32 = .ok (.pballot 0 63 3) ∧
  decode 0b001_01101_111_0001010_0000100_0000110#32 = .ok (.pst 1 10 4 6) ∧
  decode 0b000_10010_001_0000001_0000010_0000000#32 = .ok (.gpop 0 1 2) ∧
  -- S, M, C, F, A, B (R306 to R313)
  decode 0b000_01110_000_101_1001_0001000_0010000#32 = .ok (.mma 0 5 9 8 16) ∧
  -- S, M, OP, W, R, V, A, B (R100)
  decode 0b000_01100_1010_0_0_011_0010_0001_0000111#32 = .ok (.atomCas 0 0 3 2 1 7) ∧
  -- S, M, D, K (R82)
  decode 0b111_10100_0000111_11111111111111110#32 = .ok (.gldi 7 7 0x1FFFE) ∧
  -- S, M, C, F (R83)
  decode 0b000_11000_011_111111111111111111111#32 = .ok (.brq 0 3 0x1FFFFF) ∧
  -- S, M, OP and the fields of each form (R84)
  decode 0b000_11010_00010_010_1_000100_0000011_00#32 = .ok (.cpyx 0 2 1 4 3) ∧
  decode 0b000_11011_10011_01_0101_000111_0000000#32 = .ok (.barc 0 5 7) ∧
  decode 0b000_11100_01000_0001001_001010_000000#32 = .ok (.rdsp 0 9 10) ∧
  decode 0b000_11100_01010_1111_100000000000001#32 = .ok (.spawn 0 15 0x4001) ∧
  -- what is excluded
  decode 0#32 = .error .allZero ∧
  decode 0b000_00111_000_0000000_0000000_0000000#32 = .error .reservedMajor ∧
  decode 0b000_00110_111_0000000_0000000_0000000#32 = .error .unallocatedMinor ∧
  decode 0b000_00001_010_0000001_0000010_0000001#32 = .error .reservedBits ∧
  decode 0b000_10000_001_1000000_0000000_0000000#32 = .error .groupField ∧
  decode 0b000_01001_000_0001000_0000000_0000000#32 = .error .predicateField ∧
  decode 0b000_11100_01110_0000000000000000000#32 = .error .unallocatedSub ∧
  decode 0b000_11100_01000_0000000_001110_000000#32 = .error .specialRegister ∧
  decode 0b000_11011_10000_00_0001_0000000000000#32 = .error .barrier ∧
  decode 0b000_01110_011_0000000_0110_000_0000000#32 = .error .drainTarget

/-- R78 to R105: for every instruction that a word can hold, its word decodes to it again, with every operand at every value that
its encoding admits; and every word that decodes is the word of a well-formed instruction, so no two words are one instruction and
no bit of a word is passed over. -/
def Obligations.RoundTrip : Prop :=
  (∀ i : Instr, i.coded = true → i.wf = true → decode (encode i) = .ok i) ∧
  (∀ (w : Word) (i : Instr), decode w = .ok i → i.coded = true ∧ i.wf = true ∧ encode i = w)

/-- R78, R79, R104 to R109, R141, R371, R443: a step of an issue slot issues the word that the slot's split has fetched: the
instruction it decodes to is executed, and the group settles after it. A fetch brings the four bytes at the split's program counter,
little-endian, from the code pages. A word that is no instruction, an operand block past the register file, a split at its bound, a
register read early and a fetch outside the code pages each trap instead; a forced compare that R375 asks for comes first. That a
split that waited keeps its number and its stall bound is log 17, the order of the slots log 4, what a full L1 does log 7. -/
def Obligations.StepRunsDecoded : Prop :=
  (∀ (s : State) (k g slot : Nat),
    let passed := s.skipSlots fun j => decide (s.time.turn ≤ j) && decide (j < k)
    let grown := passed.grow (k / 4) (k % 4) (g, slot)
    let turned : State := { grown with time := { grown.time with turn := k + 1 } }
    let u := turned.at_ g slot
    let x := u.spl
    let traps := fun (v : State) (cls : Nat) => Host.Outcome.next (v.fault (v.ownFault cls 0 0 0)).afterIssue
    s.events = [] → s.nextIssue (s.groups.length + 1) s.time.turn = some (k, g, slot) →
    (∀ w, x.word = some w →
      let begun := u.beginIssue (w.extractLsb' 29 3).toNat
      (∀ i, decodeBytes (wordBytes w) = .ok (i, []) → inRegs i u.grid.kernel.regs = true →
        let v := begun.noteSolid w
        let late := 4096 ≤ v.spl.dist ∧ v.handlerMode = false ∧ isSafe i = false
        (v.compareDue = true → ∃ t, v.compareForced = .next t ∧ t.spl = (v.waitFor .compare).spl ∧
          t.grp.repl.forced = true ∧ step s = .next t.afterIssue) ∧
        (v.compareDue = false → v.blockFits i = false → step s = traps v 0x01) ∧
        (v.compareDue = false → v.blockFits i = true →
          (late → step s = traps v 0x0A) ∧
          (¬late → v.early i = true → step s = traps v 0x03) ∧
          (¬late → v.early i = false →
            (∀ t, exec i v = .next t → step s = .next t.afterIssue) ∧ (∀ e, exec i v = .fault e → step s = .fault e)))) ∧
      ((∀ i, decodeBytes (wordBytes w) = .ok (i, []) → inRegs i u.grid.kernel.regs = false) → step s = traps begun 0x01)) ∧
    (x.word = none → (u.grid.codePage x.pc.toNat = false ∨ u.leafOf x.pc.toNat = none) →
      step s = .next ((u.beginIssue 0).fault ((u.beginIssue 0).ownFault 0x07 0 x.pc 0)).afterIssue)) ∧
  ∀ (s : State) (g slot : Nat) (leaf : Leaf) (w : Word),
    let t := s.at_ g slot
    let x := t.spl
    x.live = true → x.word = none → x.wait = none → t.grid.codePage x.pc.toNat = true →
    t.leafOf x.pc.toNat = some leaf → leaf.rd = true → t.poisoned (leaf.phys x.pc.toNat / 128) = false →
    wordBytes w = (List.range 4).map (fun j => t.coherentByte (leaf.phys x.pc.toNat + j)) →
    exec (.instructionFetch g slot) s = .next ((t.setSpl { x with word := some w }).at_ s.gid s.slot)

/-- R5, R9: an event that stands first is the next step; without one, and with no split ready, a step ends the cycle. That the machine
takes the events of the spec from a list is the model's choice (log 4). -/
def Obligations.StepRunsEvent : Prop :=
  ∀ (s : State),
    (∀ e rest, s.events = e :: rest → step s = exec e { s with events := rest }) ∧
    (s.events = [] → s.nextIssue (s.groups.length + 1) s.time.turn = none →
      step s = .next s.endCycle)

/-- R18, R42, R71, R384, R459, R467: the state after reset, and that of a group as it starts. The contents of memory with
nothing listed are the model's choice (log 2). The zeros of registers and open marks to which the spec gives no start value
are log 3. -/
def Obligations.ResetState : Prop :=
  let s := State.reset
  (s.memoryWf = true ∧ (∀ pa, s.byteAt pa = 0) ∧ s.host.svc = 0 ∧ s.host.modnum = 0 ∧ s.host.link = 0 ∧ s.host.leasecap = 0 ∧
    s.host.asidtab = 0 ∧ s.level = 0 ∧ (∀ d, s.inService d = false) ∧ s.groups = [] ∧ s.grids = [] ∧ s.cp.images = [] ∧
    s.cp.binTimer = 2048 ∧ s.cp.retryLimit = 2 ∧ s.nextIssue (s.groups.length + 1) s.time.turn = none ∧
    ∀ q, (s.queue q).base = 0 ∧ (s.queue q).ctl = 0 ∧ (s.queue q).tail = 0 ∧ (s.queue q).head = 0 ∧ (s.queue q).done = 0 ∧
      (s.queue q).devDone = 0x8000000000000000 ∧ (s.queue q).stat = 0) ∧
  ∀ (core : Nat) (entry : Addr) (threads : Mask) (bases : List DWord), bases.length ≤ 16 →
    let r := (newGroup core entry threads bases []).ctx.regs
    (∀ n l, l < 32 → r.getV n l = 0) ∧ (∀ n, n < 64 → r.getG n = bases.getD n 0) ∧
    (∀ n l, l < 32 → (r.getP n).has l = decide (n = 0)) ∧ (∀ n, n < 8 → r.getQ n = decide (n = 0)) ∧
    (∀ n row col, r.getAcc n row col = 0) ∧ (∀ l, r.getSc l = 0) ∧ r.gmode = 0 ∧ r.role = 0 ∧ r.clock = 0 ∧ r.tseq = 0

/-- The model's invariant (log 2): from every state whose memories are in canonical form a step leads to such a state. -/
def Obligations.StepKeepsMemory : Prop :=
  ∀ s t : State, s.memoryWf = true → step s = .next t → t.memoryWf = true

/-- R106, R108, R436 to R442: no instruction of a word stops the machine. Whatever its operands and the state, it has its effect, waits, or
takes the trap that the spec names. -/
def Obligations.CodedNeverStops : Prop :=
  ∀ (i : Instr) (s : State), i.coded = true → ∃ t, exec i s = .next t
/-- R193, whole: the nine instructions on lane slices, their encodings and their results. -/
def Obligations.VectorBits : Prop :=
  ∀ (s : State) (st : BitVec 3) (d a b : BitVec 7),
    let x := s.rdV a.toNat
    let y := s.rdV b.toNat
    (encode (.vand st d a b) = rWord st 0x03 0 d a b ∧ s.answersV (.vand st d a b) d.toNat (some 4) fun l => x l &&& y l) ∧
    (encode (.vor st d a b) = rWord st 0x03 1 d a b ∧ s.answersV (.vor st d a b) d.toNat (some 4) fun l => x l ||| y l) ∧
    (encode (.vxor st d a b) = rWord st 0x03 2 d a b ∧ s.answersV (.vxor st d a b) d.toNat (some 4) fun l => x l ^^^ y l) ∧
    (encode (.vnot st d a) = rWord st 0x03 3 d a 0 ∧ s.answersV (.vnot st d a) d.toNat (some 4) fun l => ~~~(x l)) ∧
    (encode (.vshl st d a b) = rWord st 0x03 4 d a b ∧
      s.answersV (.vshl st d a b) d.toNat (some 4) fun l => if (y l).toNat < 32 then x l <<< (y l).toNat else 0) ∧
    (encode (.vshr st d a b) = rWord st 0x03 5 d a b ∧
      s.answersV (.vshr st d a b) d.toNat (some 4) fun l => if (y l).toNat < 32 then x l >>> (y l).toNat else 0) ∧
    (encode (.vsar st d a b) = rWord st 0x03 6 d a b ∧
      s.answersV (.vsar st d a b) d.toNat (some 4) fun l =>
        if (y l).toNat < 32 then (x l).sshiftRight (y l).toNat else if (x l).getLsbD 31 then 0xFFFFFFFF else 0) ∧
    (encode (.vclz st d a) = rWord st 0x03 7 d a 0 ∧
      ∃ n : Nat → Nat, (∀ l, leadsWith (x l) (n l)) ∧ s.answersV (.vclz st d a) d.toNat (some 4) fun l => BitVec.ofNat 32 (n l)) ∧
    (encode (.vpop st d a) = rWord st 0x04 0 d a 0 ∧
      s.answersV (.vpop st d a) d.toNat (some 4) fun l => BitVec.ofNat 32 ((List.range 32).countP (x l).getLsbD)) ∧
    (b ≠ 0 → ∀ w ∈ [rWord st 0x03 3 d a b, rWord st 0x03 7 d a b, rWord st 0x04 0 d a b], ∃ r, decode w = .error r)

/-- R195 to R197 and R201: selects, moves, the mixer, packing; `vlane` reads one lane whether or not any is active. -/
def Obligations.VectorMoves : Prop :=
  ∀ (s : State) (st : BitVec 3) (d a b : BitVec 7) (p : BitVec 3) (g h : BitVec 6),
    let x := s.rdV a.toNat
    let y := s.rdV b.toNat
    let n := (s.rdG h.toNat).toNat
    (encode (.vsel st d p b) = rWord st 0x02 3 d (ofP p) b ∧
      s.answersV (.vsel st d p b) d.toNat (some 4) fun l => if (s.rdP p.toNat).has l then y l else s.rdV d.toNat l) ∧
    (encode (.vmov st d a) = rWord st 0x02 4 d a 0 ∧ s.answersV (.vmov st d a) d.toNat (some 4) x) ∧
    (encode (.vbc st d g) = rWord st 0x02 5 d (ofG g) 0 ∧
      s.answersV (.vbc st d g) d.toNat (some 4) fun _ => (s.rdG g.toNat).extractLsb' 0 32) ∧
    (encode (.vbcHi st d g) = rWord st 0x02 5 d (ofG g) 1 ∧
      s.answersV (.vbcHi st d g) d.toNat (some 4) fun _ => (s.rdG g.toNat).extractLsb' 32 32) ∧
    (2 ≤ b.toNat → ∃ r, decode (rWord st 0x02 5 d a b) = .error r) ∧
    (8 ≤ a.toNat → ∃ r, decode (rWord st 0x02 3 d a b) = .error r) ∧ (b ≠ 0 → ∃ r, decode (rWord st 0x02 4 d a b) = .error r) ∧
    (64 ≤ a.toNat → ∃ r, decode (rWord st 0x02 5 d a b) = .error r) ∧
    (64 ≤ d.toNat ∨ 64 ≤ b.toNat → ∃ r, decode (rWord st 0x02 6 d a b) = .error r) ∧
    (encode (.vlane st g a h) = rWord st 0x02 6 (ofG g) a (ofG h) ∧
      (n < 32 → s.answersG (.vlane st g a h) g.toNat (some 4) (if s.active.has n then (x n).setWidth 64 else 0)) ∧
      (32 ≤ n → s.refusesOperand (.vlane st g a h))) ∧
    (encode (.vmix st d a b) = rWord st 0x02 2 d a b ∧
      s.answersV (.vmix st d a b) d.toNat (some 4) fun l =>
        let t := x l + y l * 0x9E3779B9
        let t := (t ^^^ (t >>> 16)) * 0x7FEB352D
        let t := (t ^^^ (t >>> 15)) * 0x846CA68B
        t ^^^ (t >>> 16)) ∧
    (encode (.vpack st d a b) = rWord st 0x06 3 d a b ∧
      s.answersV (.vpack st d a b) d.toNat (some 4) fun l => ((y l).setWidth 16).setWidth 32 <<< 16 ||| ((x l).setWidth 16).setWidth 32) ∧
    (encode (.vunpk st d a) = rWord st 0x06 4 d a 0 ∧
      (∀ n, inRegs (.vunpk st d a) n = true ↔ d.toNat < n ∧ d.toNat + 1 < n ∧ a.toNat < n) ∧
      s.answersPair (.vunpk st d a) d.toNat (some 4) (fun l => ((x l).setWidth 16).setWidth 32) fun l => x l >>> 16)

/-- R186 to R189: what each elementwise instruction computes under each type that it accepts, one rounding per element, and the
high half of `vmulh`, by the type's signedness and never clamped; without an active lane it has no effect (R96). The signs of zeros follow log 15. -/
def Obligations.VectorArithmetic : Prop :=
  ∀ (s : State) (st : BitVec 3) (d a b : BitVec 7) (ty : Ty),
    let answers := fun (i : Instr) (y : BitVec 7) (codes : List Nat) (rounds : Bool) (fl : Bool → Fl → Fl → Fl → Fl)
        (int : Int → Int → Int → Int) =>
      (s.active = 0 → exec i s = .next s.retire) ∧
      (s.active ≠ 0 → modeType s.regs.gmode ∈ codes → tyOf (modeType s.regs.gmode) = some ty →
        s.answersElements i ty.width d.toNat (some 4) (rounds && ty.isFloat) ty.nonFinite
          (s.elementOf ty fl int d.toNat a.toNat y.toNat))
    let arith := [0, 1, 2, 3, 4, 5, 6, 8, 9, 10, 11]
    answers (.vadd st d a b) b arith true (fun rdn x y _ => Fl.add rdn x y) (fun x y _ => x + y) ∧
    answers (.vsub st d a b) b arith true (fun rdn x y _ => Fl.add rdn x y.neg) (fun x y _ => x - y) ∧
    answers (.vmul st d a b) b arith true (fun _ x y _ => Fl.mul x y) (fun x y _ => x * y) ∧
    answers (.vfma st d a b) b arith true (fun rdn x y z => Fl.add rdn (Fl.mul x y) z) (fun x y z => x * y + z) ∧
    answers (.vfms st d a b) b arith true (fun rdn x y z => Fl.add rdn (Fl.mul x y) z.neg) (fun x y z => x * y - z) ∧
    answers (.vfnma st d a b) b arith true (fun rdn x y z => Fl.add rdn z (Fl.mul x y).neg) (fun x y z => z - x * y) ∧
    answers (.vmin st d a b) b arith false (fun _ x y _ => Fl.min x y) (fun x y _ => min x y) ∧
    answers (.vmax st d a b) b arith false (fun _ x y _ => Fl.max x y) (fun x y _ => max x y) ∧
    answers (.vabs st d a) a arith false
      (fun _ x _ _ => match x with | .nan => .nan | .inf _ => .inf false | .fin _ m e => .fin false m e) (fun x _ _ => (x.natAbs : Int)) ∧
    answers (.vneg st d a) a arith false (fun _ x _ _ => x.neg) (fun x _ _ => -x) ∧
    (s.active = 0 → exec (.vmulh st d a b) s = .next s.retire) ∧
    ∀ t : IntTy, s.active ≠ 0 → tyOf (modeType s.regs.gmode) = some (.int t) →
      s.answersElements (.vmulh st d a b) t.width d.toNat (some 4) false (fun _ => false) fun l e =>
        (t.value (elem t.width (s.rdV a.toNat l) e) * t.value (elem t.width (s.rdV b.toNat l) e) / 2 ^ t.width % 2 ^ t.width).toNat

/-- R190, R191: division and the transcendental functions, each element the model's correctly rounded function of the inputs
as FTZ leaves them; the latency is 8 cycles. That the model's `vexp2` and `vlog2` are correctly rounded on every input is log
6. -/
def Obligations.VectorFunctions : Prop :=
  ∀ (s : State) (st : BitVec 3) (d a b : BitVec 7) (f : Fmt),
    let answers := fun (i : Instr) (y : BitVec 7) (g : Rounding → Fl → Fl → Nat) =>
      (s.active = 0 → exec i s = .next s.retire) ∧
      (s.active ≠ 0 → tyOf (modeType s.regs.gmode) = some (.float f) → 16 ≤ f.width →
        s.answersElements i f.width d.toNat (some 8) true f.nonFinite fun l e =>
          let m := s.regs.gmode
          g { rnd := modeRnd m, sat := modeSat m, ftz := modeFtz m,
              draw := (vmix (BitVec.ofNat 32 (l + 32 * e)) ((s.rdG 63).setWidth 32 ^^^ s.regs.getSc l)).toNat }
            (f.input (modeFtz m) (elem f.width (s.rdV a.toNat l) e)) (f.input (modeFtz m) (elem f.width (s.rdV y.toNat l) e)))
    answers (.vdiv st d a b) b f.div ∧
    answers (.vrcp st d a) a (fun r x _ => f.div r (.fin false 1 0) x) ∧
    answers (.vsqrt st d a) a (fun r x _ => f.sqrt r x) ∧
    answers (.vrsq st d a) a (fun r x _ => f.rsqrt r x) ∧
    answers (.vexp2 st d a) a (fun r x _ => f.exp2 r x) ∧
    answers (.vlog2 st d a) a (fun r x _ => f.log2 r x)

/-- R164 to R166, R169, R190: `roundTo`, of which the elementwise instructions make their results, gives of every finite value the
neighbour that the mode chooses, and of an infinity what the format has for it; division and the square roots round the exact
quotient and the exact root once. -/
def Obligations.RoundingNeighbour : Prop :=
  ∀ (f : Fmt) (r : Rounding) (s t : Bool) (m n : Nat) (e g : Int), f ∈ [Fmt.f32, Fmt.bf16, Fmt.f16, Fmt.e4m3, Fmt.e5m2] →
    f.roundTo r .nan = f.nanCode ∧
    f.roundTo r (.inf s) = (match f.infCode with
      | some i => f.signed s i
      | none => if r.sat then f.signed s f.maxCode else f.nanCode) ∧
    f.roundTo r (.fin s 0 e) = f.signed s 0 ∧
    (m ≠ 0 →
      f.roundsTo r s ((m : Real) * 2 ^ e) (f.roundTo r (.fin s m e)) ∧
      f.roundsTo r false (Real.sqrt ((m : Real) * 2 ^ e)) (f.sqrt r (.fin false m e)) ∧
      f.roundsTo r false (1 / Real.sqrt ((m : Real) * 2 ^ e)) (f.rsqrt r (.fin false m e)) ∧
      (n ≠ 0 → f.roundsTo r (s != t) ((m : Real) * 2 ^ e / ((n : Real) * 2 ^ g)) (f.div r (.fin s m e) (.fin t n g))))

/-- R191: the special inputs of the functions of R190, each with a finite set of cases, in any mode and format. -/
def Obligations.FunctionSpecials : Prop :=
  ∀ (f : Fmt) (r : Rounding) (neg : Bool) (m : Nat) (e : Int) (n : Bool),
    let zero := fun (neg : Bool) => f.roundTo r (.fin neg 0 0)
    let inf := fun (neg : Bool) => f.roundTo r (.inf neg)
    let one : Fl := .fin false 1 0
    (f.div r one .nan = f.nanCode ∧ f.sqrt r .nan = f.nanCode ∧ f.rsqrt r .nan = f.nanCode ∧ f.exp2 r .nan = f.nanCode ∧
      f.log2 r .nan = f.nanCode) ∧
    (f.div r one (.inf neg) = zero neg ∧ f.sqrt r (.inf true) = f.nanCode ∧ f.sqrt r (.inf false) = inf false ∧
      f.rsqrt r (.inf true) = f.nanCode ∧ f.rsqrt r (.inf false) = zero false ∧ f.exp2 r (.inf true) = zero false ∧
      f.exp2 r (.inf false) = inf false ∧ f.log2 r (.inf true) = f.nanCode ∧ f.log2 r (.inf false) = inf false) ∧
    (m ≠ 0 → f.sqrt r (.fin true m e) = f.nanCode ∧ f.rsqrt r (.fin true m e) = f.nanCode ∧ f.log2 r (.fin true m e) = f.nanCode) ∧
    (f.div r one (.fin neg 0 e) = inf neg ∧ f.sqrt r (.fin neg 0 e) = zero neg ∧ f.rsqrt r (.fin neg 0 e) = inf neg ∧
      f.log2 r (.fin neg 0 e) = inf true ∧ f.exp2 r (.fin neg 0 e) = f.roundTo r (.fin false (2 ^ 80) (-80))) ∧
    (f.div r .nan (.inf n) = f.nanCode ∧ f.div r (.fin neg 0 e) (.fin n 0 e) = f.nanCode ∧ f.div r (.inf neg) (.inf n) = f.nanCode) ∧
    (m ≠ 0 → f.div r (.fin neg m e) (.fin n 0 e) = inf (neg != n) ∧ f.div r (.fin neg 0 e) (.fin n m e) = zero (neg != n)) ∧
    f.div r (.inf neg) (.fin n m e) = inf (neg != n) ∧ f.div r (.fin neg m e) (.inf n) = zero (neg != n)

/-- R179, R192: the rounded sum and its exact error in a pair of registers; NFT looks at the sum alone. -/
def Obligations.VectorTwoSum : Prop :=
  ∀ (s : State) (st : BitVec 3) (d a b : BitVec 7),
    let f := Fmt.f32
    let ftz := modeFtz s.regs.gmode
    let sum := fun l => Fl.add false (f.input ftz (s.rdV a.toNat l).toNat) (f.input ftz (s.rdV b.toNat l).toNat)
    let hi := fun l => f.roundTo { ftz := ftz } (sum l)
    let err := fun l => if f.nonFinite (hi l) then 0 else f.roundTo {} (Fl.add false (sum l) (f.value (hi l)).neg)
    encode (.vtwosum st d a b) = rWord st 0x01 7 d a b ∧
    (s.active = 0 → exec (.vtwosum st d a b) s = .next s.retire) ∧
    (s.active ≠ 0 → modeType s.regs.gmode ≠ 0 → s.refusesOperand (.vtwosum st d a b)) ∧
    (s.active ≠ 0 → modeType s.regs.gmode = 0 →
      ∃ t, exec (.vtwosum st d a b) s = .next t ∧
        (∀ l, s.active.has l = true → t.regs.getV d.toNat l = BitVec.ofNat 32 (hi l) ∧
          t.regs.getV (d.toNat + 1) l = BitVec.ofNat 32 (if err l % 2 ^ 31 = 0 then 0 else err l)) ∧
        s.pends t (.v d.toNat) (some 4) ∧ s.pends t (.v (d.toNat + 1)) (some 4) ∧
        s.nonFiniteMark t (lanes.any fun l => s.active.has l && f.nonFinite (hi l % 2 ^ 32)) ∧
        s.completes t s.nextSplit { v := fun n l => (n == d.toNat || n == d.toNat + 1) && s.active.has l } true)

/-- R184: a TYPE that an instruction does not accept raises the illegal-operand trap where a lane is active, and for the
reductions in any case (R96). -/
def Obligations.TypeRefused : Prop :=
  ∀ (s : State) (st : BitVec 3) (d a b : BitVec 7) (g : BitVec 6) (p : BitVec 3),
    let refuses := fun (codes : List Nat) (l : List Instr) =>
      modeType s.regs.gmode ∉ codes → s.active ≠ 0 → ∀ i ∈ l, s.refusesOperand i
    let arith := [0, 1, 2, 3, 4, 5, 6, 8, 9, 10, 11]
    refuses arith [.vadd st d a b, .vsub st d a b, .vmul st d a b, .vfma st d a b, .vfms st d a b, .vfnma st d a b,
      .vmin st d a b, .vmax st d a b, .vabs st d a, .vneg st d a] ∧
    refuses [5, 6, 8, 9, 10, 11] [.vmulh st d a b] ∧
    refuses [0, 1, 2] [.vdiv st d a b, .vrcp st d a, .vsqrt st d a, .vrsq st d a, .vexp2 st d a, .vlog2 st d a] ∧
    refuses [0] [.vtwosum st d a b] ∧
    refuses arith [.vcmpEq st p a b, .vcmpNe st p a b, .vcmpLt st p a b, .vcmpLe st p a b, .vcmpGt st p a b,
      .vcmpGe st p a b, .vcmpUn st p a b] ∧
    refuses arith [.vcvtF32 st d a, .vcvtBf16 st d a, .vcvtF16 st d a, .vcvtE4m3 st d a, .vcvtE5m2 st d a, .vcvtI8 st d a,
      .vcvtN8 st d a, .vcvtI32 st d a, .vcvtN32 st d a, .vcvtI16 st d a, .vcvtN16 st d a] ∧
    (modeType s.regs.gmode ∉ arith → ∀ i ∈ [Instr.vredAdd st g a, .vredMin st g a, .vredMax st g a], s.refusesOperand i)

/-- R198 to R200: a conversion of the source elements 0 to n − 1, with the bits above them 0. -/
def Obligations.VectorConvert : Prop :=
  ∀ (s : State) (st : BitVec 3) (d a : BitVec 7) (src : Ty),
    let m := s.regs.gmode
    let converts := fun (i : Instr) (dst : Ty) =>
      let n := 32 / max src.width dst.width
      let r := fun (l e : Nat) =>
        ({ rnd := modeRnd m, sat := modeSat m, ftz := modeFtz m,
           draw := (vmix (BitVec.ofNat 32 (l + 32 * e)) ((s.rdG 63).setWidth 32 ^^^ s.regs.getSc l)).toNat } : Rounding)
      (s.active = 0 → exec i s = .next s.retire) ∧
      (s.active ≠ 0 → modeType m ∈ [0, 1, 2, 3, 4, 5, 6, 8, 9, 10, 11] → tyOf (modeType m) = some src →
        s.answersElements i dst.width d.toNat (some 4)
          (decide (src ≠ dst) && (src.isFloat || dst.isFloat)) dst.nonFinite fun l e =>
          let x := elem src.width (s.rdV a.toNat l) e
          if n ≤ e then 0
          else match src, dst with
          | .float g, .float f => f.roundTo (r l e) (g.input (modeFtz m) x)
          | .int t, .float f => f.roundTo (r l e) (Fl.ofUnits false (t.value x) 0)
          | .int u, .int t => t.result (modeSat m) (u.value x)
          | .float g, .int t =>
            (match roundInt (r l e) (g.input (modeFtz m) x) with
             | none => 0
             | some (.error neg) => ((if neg then t.low else t.high) % 2 ^ t.width).toNat
             | some (.ok k) => (max t.low (min t.high k) % 2 ^ t.width).toNat)
          | _, _ => 0)
    converts (.vcvtF32 st d a) (.float .f32) ∧ converts (.vcvtBf16 st d a) (.float .bf16) ∧
    converts (.vcvtF16 st d a) (.float .f16) ∧ converts (.vcvtE4m3 st d a) (.float .e4m3) ∧
    converts (.vcvtE5m2 st d a) (.float .e5m2) ∧ converts (.vcvtI8 st d a) (.int ⟨8, true⟩) ∧
    converts (.vcvtN8 st d a) (.int ⟨8, false⟩) ∧ converts (.vcvtI32 st d a) (.int ⟨32, true⟩) ∧
    converts (.vcvtN32 st d a) (.int ⟨32, false⟩) ∧ converts (.vcvtI16 st d a) (.int ⟨16, true⟩) ∧
    converts (.vcvtN16 st d a) (.int ⟨16, false⟩)

/-- R194: the compares: one bit of pD for each active lane, from element 0. -/
def Obligations.VectorCompare : Prop :=
  ∀ (s : State) (st d : BitVec 3) (a b : BitVec 7),
    let ftz := modeFtz s.regs.gmode
    let compares := fun (i : Instr) (n : BitVec 3) (ordered : Bool → Bool → Bool) (unordered un : Bool) =>
      encode i = rWord st 0x04 n (ofP d) a b ∧
      (s.active = 0 → exec i s = .next s.retire) ∧
      (s.active ≠ 0 → ∀ f, tyOf (modeType s.regs.gmode) = some (.float f) → s.answersP i d.toNat (some 4) fun l =>
        let x := f.input ftz (elem f.width (s.rdV a.toNat l) 0)
        let y := f.input ftz (elem f.width (s.rdV b.toNat l) 0)
        if x = .nan ∨ y = .nan then unordered else ordered (Fl.lt x y && !Fl.same x y) (Fl.same x y)) ∧
      (s.active ≠ 0 → ∀ t, tyOf (modeType s.regs.gmode) = some (.int t) → s.answersP i d.toNat (some 4) fun l =>
        let x := t.value (elem t.width (s.rdV a.toNat l) 0)
        let y := t.value (elem t.width (s.rdV b.toNat l) 0)
        !un && ordered (decide (x < y)) (decide (x = y)))
    compares (.vcmpEq st d a b) 1 (fun _ eq => eq) false false ∧
    compares (.vcmpNe st d a b) 2 (fun _ eq => !eq) true false ∧
    compares (.vcmpLt st d a b) 3 (fun lt _ => lt) false false ∧
    compares (.vcmpLe st d a b) 4 (fun lt eq => lt || eq) false false ∧
    compares (.vcmpGt st d a b) 5 (fun lt eq => !lt && !eq) false false ∧
    compares (.vcmpGe st d a b) 6 (fun lt _ => !lt) false false ∧
    compares (.vcmpUn st d a b) 7 (fun _ _ => false) true true ∧
    ∀ (n : BitVec 3) (u : BitVec 7), n ≠ 0 → 8 ≤ u.toNat → ∃ r, decode (rWord st 0x04 n u a b) = .error r

/-- R202 to R204: the cross-lane moves: a source lane that is not active reads 0; an index or a lane number out of range
traps with nothing written. -/
def Obligations.CrossLaneMoves : Prop :=
  ∀ (s : State) (st : BitVec 3) (d a b : BitVec 7) (g : BitVec 6),
    let read := fun l => if s.active.has l then s.rdV a.toNat l else 0
    let n := (s.rdG g.toNat).toNat
    let x := s.rdV b.toNat
    let illegal := ∃ l, l < 32 ∧ s.active.has l = true ∧ (x l).extractLsb' 6 26 ≠ 0
    (encode (.vperm st d a b) = rWord st 0x08 0 d a b ∧
      (¬illegal → s.answersV (.vperm st d a b) d.toNat (some 6) fun l =>
        if (x l).getLsbD 5 then 0 else read ((x l).extractLsb' 0 5).toNat) ∧
      (illegal → s.refusesOperand (.vperm st d a b))) ∧
    (encode (.vbfly st d a g) = rWord st 0x08 1 d a (ofG g) ∧ encode (.vrot st d a g) = rWord st 0x08 2 d a (ofG g) ∧
      encode (.vbcl st d a g) = rWord st 0x08 3 d a (ofG g)) ∧
    (n < 32 → s.answersV (.vbfly st d a g) d.toNat (some 6) (fun l => read (l ^^^ n)) ∧
      s.answersV (.vrot st d a g) d.toNat (some 6) (fun l => read ((l + n) % 32)) ∧
      s.answersV (.vbcl st d a g) d.toNat (some 6) fun _ => read n) ∧
    (32 ≤ n → s.active ≠ 0 → s.refusesOperand (.vbfly st d a g) ∧ s.refusesOperand (.vrot st d a g) ∧
      s.refusesOperand (.vbcl st d a g)) ∧
    (s.active = 0 → exec (.vbfly st d a g) s = .next s.retire ∧ exec (.vrot st d a g) s = .next s.retire ∧
      exec (.vbcl st d a g) s = .next s.retire)

/-- R180, R205: the reductions over all 32 lanes in the fixed tree, an inactive lane 0, each node rounded once with its own
draw; the counters advance where `vred.add` rounds, and NFT looks at the result. That no active lane gives 0 under RDN too is
log 15. -/
def Obligations.VectorReduce : Prop :=
  ∀ (s : State) (st : BitVec 3) (d : BitVec 6) (a : BitVec 7) (ty : Ty),
    let m := s.regs.gmode
    let reduces := fun (i : Instr) (rounds : Bool) (op : Rounding → Nat → Nat → Nat) =>
      modeType m ∈ [0, 1, 2, 3, 4, 5, 6, 8, 9, 10, 11] → tyOf (modeType m) = some ty →
      ∃ t, exec i s = .next t ∧
        (s.active = 0 → t.regs.getG d.toNat = 0) ∧
        (∀ x : Nat → Nat → Nat → Nat,
          (∀ e i, i < 32 → x e 0 i = if s.active.has i then elem ty.width (s.rdV a.toNat i) e else 0) →
          (∀ e lev i, lev < 5 → i < 2 ^ (4 - lev) → x e (lev + 1) i =
            op { rnd := modeRnd m, sat := modeSat m, ftz := modeFtz m,
                 draw := (vmix (BitVec.ofNat 32 (256 * e + 32 * (lev + 1) + i))
                   ((s.rdG 63).setWidth 32 ^^^ s.regs.getSc (lowestLane s.active))).toNat }
              (x e lev (2 * i)) (x e lev (2 * i + 1))) →
          s.active ≠ 0 → ∀ e, e < 32 / ty.width → elem ty.width ((t.regs.getG d.toNat).extractLsb' 0 32) e = x e 5 0 % 2 ^ ty.width) ∧
        (t.regs.getG d.toNat).extractLsb' 32 32 = 0 ∧
        s.pends t (.g d.toNat) (some 6) ∧ s.counters t (rounds && ty.isFloat) ∧
        s.nonFiniteMark t (ty.anyNonFinite ((t.regs.getG d.toNat).extractLsb' 0 32)) ∧
        s.completes t s.nextSplit { g := (· == d.toNat), scount := rounds && ty.isFloat && modeRnd m == 5 } true
    let node := fun (fl : Bool → Fl → Fl → Fl) (int : Int → Int → Int) (r : Rounding) (x y : Nat) => match ty with
      | .float f => f.roundTo r (fl (r.rnd == 2) (f.input r.ftz x) (f.input r.ftz y))
      | .int t => t.result r.sat (int (t.value x) (t.value y))
      | .vq2 => 0
    reduces (.vredAdd st d a) true (node Fl.add (· + ·)) ∧
    reduces (.vredMin st d a) false (node (fun _ => Fl.min) min) ∧
    reduces (.vredMax st d a) false (node (fun _ => Fl.max) max)

/-- R137: the lane predicates under the old guard; p0 and inactive lanes keep their values. -/
def Obligations.LanePredicates : Prop :=
  ∀ (s : State) (st d a b : BitVec 3),
    let x := s.rdP a.toNat
    let y := s.rdP b.toNat
    (encode (.pand st d a b) = rWord st 0x09 0 (ofP d) (ofP a) (ofP b) ∧
      s.answersP (.pand st d a b) d.toNat (some 4) fun l => x.has l && y.has l) ∧
    (encode (.por st d a b) = rWord st 0x09 1 (ofP d) (ofP a) (ofP b) ∧
      s.answersP (.por st d a b) d.toNat (some 4) fun l => x.has l || y.has l) ∧
    (encode (.pxor st d a b) = rWord st 0x09 2 (ofP d) (ofP a) (ofP b) ∧
      s.answersP (.pxor st d a b) d.toNat (some 4) fun l => x.has l != y.has l) ∧
    (encode (.pnot st d a) = rWord st 0x09 3 (ofP d) (ofP a) 0 ∧ s.answersP (.pnot st d a) d.toNat (some 4) fun l => !x.has l) ∧
    (∀ (n : BitVec 3) (u v w : BitVec 7), n.toNat < 4 → 8 ≤ u.toNat ∨ 8 ≤ v.toNat ∨ 8 ≤ w.toNat ∨ (n = 3 ∧ w ≠ 0) →
      ∃ r, decode (rWord st 0x09 n u v w) = .error r)

/-- R138: the group predicates; a write to q0 is discarded. -/
def Obligations.GroupPredicates : Prop :=
  ∀ (s : State) (st d a b : BitVec 3),
    let x := s.rdQ a.toNat
    let y := s.rdQ b.toNat
    (encode (.qand st d a b) = rWord st 0x13 0 (ofP d) (ofP a) (ofP b) ∧ s.answersQ (.qand st d a b) d.toNat (some 4) (x && y)) ∧
    (encode (.qor st d a b) = rWord st 0x13 1 (ofP d) (ofP a) (ofP b) ∧ s.answersQ (.qor st d a b) d.toNat (some 4) (x || y)) ∧
    (encode (.qxor st d a b) = rWord st 0x13 2 (ofP d) (ofP a) (ofP b) ∧ s.answersQ (.qxor st d a b) d.toNat (some 4) (x != y)) ∧
    (encode (.qnot st d a) = rWord st 0x13 3 (ofP d) (ofP a) 0 ∧ s.answersQ (.qnot st d a) d.toNat (some 4) !x)

/-- R139: between lanes and the group, the result for no active lane included. -/
def Obligations.LanesAndGroup : Prop :=
  ∀ (s : State) (st d p : BitVec 3) (g : BitVec 6),
    let has := fun l => s.active.has l && (s.rdP p.toNat).has l
    (encode (.qany st d p) = rWord st 0x09 4 (ofP d) (ofP p) 0 ∧ s.answersQ (.qany st d p) d.toNat (some 4) (lanes.any has)) ∧
    (encode (.qall st d p) = rWord st 0x09 5 (ofP d) (ofP p) 0 ∧
      s.answersQ (.qall st d p) d.toNat (some 4) (lanes.all fun l => !s.active.has l || (s.rdP p.toNat).has l)) ∧
    (encode (.pballot st g p) = rWord st 0x09 6 (ofG g) (ofP p) 0 ∧
      ∃ x : DWord, (∀ l, x.getLsbD l = (decide (l < 32) && has l)) ∧ s.answersG (.pballot st g p) g.toNat (some 4) x) ∧
    (encode (.pmask st d g) = rWord st 0x09 7 (ofP d) (ofG g) 0 ∧
      s.answersP (.pmask st d g) d.toNat (some 4) (s.rdG g.toNat).getLsbD) ∧
    (∀ (n : BitVec 3) (u v w : BitVec 7), 4 ≤ n.toNat →
      w ≠ 0 ∨ (if n = 6 then 64 else 8) ≤ u.toNat ∨ (if n = 7 then 64 else 8) ≤ v.toNat →
      ∃ r, decode (rWord st 0x09 n u v w) = .error r)

/-- R131, R132: the group-register instructions, their encodings and their results of 64 bits. -/
def Obligations.GroupArithmetic : Prop :=
  ∀ (s : State) (st : BitVec 3) (d a b : BitVec 6) (q : BitVec 3),
    let x := s.rdG a.toNat
    let y := s.rdG b.toNat
    let answers := fun (i : Instr) (m : BitVec 5) (n : BitVec 3) (b : BitVec 7) (r : DWord) =>
      encode i = rWord st m n (ofG d) (ofG a) b ∧ s.answersG i d.toNat (some 4) r
    answers (.gmov st d a) 0x10 0 0 x ∧
    answers (.gadd st d a b) 0x10 1 (ofG b) (x + y) ∧
    answers (.gsub st d a b) 0x10 2 (ofG b) (x - y) ∧
    answers (.gmul st d a b) 0x10 3 (ofG b) (x * y) ∧
    answers (.gmulh st d a b) 0x10 4 (ofG b) ((BitVec.ofInt 128 (x.toInt * y.toInt)).extractLsb' 64 64) ∧
    answers (.gand st d a b) 0x10 5 (ofG b) (x &&& y) ∧
    answers (.gor st d a b) 0x10 6 (ofG b) (x ||| y) ∧
    answers (.gxor st d a b) 0x10 7 (ofG b) (x ^^^ y) ∧
    answers (.gshl st d a b) 0x11 0 (ofG b) (if y.toNat < 64 then x <<< y.toNat else 0) ∧
    answers (.gshr st d a b) 0x11 1 (ofG b) (if y.toNat < 64 then x >>> y.toNat else 0) ∧
    answers (.gsar st d a b) 0x11 2 (ofG b)
      (if y.toNat < 64 then x.sshiftRight y.toNat else if x.getLsbD 63 then BitVec.allOnes 64 else 0) ∧
    answers (.gmin st d a b) 0x11 3 (ofG b) (if x.toInt ≤ y.toInt then x else y) ∧
    answers (.gmax st d a b) 0x11 4 (ofG b) (if y.toInt ≤ x.toInt then x else y) ∧
    answers (.gminn st d a b) 0x11 5 (ofG b) (if x.toNat ≤ y.toNat then x else y) ∧
    answers (.gmaxn st d a b) 0x11 6 (ofG b) (if y.toNat ≤ x.toNat then x else y) ∧
    (encode (.gsel st d q b) = rWord st 0x11 7 (ofG d) (ofP q) (ofG b) ∧
      s.answersG (.gsel st d q b) d.toNat (some 4) (if s.rdQ q.toNat then y else s.rdG d.toNat)) ∧
    (∃ n, leadsWith x n ∧ answers (.gclz st d a) 0x12 0 0 (BitVec.ofNat 64 n)) ∧
    answers (.gpop st d a) 0x12 1 0 (BitVec.ofNat 64 ((List.range 64).countP x.getLsbD)) ∧
    ∀ (n : BitVec 3) (u v w : BitVec 7),
      (64 ≤ u.toNat ∨ 64 ≤ v.toNat ∨ (if n = 0 then w ≠ 0 else 64 ≤ w.toNat) → ∃ r, decode (rWord st 0x10 n u v w) = .error r) ∧
      (64 ≤ u.toNat ∨ (if n = 7 then 8 else 64) ≤ v.toNat ∨ 64 ≤ w.toNat → ∃ r, decode (rWord st 0x11 n u v w) = .error r) ∧
      (n.toNat < 2 → 64 ≤ u.toNat ∨ 64 ≤ v.toNat ∨ w ≠ 0 → ∃ r, decode (rWord st 0x12 n u v w) = .error r)

/-- R133: the group compares. -/
def Obligations.GroupCompare : Prop :=
  ∀ (s : State) (st d : BitVec 3) (a b : BitVec 6),
    let x := s.rdG a.toNat
    let y := s.rdG b.toNat
    let answers := fun (i : Instr) (n : BitVec 3) (r : Bool) =>
      encode i = rWord st 0x12 n (ofP d) (ofG a) (ofG b) ∧ s.answersQ i d.toNat (some 4) r
    answers (.gcmpEq st d a b) 2 (decide (x = y)) ∧
    answers (.gcmpNe st d a b) 3 (decide (x ≠ y)) ∧
    answers (.gcmpLt st d a b) 4 (decide (x.toInt < y.toInt)) ∧
    answers (.gcmpLe st d a b) 5 (decide (x.toInt ≤ y.toInt)) ∧
    answers (.gcmpLtn st d a b) 6 (decide (x.toNat < y.toNat)) ∧
    answers (.gcmpLen st d a b) 7 (decide (x.toNat ≤ y.toNat)) ∧
    ∀ (n : BitVec 3) (u v w : BitVec 7), 2 ≤ n.toNat → 8 ≤ u.toNat ∨ 64 ≤ v.toNat ∨ 64 ≤ w.toNat →
      ∃ r, decode (rWord st 0x12 n u v w) = .error r

/-- R134: the immediates; K[16] of `gldh` is reserved. -/
def Obligations.GroupImmediates : Prop :=
  ∀ (s : State) (st : BitVec 3) (d : BitVec 6) (k : BitVec 17) (h : BitVec 16),
    (encode (.gldi st d k) = iWord st 0x14 (ofG d) k ∧ s.answersG (.gldi st d k) d.toNat (some 4) (k.signExtend 64)) ∧
    (encode (.gldh st d h) = iWord st 0x15 (ofG d) (h.setWidth 17) ∧
      s.answersG (.gldh st d h) d.toNat (some 4) (s.rdG d.toNat <<< 16 ||| h.setWidth 64)) ∧
    (k.getLsbD 16 = true → ∃ r, decode (iWord st 0x15 (ofG d) k) = .error r) ∧
    (encode (.gaddi st d k) = iWord st 0x16 (ofG d) k ∧
      s.answersG (.gaddi st d k) d.toNat (some 4) (s.rdG d.toNat + k.signExtend 64))

/-- R95, R135, R136: reading and writing GMODE; a value with a reserved bit, an RND of 6 or 7 or a TYPE from 0xC on is
refused and changes nothing. -/
def Obligations.ModeRegister : Prop :=
  ∀ (s : State) (st : BitVec 3) (d : BitVec 6) (z : BitVec 1) (k : BitVec 15),
    let legal := fun (m : Word) => m.extractLsb' 24 8 = 0 ∧ m.getLsbD 15 = false ∧ (m.extractLsb' 4 3).toNat < 6 ∧
      (m.extractLsb' 0 4).toNat < 0xC
    let x := s.rdG d.toNat
    let old := s.regs.gmode
    let new : Word := (if z = 1 then (0 : Word) else (old.extractLsb' 16 8).setWidth 32 <<< 16) ||| k.setWidth 32
    (encode (.smode st d) = rWord st 0x13 4 0 (ofG d) 0 ∧ encode (.gmode st d) = rWord st 0x13 5 (ofG d) 0 0 ∧
      encode (.smodi st d z k) = iWord st 0x17 (ofG d) (z ++ (0 : BitVec 1) ++ k)) ∧
    (x.extractLsb' 32 32 = 0 → legal (x.extractLsb' 0 32) →
      ∃ t, exec (.smode st d) s = .next t ∧ t.regs.gmode = x.extractLsb' 0 32 ∧ s.completes t s.nextSplit { mode := true } false) ∧
    (¬(x.extractLsb' 32 32 = 0 ∧ legal (x.extractLsb' 0 32)) → s.refusesOperand (.smode st d)) ∧
    s.answersG (.gmode st d) d.toNat (some 4) (old.setWidth 64) ∧
    (legal new → ∃ t, exec (.smodi st d z k) s = .next t ∧ t.regs.gmode = new ∧ t.regs.getG d.toNat = old.setWidth 64 ∧
      s.pends t (.g d.toNat) (some 4) ∧ s.completes t s.nextSplit { g := (· == d.toNat), mode := true } false) ∧
    (¬legal new → s.refusesOperand (.smodi st d z k)) ∧
    ∀ (u v w : BitVec 7) (x : BitVec 17),
      (u ≠ 0 ∨ 64 ≤ v.toNat ∨ w ≠ 0 → ∃ r, decode (rWord st 0x13 4 u v w) = .error r) ∧
      (64 ≤ u.toNat ∨ v ≠ 0 ∨ w ≠ 0 → ∃ r, decode (rWord st 0x13 5 u v w) = .error r) ∧
      (64 ≤ u.toNat ∨ x.getLsbD 15 = true → ∃ r, decode (iWord st 0x17 u x) = .error r)

/-- R140: the branches move the whole split; only the program counter, the clock and the safe-point distance change. -/
def Obligations.UniformBranches : Prop :=
  ∀ (s : State) (st c : BitVec 3) (f : BitVec 21),
    let target : Addr := s.spl.pc + f.signExtend 56 * 4
    (encode (.br st f) = bWord st 0x18 0 f ∧
      ∃ t, exec (.br st f) s = .next t ∧ s.completes t (s.spl.retired target (!s.handlerMode)) {} false) ∧
    (c ≠ 0 → encode (.brq st c f) = bWord st 0x18 c f) ∧
    ∃ t, exec (.brq st c f) s = .next t ∧
      s.completes t (s.spl.retired (if s.rdQ c.toNat then target else s.spl.pc + 4) (!s.handlerMode)) {} false

/-- R142 of `rcv`, R146 of `nop`, R155 of `role`: the reconvergence point, nothing, and the role. -/
def Obligations.SmallControl : Prop :=
  ∀ (s : State) (st : BitVec 3) (f : BitVec 20) (n : BitVec 2),
    (encode (.rcv st f) = bWord st 0x19 0 ((1 : BitVec 1) ++ f) ∧
      ∃ t, exec (.rcv st f) s = .next t ∧
        s.completes t { s.nextSplit with rpc := some (s.spl.pc + f.signExtend 56 * 4) } {} false) ∧
    (encode (.nop st) = xWord st 0x1C 0x00 0 ∧ ∃ t, exec (.nop st) s = .next t ∧ s.completes t s.nextSplit {} false) ∧
    (encode (.role st n) = xWord st 0x1C 0x0D (n ++ (0 : BitVec 17)) ∧
      ∃ t, exec (.role st n) s = .next t ∧ t.regs.role = n ∧ s.completes t s.nextSplit { role := true } false)

/-- R121, R122, R146 of `pdem`: demotion: the hold set takes the live siblings that are ready, or only await their stall bound
or their scoreboard, and are neither demoted nor released without an issue since; where it is empty the split is released at
once, and the machine counts the release, by which R110 orders the released. -/
def Obligations.SplitDemotion : Prop :=
  ∀ (s : State) (st : BitVec 3),
    let u := s.retire
    let holds := fun (k : Nat) => decide (k ≠ s.slot) && (s.splitAt k).live && !(s.splitAt k).demo.held &&
      (s.splitAt k).demo.released.isNone && decide (u.standing k ≠ .no)
    encode (.pdem st) = xWord st 0x1C 0x04 0 ∧
    ∃ (t : State) (x : Demotion), exec (.pdem st) s = .next t ∧
      s.completes { t with time := s.time } { s.nextSplit with demo := x } {} false ∧
      t.time = { s.time with releases := s.time.releases + if x.held then 0 else 1 } ∧
      (∀ k, k < 4 → x.set.getLsbD k = holds k) ∧ (x.held = true ↔ ∃ k, k < 4 ∧ holds k = true) ∧ x.released.isSome = !x.held

/-- R143, R144: a call pushes its return address with the call mark, a return takes it, a jump goes to a group register; each
makes RPC invalid, and each has its illegal-operand cases. -/
def Obligations.CallsAndJumps : Prop :=
  ∀ (s : State) (st : BitVec 3) (f : BitVec 20) (g : BitVec 6),
    let x := s.spl
    let target : Addr := x.pc + f.signExtend 56 * 4
    let a := s.rdG g.toNat
    (encode (.call st f) = bWord st 0x19 0 ((0 : BitVec 1) ++ f) ∧
      (x.stack.length < 32 → ∃ t, exec (.call st f) s = .next t ∧
        s.completes t { x.retired target (!s.handlerMode) with
          stack := { pc := x.pc + 4, mask := x.mask, stop := 1 } :: x.stack, rpc := none } {} false) ∧
      (32 ≤ x.stack.length → s.refusesOperand (.call st f))) ∧
    (encode (.ret st) = xWord st 0x1C 0x02 0 ∧
      (∀ e rest, x.stack = e :: rest → e.stop = 1 → ∃ t, exec (.ret st) s = .next t ∧
        s.completes t { x.retired e.pc (!s.handlerMode) with mask := e.mask, stack := rest, rpc := none } {} false) ∧
      ((∀ e rest, x.stack = e :: rest → e.stop ≠ 1) → s.refusesOperand (.ret st))) ∧
    (encode (.jmpg st g) = xWord st 0x1C 0x03 (g ++ (0 : BitVec 13)) ∧
      (a.extractLsb' 0 2 = 0 → a.extractLsb' 56 8 = 0 → ∃ t, exec (.jmpg st g) s = .next t ∧
        s.completes t { x.retired (a.setWidth 56) (!s.handlerMode) with rpc := none } {} false) ∧
      (a.extractLsb' 0 2 ≠ 0 ∨ a.extractLsb' 56 8 ≠ 0 → s.refusesOperand (.jmpg st g)))

/-- R115 to R117: the divergent branch: it falls through, jumps, traps, divides the split, or serialises. The count that both
splits of a division start with is log 18. -/
def Obligations.DivergentBranch : Prop :=
  ∀ (s : State) (st c : BitVec 3) (f : BitVec 21),
    let x := s.spl
    let taken := x.mask &&& s.rdP c.toNat
    let fall := x.mask &&& ~~~(s.rdP c.toNat)
    let target : Addr := x.pc + f.signExtend 56 * 4
    let i : Instr := .brd st c f
    let divides := fun (k : Nat) => s.replicated = false ∧ s.deterministic = false ∧ s.handlerMode = false ∧ x.stack = [] ∧
      x.chain.length < 4 ∧ k < 4 ∧ (s.splitAt k).live = false ∧ ∀ j, j < k → (s.splitAt j).live = true
    (taken = 0 → ∃ t, exec i s = .next t ∧ s.completes t { s.nextSplit with rpc := none } {} false) ∧
    (taken ≠ 0 → fall = 0 → ∃ t, exec i s = .next t ∧
      s.completes t { x.retired target (!s.handlerMode) with rpc := none } {} false) ∧
    (taken ≠ 0 → fall ≠ 0 → x.rpc = none → s.refusesOperand i) ∧
    (∀ rpc k, taken ≠ 0 → fall ≠ 0 → x.rpc = some rpc → divides k → k ≠ s.slot → ∃ t, exec i s = .next t ∧
      t = s.setGrp t.grp ∧ s.sameBytes t ∧ Regs.keeps {} s.regs t.regs ∧
      t.spl = { s.nextSplit with mask := fall, chain := x.chain ++ [rpc], rpc := none, sched := { bound := x.sched.bound } } ∧
      t.splitAt k = { live := true, pc := target, mask := taken, chain := x.chain ++ [rpc], dist := s.nextSplit.dist, rel := x.rel,
                      sched := { bound := x.sched.bound } } ∧
      ∀ j, j ≠ s.slot → j ≠ k → t.splitAt j = s.splitAt j) ∧
    (∀ rpc, taken ≠ 0 → fall ≠ 0 → x.rpc = some rpc → (∀ k, ¬divides k) → x.stack.length + 2 ≤ 32 → ∃ t, exec i s = .next t ∧
      s.completes t { x.retired target (!s.handlerMode) with
        mask := taken, rpc := none,
        stack := { pc := x.pc + 4, mask := fall, stop := rpc } :: { pc := rpc, mask := x.mask, stop := rpc } :: x.stack } {} false) ∧
    (∀ rpc, taken ≠ 0 → fall ≠ 0 → x.rpc = some rpc → (∀ k, ¬divides k) → 32 < x.stack.length + 2 → s.refusesOperand i)

/-- R145, R441: the lanes of the split end: it goes on at the innermost stack entry that keeps a lane, or it ends, and the group
lives on as long as another split does; in a handler that ends handler mode, and the pending fault of lowest TSEQ is delivered
(R440). With its last group the team ends, but a bin that holds its threads starts their group at once, in a free index (R72). A
replica first waits for its engine commands and then compares (R380, R381). The start of several bins is in the order of log 52. -/
def Obligations.EndOfLanes : Prop :=
  ∀ (s : State) (st : BitVec 3),
    let x := s.spl
    let i : Instr := .exit st
    let left := (x.stack.map fun e => { e with mask := e.mask &&& ~~~x.mask }).filter fun e => e.mask != 0
    let alone := ∀ k, k < 4 → k ≠ s.slot → (s.splitAt k).live = false
    let others := fun (t : State) => t.grp.live = s.grp.live ∧ ∀ k, k < 4 → k ≠ s.slot →
      (t.splitAt k).live = (s.splitAt k).live ∧ (t.splitAt k).pc = (s.splitAt k).pc ∧ (t.splitAt k).mask = (s.splitAt k).mask
    s.slot < 4 →
    (s.replicated = false → s.grp.handler = none →
      (∀ e rest, left = e :: rest → ∃ t, exec i s = .next t ∧
        s.completes t { s.nextSplit with pc := e.pc, mask := e.mask, stack := rest } {} false) ∧
      (left = [] → (¬alone ∨ s.holdsThreads s.coreId s.teamId = false) → ∃ t, exec i s = .next t ∧ t.mem = s.mem ∧
        t.host = s.host ∧ (t.splitAt s.slot).live = false ∧ (¬alone → others t) ∧ (alone → t.grp.live = false)) ∧
      (∀ k, left = [] → alone → s.groupsOf s.teamId = [s.gid] → s.grp.live = true → s.cluster.act = .active →
        s.activeGroups s.coreId ≤ 32 → k < 8 → (s.bin s.coreId k).threads ≠ [] → (s.bin s.coreId k).threads.length ≤ 32 →
        (s.bin s.coreId k).team = s.teamId → s.core.matrix = [] →
        (∀ j, j < 8 → j ≠ k → (s.bin s.coreId j).team = s.teamId → (s.bin s.coreId j).threads = []) →
        ∃ (t : State) (g : Group), exec i s = .next t ∧ AMap.get {} t.groups (32 * s.teamId) = g ∧ g.live = true ∧
          (t.bin s.coreId k).threads = [] ∧ g.place.core = s.coreId ∧ g.place.entry = (s.bin s.coreId k).entry ∧
          (∀ l, l < 32 → g.place.threads.has l = decide (l < (s.bin s.coreId k).threads.length)) ∧
          (∀ l j, l < (s.bin s.coreId k).threads.length → j < 4 →
            g.ctx.regs.getV j l = ((s.bin s.coreId k).threads.getD l 0).extractLsb' (32 * j) 32))) ∧
    (∀ d, s.replicated = false → s.grp.live = true → s.grp.handler = some (s.slot, d) →
      (s.grp.pending = [] →
        (∀ e rest, left = e :: rest → ∃ t, exec i s = .next t ∧ t.grp.handler = none ∧ t = s.setGrp t.grp ∧
          t.spl = { x.retired e.pc false with mask := e.mask, stack := rest } ∧ ∀ k, k ≠ s.slot → t.splitAt k = s.splitAt k) ∧
        (left = [] → ¬alone → ∃ t, exec i s = .next t ∧ t.grp.handler = none ∧ (t.splitAt s.slot).live = false ∧ others t)) ∧
      (∀ f h e rest, left = e :: rest → s.waitsFirst f → f.slot ≠ s.slot → s.handlerFor f.cls = some h →
        ∃ t, exec i s = .next t ∧ s.delivers t f h ∧ t.spl = { x.retired e.pc false with mask := e.mask, stack := rest })) ∧
    (s.replicated = true →
      (∀ c n, s.openCommand = some (c, n) → exec i s = .next (s.waitFor (.timeline c (BitVec.ofNat 64 n)))) ∧
      (s.openCommand = none → s.core.matrix = [] →
        (s.spl.token = false → s.grp.repl.skip = false → ∃ t, exec i s = .next t ∧ t = s.setGrp t.grp ∧
          t.spl = (s.waitFor .compare).spl ∧ t.grp.repl.sent.isSome = true) ∧
        (∀ e rest, s.spl.token = true → s.grp.handler = none → left = e :: rest → ∃ t, exec i s = .next t ∧ t = s.setGrp t.grp ∧
          t.spl = { s.nextSplit with pc := e.pc, mask := e.mask, stack := rest })))

/-- R147, R443: a safe point: an entry that the live-mask table lacks traps; else the distance is 0, and where a stop is asked
for the split stops behind it with its live mask; a replica counts its safe points (R148). That the count after a `safe` is 0
is log 18. -/
def Obligations.SafePoint : Prop :=
  ∀ (s : State) (st : BitVec 3) (i : BitVec 12),
    let stops := !s.handlerMode && (s.cluster.stop.isSome || s.grid.ending.snuffed)
    encode (.safe st i) = xWord st 0x1C 0x05 (i ++ (0 : BitVec 7)) ∧
    (s.grid.kernel.masks.length ≤ i.toNat → s.refusesOperand (.safe st i)) ∧
    (i.toNat < s.grid.kernel.masks.length → s.replicated = false → ∃ t, exec (.safe st i) s = .next t ∧
      s.completes t { s.nextSplit with
        dist := 0, sched := { s.spl.sched with stopped := (if stops then some i.toNat else none) } } {} false) ∧
    (i.toNat < s.grid.kernel.masks.length → s.replicated = true → stops = false → ∃ t, exec (.safe st i) s = .next t ∧
      t.grp.repl = { s.grp.repl with safes := s.grp.repl.safes + 1 } ∧ t.grp.nft = s.grp.nft ∧
      s.completes t { s.nextSplit with dist := 0, sched := { s.spl.sched with stopped := none } } {} true)

/-- R156, R438, R441: the software trap, with the trap registers it leaves; without a handler the grid fails with detail 0x0E
(R27), and in a handler it is a double trap (R442). That a first cause of the grid's end stands is log 28, and that results of no
fixed latency stay in flight log 53. -/
def Obligations.SoftwareTrap : Prop :=
  ∀ (s : State) (st : BitVec 3) (n : BitVec 8),
    let x := s.spl
    encode (.trap st n) = xWord st 0x1C 0x06 (n ++ (0 : BitVec 11)) ∧
    (∀ h, s.grp.handler = none → s.handlerFor 0x0E = some h → ∃ t, exec (.trap st n) s = .next t ∧
      t.grp.trap = { tcause := (n ++ (0x0E : BitVec 8)), trappc := x.pc, tmask := x.mask, tadda := 0, taddb := 0, tseq := s.tseq } ∧
      t.grp.handler = some (s.slot, x.stack.length) ∧ t.handlerMode = true ∧
      t.spl.pc = h ∧ t.spl.mask = x.mask ∧ t.spl.stack = x.stack ∧ t.spl.dist = x.dist ∧
      (∀ k, k ≠ s.slot → t.splitAt k = s.splitAt k) ∧ t.regs = s.regs ∧
      s.grp.settles s.slot x.mask t.grp ∧ t.grp.pending = s.grp.pending ∧
      s.sameBytes t ∧ t = s.setGrp t.grp) ∧
    (s.grp.handler = none → s.handlerFor 0x0E = none → s.grid.ending.failed = false → s.grid.ending.snuffed = false →
      ∃ t, exec (.trap st n) s = .next t ∧ t.grid.ending.failed = true ∧ t.grid.ending.status = 2 ∧ t.grid.ending.detail = 0x0E ∧
        t.groups = s.groups ∧ s.sameBytes t) ∧
    (∀ d, s.grp.handler = some (s.slot, d) → s.grid.ending.failed = false → s.grid.ending.snuffed = false →
      ∃ t, exec (.trap st n) s = .next t ∧ t.grid.ending.failed = true ∧ t.grid.ending.status = 2 ∧ t.grid.ending.detail = 0x0F ∧
        (∃ e ∈ t.lamp.log, e.kind = 0x000E ∧ e.value = x.pc.setWidth 64) ∧ t.groups = s.groups ∧ s.sameBytes t)

/-- R436, R438, R440: how any fault of a class with a handler is found: delivered with its registers; behind a running handler
pending; a lease violation ends the grid whatever handlers there are. That a first cause of the grid's end stands is log 28. -/
def Obligations.FaultDelivery : Prop :=
  ∀ (s : State) (f : PendingFault),
    (∀ h, f.cls ≠ 7 → s.grp.handler = none → s.handlerFor f.cls = some h →
      (s.fault f).grp.trap = { tcause := BitVec.ofNat 16 (f.cls + 256 * f.detail), trappc := f.pc, tmask := f.mask,
                               tadda := f.adda, taddb := f.addb, tseq := f.tseq } ∧
      ((s.fault f).splitAt f.slot).pc = h ∧ ((s.fault f).splitAt f.slot).mask = f.mask ∧
      (s.fault f).grp.handler = some (f.slot, (s.splitAt f.slot).stack.length) ∧
      ((s.fault f).splitAt f.slot).dist = (if f.cls = 0x0A then 0 else (s.splitAt f.slot).dist) ∧
      (s.fault f).regs = s.regs ∧ (∀ k, k ≠ f.slot → (s.fault f).splitAt k = s.splitAt k) ∧
      s.fault f = s.setGrp (s.fault f).grp ∧ s.sameBytes (s.fault f)) ∧
    (∀ k d, f.cls ≠ 7 → s.grp.handler = some (k, d) → k ≠ f.slot →
      (s.fault f).grp = { s.grp with pending := f :: s.grp.pending } ∧ s.fault f = s.setGrp (s.fault f).grp) ∧
    (f.cls = 7 → s.grid.ending.failed = false → s.grid.ending.snuffed = false →
      (s.fault f).grid.ending.failed = true ∧ (s.fault f).grid.ending.status = 2 ∧ (s.fault f).grid.ending.detail = 7 ∧
      (s.fault f).groups = s.groups ∧ s.sameBytes (s.fault f))

/-- R157, R441: the return from a handler at its entry's stack depth; elsewhere it traps. Of the faults that are pending the one of
lowest TSEQ is delivered next (R440). What of the handler's results stays in flight is log 53. -/
def Obligations.TrapReturn : Prop :=
  ∀ (s : State) (st : BitVec 3),
    let x := s.spl
    encode (.tret st) = xWord st 0x1C 0x07 0 ∧
    (s.grp.handler = some (s.slot, x.stack.length) → s.grp.pending = [] → ∃ t, exec (.tret st) s = .next t ∧
      t.grp.handler = none ∧
      t.spl = { x.retired s.grp.trap.trappc false with sched := { x.sched with bound := 0 }, solid := t.spl.solid } ∧
      (∀ k, k ≠ s.slot → t.splitAt k = s.splitAt k) ∧ Regs.keeps {} s.regs t.regs ∧
      s.grp.settles s.slot x.mask t.grp ∧ t.grp.trap = s.grp.trap ∧ t.grp.pending = [] ∧
      s.sameBytes t ∧ t = s.setGrp t.grp) ∧
    (∀ f, s.grp.handler = some (s.slot, x.stack.length) → s.waitsFirst f →
      (∀ h, s.handlerFor f.cls = some h → ∃ t, exec (.tret st) s = .next t ∧ s.delivers t f h ∧ t = s.setGrp t.grp ∧
        (f.slot ≠ s.slot → t.spl = { x.retired s.grp.trap.trappc false with
          sched := { x.sched with bound := 0 }, solid := t.spl.solid })) ∧
      (s.handlerFor f.cls = none → s.grid.ending.failed = false → s.grid.ending.snuffed = false →
        ∃ t, exec (.tret st) s = .next t ∧ t.grid.ending.failed = true ∧ t.grid.ending.status = 2 ∧
          t.grid.ending.detail = f.cls)) ∧
    (s.grp.handler = none → s.refusesOperand (.tret st)) ∧
    (∀ d, s.grp.handler = some (s.slot, d) → d ≠ x.stack.length → s.refusesOperand (.tret st))

/-- R21 to R23, R158, R159: the special registers: each value, the privilege of 0x10 to 0x15, and the write of TRAPPC. -/
def Obligations.SpecialRegisters : Prop :=
  ∀ (s : State) (st : BitVec 3) (d : BitVec 7) (r : BitVec 6),
    let l := s.grid.launch
    let reads := fun (n : BitVec 6) (v : Nat) => s.answersG (.rdsp st d n) d.toNat none (BitVec.ofNat 64 v)
    let lanesRead := fun (n : BitVec 6) (f : Nat → Nat) => ∃ t, exec (.rdsp st d n) s = .next t ∧
      (∀ k, s.spl.mask.has k = true → t.regs.getV d.toNat k = BitVec.ofNat 32 (f k)) ∧ s.pends t (.v d.toNat) none ∧
      s.completes t s.nextSplit { v := fun n k => n == d.toNat && s.spl.mask.has k } false
    let x := s.rdG d.toNat
    (encode (.rdsp st d r) = xWord st 0x1C 0x08 (d ++ r ++ (0 : BitVec 6)) ∧
      encode (.wrsp st d r) = xWord st 0x1C 0x09 (d ++ r ++ (0 : BitVec 6))) ∧
    (s.spl.mask ≠ 0 → lanesRead 0x00 id ∧ lanesRead 0x01 (· / 8)) ∧
    (reads 0x02 s.slot ∧ reads 0x03 (s.gid % 32) ∧ reads 0x04 (s.cluster.cluidx * (l.width * l.height) + s.gid / 32 % 12) ∧
      reads 0x08 (l.width + 16 * l.height) ∧ reads 0x09 s.cluster.cluidx ∧
      reads 0x0A (l.dims.1 + 2 ^ 16 * l.dims.2.1 + 2 ^ 32 * l.dims.2.2) ∧
      reads 0x0B (if l.det then s.grid.det.period.toNat else 0) ∧ reads 0x0C l.replicas) ∧
    (s.leaderOf = s.gid → l.det = false →
      reads 0x05 (s.coreId % 72) ∧ reads 0x06 (s.coreId / 72) ∧ reads 0x07 (s.gid / 32 % 12) ∧
      reads 0x0D ((List.range 8).map fun k => (s.bin s.coreId k).threads.length * 2 ^ (6 * k)).sum) ∧
    (s.handlerMode = true →
      reads 0x10 s.grp.trap.tcause.toNat ∧ reads 0x11 s.grp.trap.trappc.toNat ∧ reads 0x12 s.grp.trap.tmask.toNat ∧
      reads 0x13 s.grp.trap.tadda.toNat ∧ reads 0x14 s.grp.trap.taddb.toNat ∧ reads 0x15 s.grp.trap.tseq.toNat ∧
      (x.extractLsb' 0 2 = 0 → x.extractLsb' 56 8 = 0 → ∃ t, exec (.wrsp st d 0x11) s = .next t ∧
        t.grp = { s.retire.grp with trap := { s.grp.trap with trappc := x.setWidth 56 } } ∧ t = s.setGrp t.grp) ∧
      (x.extractLsb' 0 2 ≠ 0 ∨ x.extractLsb' 56 8 ≠ 0 → s.refusesOperand (.wrsp st d 0x11))) ∧
    (s.handlerMode = false → (0x10 ≤ r.toNat → s.refusesOperand (.rdsp st d r)) ∧ s.refusesOperand (.wrsp st d r)) ∧
    (r ≠ 0x11 → s.refusesOperand (.wrsp st d r))

/-- R106, R208, R209, R219: of the addresses of a load, a store, an atomic or a reduction first an unaligned one, then one outside a
scratch, then one without a lease stops it, or that of an atomic which no AtomicOp carries to its host page, the lowest such lane's;
nothing of the access is made. -/
def Obligations.AddressFaults : Prop :=
  ∀ (s : State) (st r : BitVec 3) (d b : BitVec 7) (a x y : BitVec 6) (v g : BitVec 4) (w : BitVec 1),
    let at_ := s.activeLanes.map fun l => s.laneAddr a.toNat b.toNat l
    let atm := s.activeLanes.map fun l => s.laneAddr g.toNat b.toNat l
    let one := [s.groupAddr x.toNat y.toNat]
    let wide := if w = 1 then 8 else 4
    let stops := fun (i : Instr) (l : List DWord) (c : Nat) (bad : DWord → Prop) => ∀ before e after, l = before ++ e :: after →
      (∀ f ∈ before, ¬bad f) → bad e → exec i s = .next (s.fault (s.ownFault c 0 (e.setWidth 56) 0))
    let unleased := fun (k : Need) (e : DWord) =>
      s.aperture e = .nothing ∨ ∃ va, s.aperture e = .translated va ∧ s.leased va k = none
    let ordered := fun (i : Instr) (l : List DWord) (n : Nat) (bad : DWord → Prop) =>
      let misaligned := fun (e : DWord) => e.toNat % n ≠ 0
      stops i l 0x05 misaligned ∧ ((∀ e ∈ l, ¬misaligned e) → stops i l 0x06 (fun e => s.aperture e = .outside) ∧
        ((∀ e ∈ l, s.aperture e ≠ .outside) → stops i l 0x07 bad))
    (∀ e ∈ [(Instr.ldB8 st d a b, 1, Need.read), (.ldB16 st d a b, 2, .read), (.ldB32 st d a b, 4, .read),
        (.ldB64 st d a b, 8, .read), (.ldB128 st d a b, 16, .read), (.ldPollB32 st d a b, 4, .read),
        (.ldPollB64 st d a b, 8, .read), (.stB8 st d a b, 1, .write), (.stB16 st d a b, 2, .write),
        (.stB32 st d a b, 4, .write), (.stB64 st d a b, 8, .write), (.stB128 st d a b, 16, .write),
        (.ldSys st d a b, 8, .read), (.stSys st d a b, 8, .write)],
      ordered e.1 at_ e.2.1 (unleased e.2.2)) ∧
    ordered (.gld st a x y) one 8 (unleased .read) ∧ ordered (.gst st a x y) one 8 (unleased .write) ∧
    ∀ e ∈ [(Instr.atomAdd st w r v g b, wide, true), (.atomSub st w r v g b, wide, true), (.atomMin st w r v g b, wide, false),
        (.atomMax st w r v g b, wide, false), (.atomMinn st w r v g b, wide, false), (.atomMaxn st w r v g b, wide, false),
        (.atomAnd st w r v g b, wide, false), (.atomOr st w r v g b, wide, false), (.atomXor st w r v g b, wide, false),
        (.atomExch st w r v g b, wide, true), (.atomCas st w r v g b, wide, true), (.atomfFaddF32 st r v g b, 4, false),
        (.atomfFaddBf16x2 st r v g b, 4, false), (.atomfFminF32 st r v g b, 4, false), (.atomfFmaxF32 st r v g b, 4, false),
        (.cas128 st r v g b, 16, true), (.redAdd st w r v g b, wide, true), (.redSub st w r v g b, wide, true),
        (.redMin st w r v g b, wide, false), (.redMax st w r v g b, wide, false), (.redMinn st w r v g b, wide, false),
        (.redMaxn st w r v g b, wide, false), (.redAnd st w r v g b, wide, false), (.redOr st w r v g b, wide, false),
        (.redXor st w r v g b, wide, false), (.redFaddF32 st r v g b, 4, false), (.redFaddBf16x2 st r v g b, 4, false),
        (.redFminF32 st r v g b, 4, false), (.redFmaxF32 st r v g b, 4, false)],
      ordered e.1 atm e.2.1 fun x => unleased .both x ∨
        (e.2.2 = false ∧ ∃ leaf va pa, s.target x .both = .ok (.memory leaf va pa) ∧ s.uncached pa = true ∧ leaf.sa = true)

/-- R265 to R269, R273: loads: every register of the block takes its word of what the place of its lane returns; nothing else
but what an access to memory leaves open changes. The moment at which a load takes its value is log 11, which lines leave a full
L1 log 7. -/
def Obligations.Loads : Prop :=
  ∀ (s : State) (st : BitVec 3) (d b : BitVec 7) (a h g : BitVec 6),
    let addr := fun l => s.laneAddr a.toNat b.toNat l
    let room := fun (n : Nat) (l : List DWord) => s.core.roomFor (s.lineKeep n (s.places .read l))
    (∀ e ∈ [(Instr.ldB8 st d a b, 1, 1), (.ldB16 st d a b, 2, 1), (.ldB32 st d a b, 4, 1), (.ldB64 st d a b, 8, 2),
        (.ldB128 st d a b, 16, 4)],
      let (i, n, k) := e
      (s.active = 0 → ∃ t, exec i s = .next t ∧ s.completes t s.nextSplit {} false) ∧
      (s.active ≠ 0 → s.accessClear n .read anyTarget false false (s.activeLanes.map addr) →
        room n (s.activeLanes.map addr) = true →
        ∃ (t : State) (v : DWord → Nat), exec i s = .next t ∧ s.loads n (s.activeLanes.map addr) v ∧
          (∀ l, s.active.has l = true → ∀ j, j < k → t.regs.getV (d.toNat + j) l = BitVec.ofNat 32 (v (addr l) >>> (32 * j))) ∧
          (∀ j, j < k → s.pends t (.v (d.toNat + j)) none) ∧
          s.completesMem t s.nextSplit (blockWrites d.toNat k s.active) (fun _ => false) fun _ => false)) ∧
    let x := s.groupAddr h.toNat g.toNat
    (s.accessClear 8 .read anyTarget false false [x] → room 8 [x] = true →
      ∃ (t : State) (v : DWord → Nat), exec (.gld st a h g) s = .next t ∧ s.loads 8 [x] v ∧
        t.regs.getG a.toNat = BitVec.ofNat 64 (v x) ∧ s.pends t (.g a.toNat) none ∧
        s.completesMem t s.nextSplit { g := (· == a.toNat) } (fun _ => false) fun _ => false)

/-- R272, R274, R275: loads at the coherence point: a poll fills nothing and demotes its split, `ld.sys` gives its copy up; of
scratch, and of untiled memory that nothing is about to write, they return the bytes at the home. The moment at which a load takes
its value is log 11. -/
def Obligations.HomeReads : Prop :=
  ∀ (s : State) (st : BitVec 3) (d b : BitVec 7) (a : BitVec 6),
    let addr := fun l => s.laneAddr a.toNat b.toNat l
    let place := fun l => s.placeOf .read (addr l)
    let none_ : Nat → Bool := fun _ => false
    ∀ e ∈ [(Instr.ldPollB32 st d a b, 4, 1, true), (.ldPollB64 st d a b, 8, 2, true), (.ldSys st d a b, 8, 2, false)],
      let (i, n, k, polls) := e
      let next := fun (x : Demotion) => if polls then { s.nextSplit with demo := x } else s.nextSplit
      let demoted := fun (t : State) (x : Demotion) => (x.held = true ∨ x.released.isSome = true) ∧
        t.time = { s.time with releases := t.time.releases, free := t.time.free } ∧ (polls = false → t.time.releases = s.time.releases)
      (s.active = 0 → ∃ (t : State) (x : Demotion), exec i s = .next t ∧ demoted t x ∧
        s.completes { t with time := s.time } (next x) {} false) ∧
      (s.active ≠ 0 → (polls = false → s.replicated = false) →
        s.accessClear n .read anyTarget (!polls) (!polls) (s.activeLanes.map addr) →
        ∃ (t : State) (x : Demotion), exec i s = .next t ∧ demoted t x ∧
          (∀ l, s.active.has l = true → ∀ v,
            ((place l).isScratch = true ∧ v = numberOf n (fun j => Store.get s.mem.scratch ((place l).cell + j))) ∨
              (s.settledAt n (place l) s.quiet ∧ v = numberOf n fun j => s.byteAt ((place l).phys + j)) →
            ∀ j, j < k → t.regs.getV (d.toNat + j) l = BitVec.ofNat 32 (v >>> (32 * j))) ∧
          (∀ j, j < k → s.pends t (.v (d.toNat + j)) none) ∧
          s.completesMem { t with time := { t.time with releases := s.time.releases } } (next x) (blockWrites d.toNat k s.active) none_ none_)

/-- R266, R270, R271, R273: stores: the highest lane's value stays; bytes of scratch change at once, those of memory become
dirty bytes of the core's L1, and in deterministic mode bytes in the team's buffer (R391). A line with dirty bytes keeps its
tile (log 21); a buffered access is log 20, which lines leave a full L1 log 7. -/
def Obligations.Stores : Prop :=
  ∀ (s : State) (st : BitVec 3) (d b : BitVec 7) (a h g : BitVec 6),
    let lane := fun l => s.laneAddr a.toNat b.toNat l
    ∀ e ∈ [(Instr.stB8 st d a b, 1, 1, false), (.stB16 st d a b, 2, 1, false), (.stB32 st d a b, 4, 1, false),
        (.stB64 st d a b, 8, 2, false), (.stB128 st d a b, 16, 4, false), (.gst st a h g, 8, 2, true)],
      let (i, n, k, uniform) := e
      let l : List (DWord × Nat) := if uniform then [(s.groupAddr h.toNat g.toNat, (s.rdG a.toNat).toNat)]
        else s.activeLanes.map fun x => (lane x, s.readBlock d.toNat k x % 2 ^ (8 * n))
      let p := l.map fun e => (s.placeOf .write e.1, e.2)
      let y := { s.nextSplit with rel := none }
      (s.active = 0 → uniform = false → ∃ t, exec i s = .next t ∧ s.completes t s.nextSplit {} false) ∧
      (l ≠ [] → s.spl.rel = none → s.accessClear n .write anyTarget false false (l.map Prod.fst) →
        s.core.roomFor (placeLines (s.places .write (l.map Prod.fst))) = true →
        (p.all (fun e => e.1.isScratch || s.served (e.1.phys / 128) != .buffered) = true →
          ∃ t, exec i s = .next t ∧
            s.completesMem t y {} (fun j => p.any fun e => e.1.reaches j) (fun key => p.any fun e => e.1.covers n key) ∧
            (Memory.wf s.mem.scratch = true → ∀ team off, t.scratchAt team off =
              p.foldl (fun f e => e.1.put n e.2 f) (Store.get s.mem.scratch) (scratchKey team off)) ∧
            (∀ line va, s.replicated = false →
              p.all (fun e => s.viaL1 e.1 && (e.1.phys / 128 == line) && match e.1 with
                | .memory _ x _ => x / 128 == va
                | .scratch _ _ => false) = true →
              (∀ c ∈ s.cores, AMap.has c.2.l1 line = true → (AMap.get {} c.2.l1 line).virt = (s.grid.asid, va)) →
              (AMap.has s.core.l1 line = true ∨ s.core.held < l1Lines) →
              t.mem = { s.mem with tlbs := t.mem.tlbs } ∧ (∀ c, c ≠ s.coreId → t.coreAt c = s.coreAt c) ∧
              (∀ j, j ≠ line → t.l1 s.coreId j = s.l1 s.coreId j) ∧
              ∀ j, j < 128 →
                let written := p.any fun e => decide (e.1.phys ≤ 128 * line + j) && decide (128 * line + j < e.1.phys + n)
                (t.l1 s.coreId line).dirty.getLsbD j = ((s.l1 s.coreId line).dirty.getLsbD j || written) ∧
                (t.l1 s.coreId line).valid.getLsbD j = ((s.l1 s.coreId line).valid.getLsbD j || written) ∧
                t.l1Byte s.coreId (128 * line + j) =
                  storesBytes n (p.map fun e => (e.1.phys, e.2)) (s.l1Byte s.coreId) (128 * line + j))) ∧
        (s.replicated = false → p.all (fun e => !e.1.isScratch && s.served (e.1.phys / 128) == .buffered) = true →
          ∃ t, exec i s = .next t ∧
            t.team.wbuf = (p.map fun e =>
              ({ line := e.1.phys / 128, mask := byteMask (e.1.phys % 128) n,
                 data := BitVec.ofNat 1024 (e.2 <<< (8 * (e.1.phys % 128))), agent := s.groupIdx,
                 num := s.regs.clock.toNat } : BufWrite)).reverse ++ s.team.wbuf ∧
            t.cores = s.cores ∧
            s.completesMem (t.setTeam { t.team with wbuf := s.team.wbuf }) y {} (fun _ => false) fun _ => false))

/-- R274, R347, R399: `st.sys`, and stores that take a pending release of cluster scope or wider, write at the home: bytes of
scratch, and bytes of memory at rest, are the new ones at once. The signature is not spoken of (log 16). -/
def Obligations.HomeStores : Prop :=
  ∀ (s : State) (st : BitVec 3) (d b : BitVec 7) (a : BitVec 6),
    let lane := fun l => s.laneAddr a.toNat b.toNat l
    ∀ e ∈ [(Instr.stSys st d a b, 8, 2, true), (.stB8 st d a b, 1, 1, false), (.stB16 st d a b, 2, 1, false),
        (.stB32 st d a b, 4, 1, false), (.stB64 st d a b, 8, 2, false), (.stB128 st d a b, 16, 4, false)],
      let (i, n, k, sys) := e
      let l : List (DWord × Nat) := s.activeLanes.map fun x => (lane x, s.readBlock d.toNat k x % 2 ^ (8 * n))
      let p := l.map fun e => (s.placeOf .write e.1, e.2)
      let places := s.places .write (l.map Prod.fst)
      s.replicated = false → s.deterministic = false → s.active ≠ 0 → (sys = true ∨ ∃ sc, s.spl.rel = some sc ∧ 2 ≤ sc) →
      s.accessClear n .write anyTarget (sys || s.spl.rel.isSome) sys (l.map Prod.fst) →
      (s.spl.rel.isSome = true → s.releaseClear true places) → (sys = false → s.core.roomFor [] = true) →
        ∃ t, exec i s = .next t ∧
          s.completesMem t { s.nextSplit with rel := none } {} (fun j => p.any fun e => e.1.reaches j)
            (fun key => p.any fun e => e.1.covers n key) ∧
          (Memory.wf s.mem.scratch = true → ∀ team off, t.scratchAt team off =
            p.foldl (fun f e => e.1.put n e.2 f) (Store.get s.mem.scratch) (scratchKey team off)) ∧
          (Memory.wf s.mem.bytes = true → (∀ e ∈ p, s.settledAt n e.1) → s.writesOnly s.spl.rel places →
            ∀ pa, s.atRest (pa / 128) = true →
              t.atRest (pa / 128) = true ∧ t.byteAt pa = storesBytes n (p.map fun e => (e.1.phys, e.2)) s.byteAt pa)

/-- R276 to R284: the atomics and reductions: each active lane's read-modify-write in ascending lane order at its home; the
old values return. On scratch, and on memory at rest, the values are exact; of host memory over CXL in the coherence order, since
the die takes the line (R471). That an acquire waits for another grid's serial phase is log 59, that the lanes are one step log 60. -/
def Obligations.Atomics : Prop :=
  ∀ (s : State) (st r : BitVec 3) (v g : BitVec 4) (b : BitVec 7) (w : BitVec 1),
    let wide := w == 1
    let bytes := if wide then 8 else 4
    let regs := if wide then 2 else 1
    let m := 2 ^ (8 * bytes)
    let signed := fun (x : Nat) => if 2 * x < m then (x : Int) else (x : Int) - m
    let f32 := fun (op : Fl → Fl → Fl) (old x : Nat) => Fmt.f32.roundTo {} (op (Fmt.f32.value old) (Fmt.f32.value x))
    let bf16 := fun (x y : Nat) => Fmt.bf16.roundTo {} (Fl.add false (Fmt.bf16.value x) (Fmt.bf16.value y))
    let add := fun old x => some ((old + x) % m)
    let sub := fun old x => some ((old + m - x) % m)
    let mins := fun old x => some (if signed x < signed old then x else old)
    let maxs := fun old x => some (if signed old < signed x then x else old)
    let minu := fun old x => some (if x < old then x else old)
    let maxu := fun old x => some (if old < x then x else old)
    let and_ := fun old x => some (old &&& x)
    let or_ := fun old x => some (old ||| x)
    let xor_ := fun old x => some (old ^^^ x)
    let exch := fun (_ x : Nat) => some x
    let fadd := fun old x => some (f32 (Fl.add false) old x)
    let fadd2 := fun old x => some (bf16 (old % 65536) (x % 65536) + 65536 * bf16 (old / 65536) (x / 65536))
    let fmin := fun old x => some (f32 Fl.min old x)
    let fmax := fun old x => some (f32 Fl.max old x)
    let cas := fun (q old x : Nat) => if old = x % q then some (x / q) else none
    ∀ e ∈ [(Instr.atomAdd st w r v g b, bytes, regs, regs, 0, add), (.atomSub st w r v g b, bytes, regs, regs, 1, sub),
        (.atomMin st w r v g b, bytes, regs, regs, 2, mins), (.atomMax st w r v g b, bytes, regs, regs, 3, maxs),
        (.atomMinn st w r v g b, bytes, regs, regs, 4, minu), (.atomMaxn st w r v g b, bytes, regs, regs, 5, maxu),
        (.atomAnd st w r v g b, bytes, regs, regs, 6, and_), (.atomOr st w r v g b, bytes, regs, regs, 7, or_),
        (.atomXor st w r v g b, bytes, regs, regs, 8, xor_), (.atomExch st w r v g b, bytes, regs, regs, 9, exch),
        (.atomCas st w r v g b, bytes, 2 * regs, regs, 10, cas m), (.atomfFaddF32 st r v g b, 4, 1, 1, 11, fadd),
        (.atomfFaddBf16x2 st r v g b, 4, 1, 1, 12, fadd2), (.atomfFminF32 st r v g b, 4, 1, 1, 13, fmin),
        (.atomfFmaxF32 st r v g b, 4, 1, 1, 14, fmax), (.cas128 st r v g b, 16, 8, 4, 15, cas (2 ^ 128)),
        (.redAdd st w r v g b, bytes, regs, 0, 0, add), (.redSub st w r v g b, bytes, regs, 0, 1, sub),
        (.redMin st w r v g b, bytes, regs, 0, 2, mins), (.redMax st w r v g b, bytes, regs, 0, 3, maxs),
        (.redMinn st w r v g b, bytes, regs, 0, 4, minu), (.redMaxn st w r v g b, bytes, regs, 0, 5, maxu),
        (.redAnd st w r v g b, bytes, regs, 0, 6, and_), (.redOr st w r v g b, bytes, regs, 0, 7, or_),
        (.redXor st w r v g b, bytes, regs, 0, 8, xor_), (.redFaddF32 st r v g b, 4, 1, 0, 11, fadd),
        (.redFaddBf16x2 st r v g b, 4, 1, 0, 12, fadd2), (.redFminF32 st r v g b, 4, 1, 0, 13, fmin),
        (.redFmaxF32 st r v g b, 4, 1, 0, 14, fmax)],
      let (i, n, block, back, op, new) := e
      let l : List (DWord × Nat) := s.activeLanes.map fun x => (s.laneAddr g.toNat b.toNat x, s.readBlock v.toNat block x)
      let p := l.map fun e => (s.placeOf .both e.1, e.2)
      let places := s.places .both (l.map Prod.fst)
      let scope := s.releaseScope (ordRelease r)
      (s.active = 0 → s.replicated = false → ∃ t, exec i s = .next t ∧ s.completes t s.nextSplit {} false) ∧
      (s.active ≠ 0 → s.replicated = false → s.deterministic = false → (∀ e ∈ s.grp.inflight, e.tseq ≠ s.tseq) →
        (∀ e ∈ p, s.byAtomicOp e.1 = false) → s.accessClear n .both (s.atomicAllowed op) true true (l.map Prod.fst) →
        s.releaseClear scope.isSome places → (∀ sc, ordAcquire r = some sc → ∀ e ∈ p, s.releasedBy n e.1 = none) →
        ∃ t, exec i s = .next t ∧
          s.completesMem t { s.nextSplit with rel := none } (blockWrites v.toNat back s.active)
            (fun j => p.any fun e => e.1.reaches j) (fun key => p.any fun e => e.1.covers n key) ∧
          (∀ j, j < back → s.pends t (.v (v.toNat + j)) none) ∧
          let returns := fun (olds : List Nat) => ∀ c x, s.activeLanes[c]? = some x → ∀ j, j < back →
            t.regs.getV (v.toNat + j) x = BitVec.ofNat 32 (olds.getD c 0 >>> (32 * j))
          (Memory.wf s.mem.scratch = true → p.all (fun e => e.1.isScratch) = true →
            let q := serially n new (p.map fun e => (e.1.cell, e.2)) (Store.get s.mem.scratch)
            returns q.1 ∧ ∀ team off, t.scratchAt team off = q.2 (scratchKey team off)) ∧
          (Memory.wf s.mem.bytes = true → (∀ e ∈ p, s.settledAt n e.1) → s.writesOnly scope places →
            let q := serially n new (p.map fun e => (e.1.phys, e.2)) s.byteAt
            returns q.1 ∧ ∀ pa, s.atRest (pa / 128) = true → t.coherentByte pa = q.2 pa ∧
              ((∀ e ∈ p, kindOf e.1.phys ≠ 1 ∨ s.plainPcie = true) → t.atRest (pa / 128) = true ∧ t.byteAt pa = q.2 pa)))

/-- R294 to R299: `shdr` copies the header of a tile into four group registers, or waits for its lock; `pst` writes 8 rows of
one block and the same elements as 8 columns of another, both tiles in one change. Of deterministic mode (log 20) it says
nothing. -/
def Obligations.HeadersAndPairs : Prop :=
  ∀ (s : State) (st : BitVec 3) (d : BitVec 7) (a b c : BitVec 6) (leaf : Leaf) (va pa pb : Nat) (ta tb : TileRef),
    let x := s.rdG a.toNat
    (s.target x .read = .ok (.memory leaf va pa) → leaf.tile va = some ta → inScratchAperture x = false →
      s.atomicsOpen s.gid false = false →
      (s.replicated = true → ∀ w ∈ s.grp.repl.writes, ∀ u ∈ w.tiles, ∀ v ∈ u.mates, v.header ≠ ta.header) →
      ((s.header ta.header).lock = true → exec (.shdr st c a) s = .next (s.waitFor (.lock ta.header))) ∧
      ((s.header ta.header).lock = false → s.poisoned (ta.header / 128) = false →
        ∃ t, exec (.shdr st c a) s = .next t ∧
          (∀ i, i < 4 → t.regs.getG (c.toNat + i) = BitVec.ofNat 64 (s.physRead (ta.header + 8 * i) 8) ∧
            s.pends t (.g (c.toNat + i)) none) ∧
          s.completesMem t s.nextSplit { g := fun n => decide (c.toNat ≤ n) && decide (n < c.toNat + 4) } (fun _ => false)
            fun _ => false) ∧
      ((s.header ta.header).lock = false → s.poisoned (ta.header / 128) = true →
        exec (.shdr st c a) s = .next (s.fault (s.ownFault 0x09 0 (x.setWidth 56) 0)))) ∧
    (s.active = 0 → ∃ t, exec (.pst st d a b) s = .next t ∧ s.completes t s.nextSplit {} false) ∧
    (s.pairs d a b pa pb ta tb → ∃ t, exec (.pst st d a b) s = .next t ∧
      s.completesMem t { s.nextSplit with rel := none } {} (fun j => ta.touches j || tb.touches j) (fun _ => false) ∧
      -- of untransformed tiles at rest every byte of the two blocks is that of its element, as the later write leaves it
      (Memory.wf s.mem.bytes = true → s.writesOnly s.spl.rel (s.pairPlaces a b) → (s.header ta.header).identity = true → (s.header tb.header).identity = true →
        ta.header % 32 = 0 → tb.header % 32 = 0 → pa % 128 % 8 = 0 → pb % 128 % 8 = 0 →
        (∀ j, ta.touches j = true ∨ tb.touches j = true → s.atRest j = true) →
        (∀ j, j < 32 → ∀ t ∈ [ta, tb], ∀ u ∈ [ta, tb], (t.header + j) / 128 < u.base / 128 ∨
          (u.base + 2 ^ (u.cls + 5) - 1) / 128 < (t.header + j) / 128) →
        let ctl := s.rdG (b.toNat + 1)
        let w := 2 ^ (ctl.extractLsb' 32 2).toNat
        let pp := (ctl.extractLsb' 0 16).toNat
        let tp := (ctl.extractLsb' 16 16).toNat
        let cells := (List.range 8).flatMap fun r => (List.range 8).map fun c => (r, c)
        let parts := cells.map (fun x => (pa + x.1 * pp + x.2 * w, s.pairElement d.toNat w x.1 x.2)) ++
          cells.map (fun x => (pb + x.2 * tp + x.1 * w, s.pairElement d.toNat w x.1 x.2))
        ∀ t ∈ [ta, tb], ∀ o, o < 2 ^ (t.cls + 5) → ∀ u, exec (.pst st d a b) s = .next u →
          u.byteAt (t.base + o) = storesBytes w parts s.byteAt (t.base + o)))
/-- R343 to R352, R398 to R405: fences, acquiring loads, releasing stores and the remote acquire: which lines are written
back, which clean bytes go, what is read and written, and the release that stays pending. A follower's `lda` is log 46, the
core that `acqr` names in deterministic mode log 31, what `fence.ar` waits for and other grids' serial phases log 59. -/
def Obligations.FencesAndScopes : Prop :=
  ∀ (s : State) (st e : BitVec 3) (k : BitVec 2) (d a b g h : BitVec 6),
    let core := s.coreId
    let none_ : Nat → Bool := fun _ => false
    let swept := fun (t : State) => ∀ x ∈ (t.coreAt core).l1, x.2.valid = x.2.dirty
    let x := s.groupAddr a.toNat b.toNat
    let v := s.rdG g.toNat
    let victim := 72 * (v.extractLsb' 7 2).toNat + (v.extractLsb' 0 7).toNat
    let legal := v.extractLsb' 9 55 = 0 ∧ (v.extractLsb' 0 7).toNat < 72 ∧ s.inService (v.extractLsb' 7 2).toNat = true
    (s.deterministic = false ∨ s.myTurn = true ∨ k = 2 →
      (k ≠ 2 → s.atomicsOpen s.gid true = false ∧ (2 ≤ e.toNat → s.grp.heard = false ∧
        (∀ x ∈ s.grp.heardOf, s.stillWaits (.phase x.1 x.2) = false) ∧ ∀ w ∈ s.core.wickRec, s.demandWaits w.2 = false)) →
      (k = 3 → 2 ≤ e.toNat → (s.replicated = false ∨ s.spl.token = true) ∧ ∀ w ∈ s.team.wbuf, w.agent ≠ s.groupIdx) →
      ∃ t, exec (.fence st k e) s = .next t ∧
      s.completesMem t { s.nextSplit with
        rel := if k = 1 then s.spl.rel else some (match s.spl.rel with | some r => max r e.toNat | none => e.toNat) } {} none_ none_ ∧
      (k = 3 → 2 ≤ e.toNat → s.follows = false → s.core.l1.Pairwise (fun x y => x.1 < y.1) →
        ∀ x ∈ (t.coreAt core).l1, x.2.owner = none → x.2.dirty = 0) ∧
      (k ≠ 2 → 2 ≤ e.toNat → swept t ∧ (s.follows = false → (t.coreAt core).wickRec = []))) ∧
    (∀ w ∈ [(Instr.ldaGrp st d a b, 0), (.ldaTeam st d a b, 1), (.ldaClu st d a b, 2), (.ldaDie st d a b, 3),
        (.ldaDev st d a b, 4), (.ldaSys st d a b, 5)],
      let (i, scope) := w
      let place := s.placeOf .read x
      let waits := 2 ≤ scope ∧ ∃ w ∈ s.wicksOf (placeLines (s.places .read [x])), s.demandWaits w = true
      s.accessClear 8 .read anyTarget true true [x] → (2 ≤ scope → s.heldAcquire 8 place = false ∧ s.releasedBy 8 place = none) →
      (s.replicated = false → ¬waits → ∃ t, exec i s = .next t ∧
        (∀ y, (place.isScratch = true ∧ y = numberOf 8 (fun j => Store.get s.mem.scratch (place.cell + j))) ∨
          (s.settledAt 8 place s.quiet ∧ y = numberOf 8 fun j => s.byteAt (place.phys + j)) → t.regs.getG d.toNat = BitVec.ofNat 64 y) ∧
        s.pends t (.g d.toNat) none ∧ s.completesMem t s.nextSplit { g := (· == d.toNat) } none_ none_ ∧
        (2 ≤ scope → (scope = 5 ∨ place.isScratch = true ∨ kindOf (128 * (place.phys / 128)) ≠ 0 ∨ (s.wick (place.phys / 128)).v = false ∨
          (s.wick (place.phys / 128)).coreId ≠ core) → swept t)) ∧
      (s.follows = true → (∀ y r, s.grp.repl.forwarded = (s.grp.place_, y) :: r → ∃ t, exec i s = .next t ∧ t.regs.getG d.toNat = y ∧
          swept t ∧ s.completesMem t s.nextSplit { g := (· == d.toNat) } none_ none_) ∧
        (s.grp.repl.forwarded = [] → s.leaderPassed = false →
          ∃ t, exec i s = .next t ∧ t.mem = s.mem ∧ t.spl = (s.waitFor .rendezvous).spl))) ∧
    (∀ w ∈ [(Instr.stlGrp st d a b, 0), (.stlTeam st d a b, 1), (.stlClu st d a b, 2), (.stlDie st d a b, 3),
        (.stlDev st d a b, 4), (.stlSys st d a b, 5)],
      let (i, own) := w
      let scope := match s.spl.rel with | some r => max r own | none => own
      let place := s.placeOf .write x
      let y := (s.rdG d.toNat).toNat
      let places := s.places .write [x]
      s.replicated = false → s.deterministic = false → s.accessClear 8 .write anyTarget true true [x] →
      s.releaseClear true places → s.core.roomFor [] = true →
      ∃ t, exec i s = .next t ∧
        s.completesMem t { s.nextSplit with rel := none } {} place.reaches (place.covers 8) ∧
        (Memory.wf s.mem.scratch = true → ∀ team off, t.scratchAt team off =
          place.put 8 y (Store.get s.mem.scratch) (scratchKey team off)) ∧
        (Memory.wf s.mem.bytes = true → s.settledAt 8 place → s.writesOnly (some scope) places → ∀ pa, s.atRest (pa / 128) = true →
          t.atRest (pa / 128) = true ∧ t.byteAt pa = storeBytes s.byteAt place.phys 8 y pa)) ∧
    (s.replicated = false → s.deterministic = false → legal → ∃ t, exec (.acqr st g h) s = .next t ∧
      t.regs.getG h.toNat = BitVec.ofNat 64 ((s.coreAt victim).l1.filter fun x => x.2.dirty != 0 && x.2.owner.isNone).length ∧
      s.pends t (.g h.toNat) none ∧ s.completesMem t s.nextSplit { g := (· == h.toNat) } none_ none_ ∧
      (∀ x ∈ (t.coreAt victim).l1, x.2.owner.isSome = true) ∧ swept t) ∧
    (¬legal → s.refusesOperand (.acqr st g h))

/-- R407, R408, R411: an arrival: the phase it counts in, the count, the phase's end, and an arrival that is held. Members
that join at the next phase are log 13. -/
def Obligations.BarrierArrivals : Prop :=
  ∀ (s : State) (st : BitVec 3) (l : BitVec 2) (n : BitVec 4),
    let level := l.toNat
    let num := n.toNat
    let b := s.barrier level num
    let m := if level = 0 then s.slot else s.gid
    let k := s.role.toNat
    let i : Instr := .bara st l n
    let legal := (level = 3 → s.grid.launch.coresident = true) ∧ (level = 0 → s.handlerMode = false)
    let refused := b.count = true ∧ counter b.expected k = 0 ∧
      ∀ x, b.pending = some x → x.getLsbD 63 = false ∧ counter x k = 0
    let counts := m ∉ b.arrived ∧ if b.count then counter b.counted k < counter b.expected k else m ∉ b.joining
    let told := AMap.set b.targets m (b.target (some m) k)
    let ends := if b.count then ∀ j, j < 5 → counter b.expected j ≤ counter b.counted j + (if j = k then 1 else 0)
      else ∀ x ∈ s.members level, x ∉ b.joining → x ∈ b.arrived ∨ x = m
    (¬legal → s.refusesOperand i) ∧ (legal → refused → s.refusesOperand i) ∧
    (legal → ¬refused → s.deterministic = false → (s.replicated = false ∨ s.spl.token = true) → s.members level ≠ [] →
      s.atomicsOpen s.gid true = false → ∃ (u : State) (c : Barrier), exec i s = .next ((u.setBarrier level num c).retire) ∧
        s.spares (fun _ => false) (fun _ => false) u ∧ (level < 2 ∨ s.follows = true → u = s) ∧
        (2 ≤ level → s.follows = false → s.core.l1.Pairwise (fun x y => x.1 < y.1) →
          ∀ x ∈ (u.coreAt s.coreId).l1, x.2.owner = none → x.2.dirty = 0) ∧
        (counts → b.target (some m) k = b.phase) ∧
        (counts → ¬ends → c = { b with
          targets := told, arrived := b.arrived ++ [m], counted := if b.count then addCounter b.counted k else b.counted }) ∧
        (counts → ends → b.next = [] → b.pending = none → c = { b with
          targets := told, phase := b.phase + 1, arrived := [], counted := 0, joining := [] }) ∧
        (¬counts → b.complete (s.members level) = false → c = { b with
          targets := told, next := b.next ++ [(some m, k)] }))

/-- R406, R409, R410: waits and settings: a passed phase lets the member go on, its target cleared, and it acquires; another
leaves it waiting, and so does in deterministic mode one for which another team has arrived in this period (R394); a member with nothing
to wait for is refused; `barc` sets at once or from the next phase. Members that join at the next phase are log 13, the clean bytes
dropped at a team barrier log 47, the target phases of held arrivals log 58. -/
def Obligations.BarrierWaits : Prop :=
  ∀ (s : State) (st : BitVec 3) (l : BitVec 2) (n : BitVec 4) (g : BitVec 6),
    let level := l.toNat
    let num := n.toNat
    let b := s.barrier level num
    let m := if level = 0 then s.slot else s.gid
    let legal := (level = 3 → s.grid.launch.coresident = true) ∧ (level = 0 → s.handlerMode = false)
    let x := s.rdG g.toNat
    let c := s.barrier 1 num
    let lawful := x.extractLsb' 48 15 = 0 ∧ (∀ k, k < 4 → counter x k ≤ 32) ∧
      (if x.getLsbD 63 then x.extractLsb' 0 48 = 0 else x.extractLsb' 0 48 ≠ 0)
    let goes := fun (i : Instr) (d : Barrier) (own : Bool) => ∃ u : State,
      exec i s = .next ((if own then u.setBarrier level num { d with targets := AMap.drop d.targets m } else u).retire) ∧
        -- at team level the program has waited for the engine commands that arrived (R240)
        s.spares (fun _ => false) (fun _ => false) (u.setTeam { u.team with unwaited := s.team.unwaited }) ∧
        (level ≠ 1 → u.team.unwaited = s.team.unwaited) ∧
        (2 ≤ level → ∀ x ∈ (u.coreAt s.coreId).l1, x.2.valid = x.2.dirty)
    (∀ p own, s.spl.wait = some (.barrier level num p own) → s.replicated = false → ∀ i ∈ [Instr.bar st l n, .barw st l n],
      let q := if own = true ∧ AMap.has b.targets m = true then AMap.get 0 b.targets m else p
      ((b.phase - q - 1).toNat < 2 ^ 31 → s.heldPhase level num q = false → goes i b own) ∧
      (2 ^ 31 ≤ (b.phase - q - 1).toNat ∨ s.heldPhase level num q = true → exec i s = .next (s.waitFor (.barrier level num p own)))) ∧
    (s.spl.wait = none → s.deterministic = false → s.replicated = false →
      let own := AMap.has b.targets m
      let p := if own then AMap.get 0 b.targets m else b.phase
      let some_ := own = true ∨ b.count = true
      (¬(legal ∧ some_) → s.refusesOperand (.barw st l n)) ∧
      (legal → some_ → ((b.phase - p - 1).toNat < 2 ^ 31 → goes (.barw st l n) b own) ∧
        (2 ^ 31 ≤ (b.phase - p - 1).toNat → exec (.barw st l n) s = .next (s.waitFor (.barrier level num p own)))) ∧
      (legal → s.atomicsOpen s.gid true = false → b.count = false → m ∉ b.arrived → m ∉ b.joining → b.next = [] → b.pending = none → s.members level ≠ [] →
        ((∀ x ∈ s.members level, x ∉ b.joining → x ∈ b.arrived ∨ x = m) → goes (.bar st l n) { b with
          targets := AMap.set b.targets m b.phase, phase := b.phase + 1, arrived := [], counted := 0, joining := [] } true) ∧
        ((∃ x ∈ s.members level, x ∉ b.joining ∧ x ∉ b.arrived ∧ x ≠ m) → level < 2 → exec (.bar st l n) s =
          .next ((s.setBarrier level num { b with targets := AMap.set b.targets m b.phase, arrived := b.arrived ++ [m] }).waitFor
            (.barrier level num b.phase true))))) ∧
    (¬lawful → s.refusesOperand (.barc st n g)) ∧
    (lawful → (s.deterministic = false ∨ s.myTurn = true) →
      ∃ told : AMap Word, (∀ k, (∀ e ∈ c.next, e.1 ≠ some k) → AMap.get 0 told k = AMap.get 0 c.targets k) ∧
        exec (.barc st n g) s = .next ((s.setBarrier 1 num
          (if c.arrived = [] ∧ c.counted = 0 ∧ s.hasWaiter 1 num = false then
            { c with count := !x.getLsbD 63, expected := if x.getLsbD 63 then 0 else x, pending := none, targets := told }
           else { c with pending := some x, targets := told })).retire))

/-- R412 to R414: the ready mark of a tile is set or cleared at its home, with the version; the wait goes on once it is set, and
drops the core's clean bytes of the tile. That it waits for another grid's serial phase is log 59. -/
def Obligations.TileMarks : Prop :=
  ∀ (s : State) (st : BitVec 3) (g : BitVec 6) (leaf : Leaf) (va pa : Nat) (tile : TileRef),
    let x := s.rdG g.toNat
    let a := x &&& 0x00FFFFFFFFFFFFFF
    let h := s.header tile.header
    let none_ : Nat → Bool := fun _ => false
    (x &&& 0x7F00000000000000 ≠ 0 ∨ inScratchAperture a = true → s.refusesOperand (.trdy st g)) ∧
    (x &&& 0xFF00000000000000 ≠ 0 ∨ inScratchAperture a = true → s.refusesOperand (.twt st g)) ∧
    (leaf.tile va = some tile → h.kind ≠ 3 → s.poisoned (tile.header / 128) = false → inScratchAperture a = false →
      s.deterministic = false →
      (x &&& 0x7F00000000000000 = 0 → s.target a .write = .ok (.memory leaf va pa) → s.replicated = false →
        s.atomicsOpen s.gid true = false →
        (h.lock = true → exec (.trdy st g) s = .next (s.waitFor (.lock tile.header))) ∧
        (h.lock = false → (∀ l ∈ s.core.tileLines tile, s.foreign s.coreId l = false) → ∃ t, exec (.trdy st g) s = .next t ∧ s.completesMem t s.nextSplit {} tile.touches none_ ∧
          (Memory.wf s.mem.bytes = true → tile.header % 32 = 0 → s.atRest (tile.header / 128) = true →
            t.header tile.header = { h with
              ready := !x.getLsbD 63, version := if h.ready = !x.getLsbD 63 then h.version else h.version + 1 }))) ∧
      (x &&& 0xFF00000000000000 = 0 → s.target a .read = .ok (.memory leaf va pa) →
        (h.ready = false → exec (.twt st g) s = .next (s.waitFor (.ready tile.va))) ∧
        (h.ready = true → s.releasedBy 32 (markPlace tile) = none → ∃ t, exec (.twt st g) s = .next t ∧ s.completesMem t s.nextSplit {} none_ none_ ∧ t.mem = s.mem ∧
          ∀ y ∈ (t.coreAt s.coreId).l1, (∃ u, y.2.tile = some u ∧ u.header = tile.header) → y.2.valid = y.2.dirty)))

/-- R415 to R421: a token goes to the command processor; the logical clock; a wait for the serial phase; the signature; a
forced compare. The clocks of waiters that a barrier releases are log 48. -/
def Obligations.ClocksAndTokens : Prop :=
  ∀ (s : State) (st : BitVec 3) (g : BitVec 6),
    let x := s.rdG g.toNat
    let turn := s.deterministic = false ∨ s.myTurn = true
    let n := s.grp.place_
    (encode (.snuff st g) = xWord st 0x1B 0x16 (g ++ (0 : BitVec 13)) ∧
      (x.extractLsb' 32 32 ≠ 0 ∨ x.extractLsb' 0 32 = 0 → s.refusesOperand (.snuff st g)) ∧
      (x.extractLsb' 32 32 = 0 → x.extractLsb' 0 32 ≠ 0 → turn → s.replicated = false →
        exec (.snuff st g) s = .next
          (({ s with cp := { s.cp with snuffs := s.cp.snuffs ++ [x.extractLsb' 0 32] } } : State).retire))) ∧
    (encode (.dclk st g) = xWord st 0x1B 0x17 (g ++ (0 : BitVec 13)) ∧
      (s.deterministic = false ∨ s.replicated = false → turn → s.answersG (.dclk st g) g.toNat none s.regs.clock) ∧
      (s.deterministic = true → s.replicated = true →
        (s.follows = false → s.hasTurn = true → ∃ t, exec (.dclk st g) s = .next t ∧ t.regs.getG g.toNat = s.regs.clock ∧
          t.mem = s.mem ∧ t.spl = s.nextSplit) ∧
        (s.follows = true → (∀ y r, s.grp.repl.forwarded = (n, y) :: r → ∃ t, exec (.dclk st g) s = .next t ∧
            t.regs.getG g.toNat = y ∧ t.mem = s.mem ∧ t.spl = s.nextSplit) ∧
          (s.grp.repl.forwarded = [] → s.leaderPassed = false → ∃ t, exec (.dclk st g) s = .next t ∧ t.mem = s.mem ∧
            t.spl = (s.waitFor .rendezvous).spl)))) ∧
    (encode (.dsync st) = xWord st 0x1B 0x18 0 ∧
      (s.deterministic = false → ∃ t, exec (.dsync st) s = .next t ∧ s.completes t s.nextSplit {} false) ∧
      (s.deterministic = true → s.spl.wait = none → s.follows = false → s.hasTurn = true →
        exec (.dsync st) s = .next (s.waitFor (.period (s.grid.det.period + 1)))) ∧
      (s.deterministic = true → s.follows = true → s.leaderPassed = false →
        exec (.dsync st) s = .next (s.waitFor .turn)) ∧
      (∀ n, s.deterministic = true → (s.follows = false ∧ s.spl.wait = some (.period n) ∧ (s.grid.det.period - n).toNat < 2 ^ 31 ∨
          s.follows = true ∧ s.leaderPassed = true) →
        ∃ t, exec (.dsync st) s = .next t ∧
          s.completesMem t s.nextSplit {} (fun _ => false) (fun _ => false) ∧
          ∀ y ∈ (t.coreAt s.coreId).l1, y.2.valid = y.2.dirty)) ∧
    (encode (.rsig st g) = xWord st 0x1B 0x19 (g ++ (0 : BitVec 13)) ∧
      s.answersG (.rsig st g) g.toNat none (if s.replicated then s.grp.repl.sig else 0)) ∧
    (encode (.rchk st) = xWord st 0x1B 0x1A 0 ∧
      (s.replicated = false ∨ s.spl.token = true → ∃ t, exec (.rchk st) s = .next t ∧ s.completes t s.nextSplit {} false) ∧
      (s.replicated = true → s.spl.token = false → s.grp.repl.skip = false → ∃ t, exec (.rchk st) s = .next t ∧
        t = s.setGrp t.grp ∧ t.spl = (s.waitFor .compare).spl ∧ t.regs = s.regs ∧ t.grp.repl.sent.isSome = true))
/-- R127, R237, R285 to R293, R315 to R324, R327 to R330: the commands of the engines at issue: the tests of their operands,
and the command that enters its context's queue. Which tests are made at issue and which by the engine is logs 10 and 42. -/
def Obligations.EngineCommands : Prop :=
  ∀ (s : State) (st q : BitVec 3) (c : BitVec 1) (d a b g : BitVec 6) (v : BitVec 7),
    let o := fun (k : Nat) => s.rdG (g.toNat + k)
    let block := fun (n : Nat) => (List.range n).map o
    let guard := if q = 0 then Guard.runs
      else if s.grp.inflight.any (fun e => e.reg == .q q.toNat && e.ready.isNone) then .pending q.toNat
      else if s.rdQ q.toNat then .runs else .discarded
    let cmd := fun (i : Instr) (n : Nat) => ({ num := 0, op := i, gid := 0, slot := 0, ops := block n, guard := guard } : Cmd)
    let coll := fun (i : Instr) => ({ cmd i 4 with prio := s.team.cprio.toNat } : Cmd)
    -- the control word: which fields an instruction uses (R317)
    let zero := fun (x : DWord) (op reg dcnt wlog len : Bool) =>
      (op = false → ctlOp x = 0) ∧ (reg = false → ctlReg x = false) ∧ (dcnt = false → ctlDcnt x = 0) ∧
        (wlog = false → ctlWlog x = 0) ∧ (len = false → ctlLen x = 0) ∧ ctlWlog x ≤ 4 ∧ (op = true → ctlOp x ≤ 4)
    let w := fun (x : DWord) => 2 ^ ctlWlog x
    let whole := fun (x : DWord) => ctlLen x % w x = 0
    let typed := fun (x : DWord) => ctlWlog x = if ctlOp x = 1 then 1 else 2
    let source := fun (x : DWord) (n : Nat) => ({ addr := x, align := if inScratchAperture x then n else 1 } : OperandTest)
    let posts := fun (i : Instr) (ctx : Nat) (legal : Prop) (tests : List OperandTest) (x : Cmd) =>
      (¬legal → s.refusesOperand i) ∧ (legal → s.testsOperands i tests
        ((s.replicated = true → ∀ w ∈ s.grp.repl.writes, w.engine = true) → s.queues i ctx x))
    let once := fun (i : Instr) (ctx : Nat) (legal : Prop) (tests : List OperandTest) (x : Cmd) =>
      (¬legal → s.refusesOperand i) ∧
        (legal → s.testsOperands i tests (s.replicated = false → s.mayGo → s.queues i ctx x))
    let n := 3 + ctlDcnt (o 1)
    let dests := (List.range (1 + ctlDcnt (o 1))).map fun k => ({ addr := o (2 + k), align := w (o 1) } : OperandTest)
    -- a shade instruction (R286, R287)
    let ctl := s.rdG a.toNat
    let x := s.rdG b.toNat
    let y := s.rdG (b.toNat + 1)
    let shade := fun (i : Instr) (legal : Prop) (ops : List DWord) =>
      let ok := inScratchAperture (s.rdG d.toNat) = false ∧ ctl.extractLsb' 37 27 = 0 ∧
        (ctl.getLsbD 36 = true ∨ ctl.extractLsb' 32 4 = 0) ∧ (ctl.extractLsb' 32 4).toNat ≤ 11 ∧
        (ctl.extractLsb' 0 32).toNat ≤ 2 ^ 24 ∧ legal
      (¬ok → s.refusesOperand i) ∧
        (ok → s.queues i 1 { num := 0, op := i, gid := 0, slot := 0, ops := s.rdG d.toNat :: ctl :: ops })
    let finite := fun (z : Word) => z.extractLsb' 23 8 ≠ 255
    posts (.cpy st q c g) c.toNat (zero (o 2) false false false true true ∧ whole (o 2))
      [{ addr := o 0, align := w (o 2) }, source (o 1) 1] (cmd (.cpy st q c g) 3) ∧
    posts (.cpyt st q c g) c.toNat (zero (o 3) false false false false false)
      [{ addr := o 0, align := 1 }, source (o 1) 1, { addr := o 2, align := 16, inScratch := true }] (cmd (.cpyt st q c g) 4) ∧
    posts (.cpyx st q c g v) c.toNat (zero (o 3) false false false false false)
      [{ addr := o 0, align := 128, inScratch := true }, { addr := o 1, align := 32, inScratch := true },
       { addr := o 2, align := 8 }]
      { cmd (.cpyx st q c g v) 4 with mask := s.active, lanes := lanes.map fun l => s.rdV v.toNat l } ∧
    (64 < g.toNat + n → ∀ i ∈ [Instr.cpym st q c g, .cpyr st q c g], exec i s = .next (s.fault (s.ownFault 0x01 0 0 0))) ∧
    (g.toNat + n ≤ 64 →
      posts (.cpym st q c g) c.toNat (zero (o 1) false false true true true ∧ whole (o 1))
        (source (o 0) (w (o 1)) :: dests) (cmd (.cpym st q c g) n) ∧
      once (.cpyr st q c g) c.toNat (zero (o 1) true false true true true ∧ typed (o 1) ∧ whole (o 1))
        (source (o 0) (w (o 1)) :: dests) (cmd (.cpyr st q c g) n)) ∧
    (∀ i ∈ [Instr.collAr st q g, .collRs st q g], once i 3 (zero (o 3) true false false true true ∧ typed (o 3) ∧ whole (o 3))
      [{ addr := o 0, align := w (o 3) }, source (o 1) (w (o 3)), source (o 2) 8] (coll i)) ∧
    once (.collAg st q g) 3 (zero (o 3) false false false true true ∧ whole (o 3))
      [{ addr := o 0, align := w (o 3) }, source (o 1) (w (o 3)), source (o 2) 8] (coll (.collAg st q g)) ∧
    (let pairs := ctlReg (o 3)
     once (.csred st q g v) 3 (zero (o 3) false true false false true ∧
        if pairs then o 1 = 0 ∧ v.toNat + 1 < s.grid.kernel.regs else v = 0)
      [{ addr := o 0, align := 4 }, source (o 2) 8]
      { coll (.csred st q g v) with
        mask := if pairs then s.active else 0
        lanes := if pairs then lanes.map fun l => s.rdV v.toNat l else []
        data := if pairs then lanes.map fun l => s.rdV (v.toNat + 1) l else [] }) ∧
    shade (.sfil st d a b) (x.extractLsb' 32 32 = 0) [x] ∧
    shade (.sscl st d a b) (x.extractLsb' 32 32 = 0 ∧ finite (x.extractLsb' 0 32)) [x] ∧
    shade (.soff st d a b) (x.extractLsb' 32 32 = 0 ∧ finite (x.extractLsb' 0 32)) [x] ∧
    shade (.sclp st d a b) (Fmt.f32.value (x.extractLsb' 0 32).toNat ≠ .nan ∧ Fmt.f32.value (x.extractLsb' 32 32).toNat ≠ .nan ∧
      Fl.lt (Fmt.f32.value (x.extractLsb' 32 32).toNat) (Fmt.f32.value (x.extractLsb' 0 32).toNat) = false) [x] ∧
    shade (.spmt st d a b) (x.extractLsb' 56 8 = 0 ∧ y.extractLsb' 14 50 = 0 ∧
      ∀ k, k < 14 → (x.extractLsb' (4 * k) 4).toNat < 14) [x, y] ∧
    shade (.smat st d a) True []

/-- R240, R325, R326, R332: the timeline read, the wait for the number read at issue, after which later commands see what was waited
for, and the priority of collectives. A replica that still holds the edit of a shade command among those waited for compares first
(log 55). -/
def Obligations.TimelinesAndPriority : Prop :=
  ∀ (s : State) (st : BitVec 3) (g : BitVec 6) (x : BitVec 2),
    let v := s.rdG g.toNat
    let n := match s.spl.wait with
      | some (.timeline _ n) => n
      | _ => v
    let c := s.ctx x.toNat
    s.answersG (.tlr st g x) g.toNat none c.counter ∧
    (c.issued.toNat < n.toNat → s.refusesOperand (.tlw st g x)) ∧
    (n.toNat ≤ c.issued.toNat → s.mayGo →
      (c.counter.toNat < n.toNat →
        exec (.tlw st g x) s = .next (s.waitFor (.timeline x.toNat n))) ∧
      (n = 0 → ∃ t, exec (.tlw st g x) s = .next t ∧ s.completes t s.nextSplit {} false) ∧
      (n ≠ 0 → n.toNat ≤ c.counter.toNat → s.holdsEdit x.toNat n.toNat = true → ∃ t, exec (.tlw st g x) s = .next t ∧
        t = s.setGrp t.grp ∧ t.spl = (s.waitFor .compare).spl ∧ t.grp.repl.sent.isSome = true) ∧
      (n ≠ 0 → n.toNat ≤ c.counter.toNat → s.holdsEdit x.toNat n.toNat = false → ∃ t, exec (.tlw st g x) s = .next t ∧
        t.team.unwaited = s.team.unwaited.filter (fun u => !(u.ctx == x.toNat && decide (u.num ≤ n.toNat))) ∧
        s.completesMem (t.setTeam { t.team with unwaited := s.team.unwaited }) s.nextSplit {} (fun _ => false) (fun _ => false) ∧
        ∀ y ∈ (t.coreAt s.coreId).l1, y.2.valid = y.2.dirty)) ∧
    (v.extractLsb' 16 48 ≠ 0 → s.refusesOperand (.cprio st g)) ∧
    (v.extractLsb' 16 48 = 0 →
      exec (.cprio st g) s = .next (s.setTeam { s.team with cprio := v.extractLsb' 0 16 }).retire)

/-- R301 to R314: the matrix instructions at issue: their tests, and the command that enters the core's queue with its
registers read. A drain takes the lanes active at its issue (log 14). -/
def Obligations.MatrixIssue : Prop :=
  ∀ (s : State) (st c : BitVec 3) (f t : BitVec 4) (a b : BitVec 7) (d g : BitVec 6) (n : BitVec 2),
    let active := lanes.filter fun l => s.active.has l
    let words := active.map fun l => s.rdV f.toNat l
    let w := words.headD 0
    let fits := fun (w : Word) => formatLegal w = true ∧ s.formatOffered w = true ∧
      blocksLegal w a.toNat b.toNat s.grid.kernel.regs = true ∧ s.bookLegal w = true
    let cmd := fun (i : Instr) (mask : Mask) =>
      ({ op := i, gid := s.gid, slot := s.slot, mask := mask, gmode := s.mode, tseq := s.tseq, pc := s.spl.pc } : MatrixCmd)
    let into := fun (u : State) (x : MatrixCmd) => u.setCore { u.core with matrix := u.core.matrix ++ [x] }
    let enters := fun (i : Instr) (x : MatrixCmd) => exec i s = .next (into s x).retire
    let sc := s.rdG d.toNat
    let cl := s.rdG (d.toNat + 1)
    let lawful := fun (x y : DWord) => x.extractLsb' 32 32 = 0 ∧ y.extractLsb' 32 32 = 0 ∧ y.getLsbD 31 = false ∧
      Fmt.f32.value (y.extractLsb' 0 32).toNat ≠ .nan
    let rsr := modeRnd s.regs.gmode == 5
    let drains := fun (i : Instr) (v : Nat → Nat → Bool) (u : State) => ∃ r, exec i s = .next r ∧ r = u.setGrp r.grp ∧
      r.spl = s.nextSplit ∧ (∀ k, k ≠ s.slot → r.splitAt k = s.splitAt k) ∧
      Regs.keeps { v := v, scount := rsr } s.regs r.regs ∧ Group.keeps { v := v, scount := rsr } false s.grp r.grp ∧
      (∀ m l, l < 32 → r.regs.getV m l = s.regs.getV m l) ∧
      ∀ l, l < 32 → r.regs.getSc l = if rsr && s.active.has l then s.regs.getSc l + 1 else s.regs.getSc l
    let queued := fun (i : Instr) (ops : List DWord) =>
      s.withCommand 2 { num := 0, op := i, gid := 0, slot := 0, mask := s.active, ops := ops, waits := true }
    let num := ((s.ctx 2).issued + 1).toNat
    let width := tyBytes t.toNat
    let ctl := s.rdG (d.toNat + 1)
    (s.active = 0 → ∀ i ∈ [Instr.mma st c f a b, .mscale st c a, .mdrain st a t c d], ∃ r, exec i s = .next r ∧ s.completes r s.nextSplit {} false) ∧
    (s.active ≠ 0 → (∃ w ∈ words, ¬fits w) → s.refusesOperand (.mma st c f a b)) ∧
    (s.active ≠ 0 → (∀ w ∈ words, fits w) → (∃ x ∈ words, x ≠ w) →
      exec (.mma st c f a b) s = .next (s.fault (s.ownFault 0x04 0 0 0))) ∧
    (s.active ≠ 0 → (∀ w ∈ words, fits w) → (∀ x ∈ words, x = w) → enters (.mma st c f a b)
      { cmd (.mma st c f a b) s.active with
        format := w, a := s.fragment a.toNat (fragmentLength (fmtA w)), b := s.fragment b.toNat (fragmentLength (fmtB w)),
        scale := if fmtScale w = 1 then s.fragment (b.toNat + fragmentLength (fmtB w)) 1 else [] }) ∧
    (s.active ≠ 0 → enters (.mscale st c a) { cmd (.mscale st c a) s.active with a := s.fragment a.toNat 1 }) ∧
    enters (.mzero st c) (cmd (.mzero st c) s.spl.mask) ∧ enters (.mzeroOpen st c) (cmd (.mzeroOpen st c) s.spl.mask) ∧
    (s.active ≠ 0 → ¬lawful sc cl → s.refusesOperand (.mdrain st a t c d)) ∧
    (s.active ≠ 0 → lawful sc cl →
      drains (.mdrain st a t c d) (fun m _ => decide (a.toNat ≤ m) && decide (m < a.toNat + 8))
        (into s { cmd (.mdrain st a t c d) s.active with ops := [sc, cl, s.drainSeed] }) ∧
      ∀ r, exec (.mdrain st a t c d) s = .next r → ∀ i, i < 8 → s.pends r (.v (a.toNat + i)) none) ∧
    (let ok := ctlOp ctl = 0 ∧ ctlReg ctl = false ∧ ctlDcnt ctl = 0 ∧ ctlWlog ctl = 0 ∧
       lawful (s.rdG (d.toNat + 2)) (s.rdG (d.toNat + 3)) ∧ 8 * width ≤ ctlLen ctl ∧ ctlLen ctl < 2 ^ 32
     (¬ok → s.refusesOperand (.mdrs st d t c)) ∧
     (ok → sc.toNat % (8 * width) = 0 → ctlLen ctl % (8 * width) = 0 → s.aperture sc ≠ .outside →
       drains (.mdrs st d t c) (fun _ _ => false) (into (queued (.mdrs st d t c) [sc, ctl])
         { cmd (.mdrs st d t c) s.active with ops := [s.rdG (d.toNat + 2), s.rdG (d.toNat + 3), s.drainSeed], num := num }))) ∧
    (let ok := sc.extractLsb' 46 18 = 0 ∧ (sc.extractLsb' 0 32).toNat < s.grid.launch.clusters ∧
       (sc.extractLsb' 32 4).toNat < s.grid.launch.width * s.grid.launch.height
     (¬ok → s.refusesOperand (.mdrp st d c)) ∧
     (ok → s.mayGo → exec (.mdrp st d c) s = .next
       (into (queued (.mdrp st d c) [sc]) { cmd (.mdrp st d c) s.active with num := num }).retire)) ∧
    (let x := s.groupAddr d.toNat g.toNat
     let l := (List.range 8).map fun k => x + BitVec.ofNat 64 (128 * k)
     s.accessClear 128 .read anyTarget false false l → s.core.roomFor (s.lineKeep 128 (s.places .read l)) = true →
       (∀ e ∈ s.places .read l, s.heldAcquire 128 e.2 = false ∧ s.releasedBy 128 e.2 = none) → ∃ (u : State) (v : DWord → Nat) (m : Store 8),
       s.spares (fun _ => false) (fun _ => false) u ∧ s.loads 128 l v ∧
       (∀ k, k < 1024 → Store.get m k = byteOf (v (x + BitVec.ofNat 64 (128 * (k / 128)))) (k % 128)) ∧
       exec (.mcbk st n d g) s = .next (u.setCore { u.core with
         matrix := u.core.matrix ++ [{ cmd (.mcbk st n d g) 0 with books := [(n.toNat, { bytes := m })] }]
         books := AMap.set u.core.books n.toNat { AMap.get {} u.core.books n.toNat with
           loader := some (s.teamId, s.team.run) } }).retire)

/-- R125, R176, R178, R253 to R255, R305 to R307, R313: what the matrix engine does when it accepts the first command of a
core's queue: the accumulator block, the drained registers, the codebook. -/
def Obligations.MatrixAccept : Prop :=
  ∀ (s : State) (core : Nat) (x : MatrixCmd) (rest : List MatrixCmd),
    (s.coreAt core).matrix = x :: rest →
    let g := AMap.get {} s.groups x.gid
    let r := g.ctx.regs
    let ftz := modeFtz x.gmode
    let f32 := fun (y : Fl) => BitVec.ofNat 32 (Fmt.f32.roundTo { ftz := ftz } y)
    let word := fun (k : Nat) => (x.ops.getD k 0).extractLsb' 0 32
    ∃ t, exec (.matrixEngineAccept core) s = .next t ∧ t.mem = s.mem ∧ t.gid = s.gid ∧ t.slot = s.slot ∧
      (t.coreAt core).matrix = rest ∧ (∀ j, j ≠ x.gid → AMap.get {} t.groups j = AMap.get {} s.groups j) ∧
      let q := (AMap.get {} t.groups x.gid).ctx.regs
      -- element (row, column) of block n becomes f, where the row takes part; the other blocks stay
      let block := fun (n : Nat) (mask : Nat → Bool) (f : Nat → Nat → Word) => ∀ m row col, row < 32 → col < 8 →
        q.getAcc m row col = if m = n ∧ mask row = true then f row col else r.getAcc m row col
      (∀ st c f a b, x.op = .mma st c f a b → g.place.core = core →
        block c.toNat x.mask.has (fun row col =>
          let b := 8 * modeBsel x.gmode (row / 8) + col
          let book := (AMap.get {} (s.coreAt core).books (fmtCb x.format)).bytes
          let scale := if fmtScale x.format = 1 then Fmt.e4m3.input ftz ((AMap.get 0 x.scale b).toNat % 256) else .fin false 1 0
          f32 (Fl.sum ((if fmtZ x.format then .fin false 0 0 else Fmt.f32.input ftz (r.getAcc c.toNat row col).toNat) ::
            (List.range (formatK x.format)).map fun k =>
              Fl.mul (fragmentProduct (fmtA x.format) (fragmentValue (fmtA x.format) ftz book x.a row k)
                (fragmentValue (fmtB x.format) ftz book x.b b k)) scale))) ∧
        q.openAcc = r.openAcc &&& ~~~(1#8 <<< c.toNat)) ∧
      (∀ st c a, x.op = .mscale st c a →
        block c.toNat x.mask.has (fun row col =>
          f32 (Fl.mul (Fmt.f32.input ftz (r.getAcc c.toNat row col).toNat) (Fmt.f32.input ftz (AMap.get 0 x.a row).toNat))) ∧
        q.openAcc = r.openAcc &&& ~~~(1#8 <<< c.toNat)) ∧
      (∀ st c, x.op = .mzero st c → block c.toNat (fun _ => true) (fun _ _ => 0) ∧ q.openAcc = r.openAcc &&& ~~~(1#8 <<< c.toNat)) ∧
      (∀ st c, x.op = .mzeroOpen st c → block c.toNat (fun _ => true) (fun _ _ => 0) ∧ q.openAcc = r.openAcc ||| (1#8 <<< c.toNat)) ∧
      (∀ st d ty c b, x.op = .mdrain st d ty c b →
        (∀ l j, x.mask.has l = true → j < 8 → q.getV (d.toNat + j) l =
          BitVec.ofNat 32 (drainElement ty.toNat x.gmode (word 2) (word 0) (word 1) (r.getAcc c.toNat l j) l j)) ∧
        (∀ m l, l < 32 → (m < d.toNat ∨ d.toNat + 8 ≤ m ∨ x.mask.has l = false) → q.getV m l = r.getV m l) ∧
        (∀ m row col, q.getAcc m row col = r.getAcc m row col) ∧ q.openAcc = r.openAcc &&& ~~~(1#8 <<< c.toNat)) ∧
      (∀ st n a b, x.op = .mcbk st n a b → g.place.core = core →
        (AMap.get {} (t.coreAt core).books n.toNat).bytes = (AMap.get {} x.books n.toNat).bytes ∧ q = r)

/-- R68 to R72, R76, R149 to R154: spawned threads go into a bin in ascending order of lanes, a bin with 32 starts its group or is
left to start, `bflush` starts the team's bins or leaves them to start, and `launch` returns the record's number and submits the
grid of the record, or returns 0 with the queue's status where the queue does not take it. The end of a kernel's text is log 24,
the start of bins by a flush log 29, the bin and the group index among several log 52. -/
def Obligations.SpawnAndLaunch : Prop :=
  ∀ (s : State) (st : BitVec 3) (k : BitVec 4) (f : BitVec 15) (g : BitVec 6),
    let target : Addr := s.spl.pc + f.signExtend 56 * 4
    let core := s.coreId
    let legal := s.grid.kernel.entry ≤ target.toNat ∧ target.toNat < s.grid.kernel.limit
    let i : Instr := .spawn st k f
    let mine := fun (j : Nat) => (s.bin core j).threads ≠ [] ∧ (s.bin core j).team = s.teamId ∧
      (s.bin core j).entry = target ∧ (s.bin core j).threads.length < 32
    let a := s.rdG g.toNat
    let lines := (List.range 3).map fun k => a + BitVec.ofNat 64 (128 * k)
    let q := s.grid.sub.queue
    let x := s.queue q
    let ls := s.activeLanes
    let v := fun (l i : Nat) => s.rdV (4 * k.toNat + i) l
    let threads := ls.map fun l => ((v l 3 ++ v l 2 ++ v l 1 ++ v l 0 : BitVec 128))
    (s.active = 0 → ∃ t, exec i s = .next t ∧ s.completes t s.nextSplit {} false) ∧
    (s.active ≠ 0 → ¬legal → s.refusesOperand i) ∧
    (∀ j, s.active ≠ 0 → legal → s.mayGo → s.atomicsOpen s.gid true = false → (s.replicated = false ∨ s.spl.token = true) → j < 8 →
      (mine j → (∀ m, m < j → ¬mine m) →
        let b := { s.bin core j with threads := (s.bin core j).threads ++ threads }
        (b.threads.length < 32 → exec i s = .next ((s.setBin core j b).retire)) ∧
        (b.threads.length = 32 → s.grp.live = true →
          (s.canStart core b = false → exec i s = .next ((s.setBin core j { b with due := true }).retire)) ∧
          (s.canStart core b = true → ∃ t, exec i s = .next t ∧ t.bin core j = {} ∧ t.spl = s.nextSplit ∧ t.regs.clock = s.regs.clock + 1 ∧
            let n := AMap.get {} t.groups (32 * s.teamId + s.freeIndexOf s.teamId)
            n.live = true ∧ n.place.core = core ∧ n.place.threads = 0xFFFFFFFF ∧ (AMap.get {} n.ctx.splits 0).pc = target ∧
            (AMap.get {} n.ctx.splits 0).mask = 0xFFFFFFFF ∧ (∀ m, m < 16 → n.ctx.regs.getG m = b.g.getD m 0) ∧
            ∀ l m, l < 32 → m < 4 → n.ctx.regs.getV m l = (b.threads.getD l 0).extractLsb' (32 * m) 32))) ∧
      ((∀ m, m < 8 → ¬mine m) → (s.bin core j).threads = [] → (∀ m, m < j → (s.bin core m).threads ≠ []) → ls.length < 32 →
        ∃ o, (∀ m, m < 8 → (s.bin core m).order < o) ∧ exec i s = .next ((s.setBin core j
          { team := s.teamId, entry := target, threads := threads, timer := s.cp.binTimer,
            g := (List.range 16).map fun n => s.rdG n, order := o }).retire))) ∧
    (s.mayGo → ((∀ j, j < 8 → (s.bin core j).team ≠ s.teamId ∨ (s.bin core j).threads = []) →
        ∃ t, exec (.bflush st) s = .next t ∧ s.completes t s.nextSplit {} false) ∧
      ∃ t, exec (.bflush st) s = .next t ∧
        ∀ j, j < 8 → (t.bin core j).team = s.teamId → (t.bin core j).threads = [] ∨ (t.bin core j).due = true) ∧
    (a.toNat % 128 ≠ 0 → exec (.launch st g) s = .next (s.fault (s.ownFault 0x05 0 (a.setWidth 56) 0))) ∧
    (a.toNat % 128 = 0 → (∀ y ∈ lines, ∃ leaf va pa, s.target y .read = .ok (.memory leaf va pa)) →
      (∀ e ∈ s.places .read lines, s.needsForced e.2 128 false = false ∧ s.blocked e.2 128 true = none ∧
        s.dataFault 128 .read e.1 e.2 = none) → s.atomicsOpen s.gid true = false → s.deterministic = false → s.replicated = false →
      let n : DWord := 0x8000000000000000 + (x.devNum + 1)
      ∃ t, exec (.launch st g) s = .next t ∧ t.spl = s.nextSplit ∧ (∀ j, j ≠ s.slot → t.splitAt j = s.splitAt j) ∧
        Regs.keeps { g := (· == g.toNat) } s.regs t.regs ∧ s.pends t (.g g.toNat) none ∧
        t.regs.getG g.toNat = (if qctlEn x.ctl = false ∨ Config.deviceStore ≤ s.cp.stored then 0 else n) ∧
        (qctlEn x.ctl = false → (t.queue q).stat = x.stat ||| 2) ∧
        (qctlEn x.ctl = true → Config.deviceStore ≤ s.cp.stored → (t.queue q).stat = x.stat ||| 8) ∧
        (qctlEn x.ctl = true → s.cp.stored < Config.deviceStore →
          let h := t.gridAt s.cp.nextGrid
          let taken := t.cp.nextGrid = s.cp.nextGrid + 1 ∧ t.cp.stored = s.cp.stored + 1 ∧ h.live = true ∧ h.phase = .waiting ∧
            h.sub.queue = q ∧ h.sub.device = true ∧ h.sub.seq = n ∧ h.sub.team = s.teamId ∧ h.sub.order = s.cp.order + 1 ∧
            h.asid = s.grid.asid ∧ h.prio ≤ qctlPcap x.ctl
          (t.queue q).devNum = x.devNum + 1 ∧ (taken ∨ (t.cp.nextGrid = s.cp.nextGrid ∧ t.cp.stored = s.cp.stored)) ∧
          ((∀ j, s.quiet j = true) → (∀ e ∈ s.places .read lines, ∃ leaf va pa, e.2 = .memory leaf va pa ∧ leaf.tiled = false) →
            let r := numberOf 384 fun j => s.byteAt ((s.placeOf .read (a + BitVec.ofNat 64 (j / 128 * 128))).phys + j % 128)
            ∀ m k, s.completionOf s.grid.asid r ≠ none → s.kernelAt s.grid.asid (field r 0 8) = some (m, k) →
              (∀ e ∈ s.recordFaults r true k, e.2 = false) →
              taken ∧ h.launch = recordLaunch r k ∧ h.ranges = recordRanges r)))
/-- R8, R42, R43, R459, R460, R477: what the host writes into a queue's registers and into BAR0. RING, and a write of EN with
an illegal LOGN, are log 30; the offset past BAR0, which this statement leaves out, log 33. -/
def Obligations.QueueRegisters : Prop :=
  ∀ (s : State) (q off : Nat) (v : BitVec 32) (w : BitVec 64),
    let x := s.queue q
    let en := x.ctl.getLsbD 0
    let y : Word := v &&& 0xFFFF00FF
    let z : DWord := w &&& 0x00FFFFFFFFFF0000
    let same := y.extractLsb' 16 16 = x.ctl.extractLsb' 16 16 ∧ y.extractLsb' 1 4 = x.ctl.extractLsb' 1 4
    let logn := (y.extractLsb' 1 4).toNat
    let tail := (v.extractLsb' 0 12).toNat
    let off_ := 0x10000 + 64 * q
    q < 64 →
    (en = true → ¬same → exec (.qctlWrite q v) s = .next (s.setQueue q { x with stat := x.stat ||| 4 })) ∧
    ((en = true ∧ same) ∨ (en = false ∧ y.getLsbD 0 = false) → exec (.qctlWrite q v) s = .next (s.setQueue q { x with ctl := y })) ∧
    (en = false → y.getLsbD 0 = true → logn < 4 ∨ 12 < logn →
      exec (.qctlWrite q v) s = .next (s.setQueue q { x with ctl := y &&& 0xFFFFFFFE, stat := x.stat ||| 4 })) ∧
    (en = false → y.getLsbD 0 = true → 4 ≤ logn → logn ≤ 12 → ∃ t, exec (.qctlWrite q v) s = .next t ∧
      t.queue q = { x with ctl := y, head := 0, tail := 0, done := 0, doneSet := [], hostNum := 0, enGen := x.enGen + 1 } ∧
      (∀ j, j ≠ q → t.queue j = s.queue j) ∧ t.mem = s.mem ∧ t.groups = s.groups) ∧
    (en = false → exec (.qbaseWrite q w) s = .next (s.setQueue q { x with base := z })) ∧
    (en = true → z = x.base → exec (.qbaseWrite q w) s = .next s) ∧
    (en = true → z ≠ x.base → exec (.qbaseWrite q w) s = .next (s.setQueue q { x with stat := x.stat ||| 4 })) ∧
    (s.level = 0 ∨ en = false → exec (.qtailDoorbell q v) s = .next (s.setQueue q { x with stat := x.stat ||| 2 })) ∧
    (s.level ≠ 0 → en = true →
      (2 ^ (x.ctl.extractLsb' 1 4).toNat ≤ tail →
        exec (.qtailDoorbell q v) s = .next (s.setQueue q { x with stat := x.stat ||| 1 })) ∧
      (tail < 2 ^ (x.ctl.extractLsb' 1 4).toNat →
        exec (.qtailDoorbell q v) s = .next (s.setQueue q { x with tail := v.extractLsb' 0 12, stopped := false }))) ∧
    exec (.qstatClear q v) s =
      .next (s.setQueue q { x with stat := x.stat &&& ~~~v, stopped := x.stopped && !v.getLsbD 4 }) ∧
    exec (.registerWrite 0x100 w) s = .next { s with host := { s.host with asidtab := w &&& 0x000FFFFFFFFFF000 } } ∧
    exec (.registerWrite off_ w) s = exec (.qbaseWrite q w) s ∧
    exec (.registerWrite (off_ + 0x08) w) s = exec (.qctlWrite q (w.extractLsb' 0 32)) s ∧
    exec (.registerWrite (off_ + 0x0C) w) s = exec (.qtailDoorbell q (w.extractLsb' 0 32)) s ∧
    exec (.registerWrite (off_ + 0x20) w) s = exec (.qstatClear q (w.extractLsb' 0 32)) s ∧
    (off < 2 ^ 24 → off ≠ 0x100 → (off < 0x10000 ∨ 0x11000 ≤ off ∨ off % 64 ∉ [0x00, 0x08, 0x0C, 0x20]) →
      exec (.registerWrite off w) s = .next s)

/-- R28, R42 to R60, R415, R455, R456: the life of a launch: the image, the record, arbitration, age, the lease, admission,
cancellation, the end of a cluster and of the grid. The comparison of ENTRY and reserved bytes is log 22, the order of the
lease's tests log 23, the first cause log 28; firmware's choices are the operands (log 27). -/
def Obligations.LaunchEvents : Prop :=
  ∀ (s : State) (grid asid va len cluster origin q : Nat) (token : BitVec 32),
    let g := s.gridAt grid
    let others := s.cp.images.filter fun j => !(j.asid == asid && j.va == va)
    (va < 2 ^ 64 → (s.readImage asid va len = none →
        exec (.imageLoad asid (va + 2 ^ 64 * len)) s = .next { s with cp := { s.cp with images := others } }) ∧
      ∀ i, s.readImage asid va len = some i →
        exec (.imageLoad asid (va + 2 ^ 64 * len)) s = .next { s with cp := { s.cp with images := i :: others } }) ∧
    (s.queueOrder.find? s.hasRecord = some q →
      let x := s.queue q
      ∃ t, exec .recordRead s = .next t ∧ t.cp.lastQueue = q ∧ t.groups = s.groups ∧
        ∀ root, s.rootOf (qctlAsid x.ctl) = some root →
          (s.readVirt root (x.base.toNat + 384 * x.head.toNat) 384 = none →
            t.queue q = { x with stat := x.stat ||| 0x10, stopped := true }) ∧
          (s.readVirt root (x.base.toNat + 384 * x.head.toNat) 384 ≠ none →
            (t.queue q).head = BitVec.ofNat 12 ((x.head.toNat + 1) % 2 ^ qctlLogn x.ctl) ∧ (t.queue q).hostNum = x.hostNum + 1)) ∧
    (∀ k l, let ready := (s.noteMet.grids.filter fun e => e.2.ready)
      (∀ e ∈ ready, e.2.age < 64) → firstLaunch ready = some (k, l) → s.noteMet.blockedBy l = false →
      ∃ t, exec .launchArbitration s = .next t ∧ (t.gridAt k).phase = .taken ∧ t.mem = s.mem ∧ t.groups = s.groups ∧
        ∀ j, j ≠ k → (t.gridAt j).phase = (s.gridAt j).phase) ∧
    (g.ready = true → 64 ≤ g.age →
      exec (.launchAgeRise grid) s = .next (s.setGridAt grid { g with prio := min 7 (g.prio + 1), age := 0 })) ∧
    (let u := s.noteMet
     let g := u.gridAt grid
     g.over = false → g.leased = false → g.next = 0 → g.deps = [] → s.level ≠ 0 →
      (s.rootOf g.asid = none → ∃ t, exec (.leaseInstall grid) s = .next t ∧ (t.gridAt grid).live = false ∧
        (t.gridAt grid).phase = .retired ∧ (t.gridAt grid).ending.status = 1 ∧ (t.gridAt grid).ending.detail = 15) ∧
      (∀ root code, s.rootOf g.asid = some root → u.checkLease grid root = .reject code →
        ∃ t, exec (.leaseInstall grid) s = .next t ∧ (t.gridAt grid).live = false ∧ (t.gridAt grid).phase = .retired ∧
          (t.gridAt grid).ending.status = 1 ∧ (t.gridAt grid).ending.detail = code) ∧
      (∀ root leaves gates, s.rootOf g.asid = some root → u.checkLease grid root = .ok leaves gates →
        ∃ t, exec (.leaseInstall grid) s = .next t ∧ t.groups = s.groups ∧
          t.gridAt grid = { g with
            leased := true, root := root, gates := gates
            trans := leaves.foldl (fun m e => AMap.set m e.1 { leafFields e.2.bits with valid := true, flipped := false }) [] })) ∧
    (∀ cores, s.atHead g = true → s.blockedBy g = false → s.cp.snuffs = [] → g.launch.coresident = false →
      g.launch.replicas = 0 → g.launch.groups ≤ 32 → (s.permittedSets 0).contains [origin / 72] = true → s.roomAt g.launch origin = some cores →
      ∃ t, exec (.clusterAdmit grid [origin]) s = .next t ∧ (t.gridAt grid).next = g.next + 1 ∧
        let c := s.cp.nextCluster
        (t.clusterAt c).live = true ∧ (t.clusterAt c).grid = grid ∧ (t.clusterAt c).cluidx = g.next ∧
        (t.clusterAt c).origin = origin ∧
        ∀ p core, cores[p]? = some core → (t.teamAt (12 * c + p)).live = true ∧ (t.teamAt (12 * c + p)).core = core ∧
          ∀ k, k < g.launch.groups → let x := AMap.get {} t.groups (32 * (12 * c + p) + k)
            x.live = true ∧ x.place.core = core ∧ (AMap.get {} x.ctx.splits 0).live = true ∧
            (AMap.get {} x.ctx.splits 0).pc = BitVec.ofNat 56 g.kernel.entry ∧ (AMap.get {} x.ctx.splits 0).mask = 0xFFFFFFFF) ∧
    (token ∈ s.cp.snuffs → (∀ e ∈ s.grids, s.gridAt e.1 = e.2 ∧ (e.2.launch.snuff = token → e.2.next = 0)) →
      ∃ t, exec (.snuffCancel token) s = .next t ∧ t.cp.snuffs = s.cp.snuffs.erase token ∧ t.groups = s.groups ∧
        ∀ e ∈ s.grids, token ≠ 0 → e.2.launch.snuff = token → e.2.over = false →
          (t.gridAt e.1).phase = .retired ∧ (t.gridAt e.1).live = false ∧ (t.gridAt e.1).ending.status = 3) ∧
    (let x := s.clusterAt cluster
     let teams := s.teamsOf cluster
     x.live = true → x.act ≠ .ended → ((s.gridAt x.grid).ending.failed = true ∨ ∀ t ∈ teams, (s.teamAt t).ended = true) →
     (∀ t ∈ teams, (s.teamAt t).drained = true) → (∀ o ∈ s.host.atomics, o.gid / 384 ≠ cluster) →
     ((s.gridAt x.grid).ending.failed = true ∨ ∀ e ∈ s.groups, e.1 / 384 = cluster → e.2.nft = none) →
     ∃ t, exec (.clusterEnd cluster) s = .next t ∧ (t.clusterAt cluster).act = .ended ∧
       ∀ k, k / 384 = cluster → (AMap.get {} t.groups k).live = false) ∧
    (g.live = true → g.phase = .taken → (∀ c ∈ s.clustersOf grid, (s.clusterAt c).act = .ended) →
      (g.ending.failed = true ∨ g.ending.snuffed = true ∨ g.next = g.launch.clusters) →
      ∃ t, exec (.gridRetire grid) s = .next t ∧ (t.gridAt grid).live = false ∧ (t.gridAt grid).phase = .retired ∧
        (t.gridAt grid).leased = false ∧ t.groups = s.groups)

/-- R55, R59 to R72, R444, R446: a cluster is asked to stop, or let go; it is saved, parked, and goes on; a bin's group
starts, and a `spawn` that waited goes on. The save area is log 25, the operands of `clusterResume` log 26, the time of
results log 12. -/
def Obligations.StopsAndBins : Prop :=
  ∀ (s : State) (c area place core k group slot : Nat) (park : Bool),
    let x := s.clusterAt c
    let g := s.gridAt x.grid
    let l := s.unit c
    let b := s.bin core k
    let starts := fun (t : State) =>
      let n := AMap.get {} t.groups (32 * b.team + s.freeIndexOf b.team)
      t.bin core k = {} ∧ n.live = true ∧ n.place.core = core ∧ n.place.threads = BitVec.ofNat 32 (2 ^ b.threads.length - 1) ∧
        (AMap.get {} n.ctx.splits 0).pc = b.entry ∧ n.ctx.regs.clock = 0
    let u := s.at_ group slot
    (x.live = true → x.act = .active → x.stop = none → g.over = false → (park = true ∨ s.mayPreempt g = true) →
      ∃ t, exec (.preemptRequest c park) s = .next t ∧ t.groups = s.groups ∧
        ∀ j, t.clusterAt j = if j ∈ l then { s.clusterAt j with stop := some s.time.cycle } else s.clusterAt j) ∧
    (∀ n, x.stop = some n → x.act = .active → n + 2 ^ 20 ≤ s.time.cycle → s.unitStands l = false →
      ∃ t, exec (.preemptWithdraw c) s = .next t ∧
        ∀ j, t.clusterAt j = if j ∈ l then { s.clusterAt j with stop := none } else s.clusterAt j) ∧
    (s.unitQuiet l = true → s.areaLegal area (s.saveBytes l) = true →
      ∃ t, exec (.clusterPreempt c area) s = .next t ∧ (∀ j ∈ l, (t.clusterAt j).act = .saved ∧ (t.clusterAt j).stop = none) ∧
        (l = [c] → (t.clusterAt c).area = area)) ∧
    (s.unitQuiet l = true → s.areaLegal area (s.parkSize l) = true → s.cores.all (fun e => e.2.locks.all fun f => !(l.flatMap s.teamsOf).contains f.scratch) = true →
      (∀ t ∈ l.flatMap s.teamsOf, s.parkedGroups (s.teamAt t).core +
        (((l.flatMap s.teamsOf).filter fun u => (s.teamAt u).core == (s.teamAt t).core).flatMap s.groupsOf).length ≤ 96) →
      ∃ t, exec (.clusterPark c area) s = .next t ∧ (∀ j ∈ l, (t.clusterAt j).act = .parked ∧ (t.clusterAt j).stop = none) ∧
        (l = [c] → (t.clusterAt c).area = area)) ∧
    (l = [c] → x.act = .parked → s.fitsBack c = true → ∃ t, exec (.clusterUnpark c) s = .next t ∧ (t.clusterAt c).act = .active ∧
      t.mem = s.mem ∧ ((s.teamsOf c).Nodup → ∀ j ∈ s.teamsOf c, (t.teamAt j).run = (s.teamAt j).run + 1)) ∧
    (∀ u t, l = [c] → x.act = .saved → g.over = false → (s.permittedSets g.launch.replicas).contains [place % 288 / 72] = true →
      s.resumeCluster c (place % 288) = some u → u.placeBins c x.bins = some t →
      exec (.clusterResume c place) s = .next t ∧ (t.clusterAt c).act = .active ∧ (t.clusterAt c).origin = place % 288) ∧
    (b.threads ≠ [] → b.timer = 0 → b.due = false → s.timersStopped b.team = false →
      ∃ t, exec (.binTimerExpiry core k) s = .next t ∧ (s.canStart core b = true → starts t) ∧
        (s.canStart core b = false → t = s.setBin core k { b with due := true })) ∧
    (b.due = true → s.canStart core b = true → ∃ t, exec (.binGroupStart core k) s = .next t ∧ starts t) ∧
    (∀ left entry args, u.spl.wait = some (.spawn left entry args) → u.groupRuns = true → u.canPlace entry = true →
      let v := State.placeThreads entry args left u
      exec (.spawnResume group slot) s = .next (s.back
        (if v.2 = [] then v.1.retire.settleGroup else v.1.waitFor (.spawn v.2 entry args))))

/-- R89, R105 to R112, R128, R141, R220, R238, R239, R254 to R260, R439, R443, R449: what becomes of an instruction or a
command after it has issued, and what stands before the next. The records of a non-finite trap are log 19, the time of results
log 12, an instruction that waits log 17, whole commands log 10, peer adds log 45. -/
def Obligations.UnitEvents : Prop :=
  ∀ (s : State) (group slot core idx team ctx num die cls : Nat) (tseq w : BitVec 32) (adda addb : BitVec 56),
    let u := s.at_ group slot
    let x := u.spl
    let c := s.coreAt core
    let t1 := s.ofTeam team
    ((s.accepted w).isNone = true → exec (.illegalInstruction w) s = .next (s.fault (s.ownFault 0x01 0 0 0))) ∧
    (∀ word, x.live = true → x.word = none → x.wait = none → u.fetch x.pc = some word →
      exec (.instructionFetch group slot) s = .next (s.back (u.setSpl { x with word := some word }))) ∧
    (x.live = true → 192 ≤ x.sched.age →
      exec (.splitUrgent group slot) s = .next (s.back (u.setSpl { x with sched := { x.sched with urgent := true } }))) ∧
    (∀ word i, u.wordAt slot = some word → u.accepted word = some i → u.standing slot = .ready → x.wait = none →
      4096 ≤ x.dist → u.handlerMode = false → isSafe i = false →
      let v := u.beginIssue (word.extractLsb' 29 3).toNat
      exec (.safePointDistance group slot) s = .next (s.back (v.fault (v.ownFault 0x0A 0 0 0)))) ∧
    (∀ e ∈ (AMap.get {} s.groups group).inflight, e.tseq = tseq → e.ready = none → s.resultHeld group tseq = false →
      (s.at_ group 0).lostMiss group tseq = none →
      ∃ t, exec (.variableLatencyResult group tseq) s = .next t ∧ t.mem = s.mem ∧
        (AMap.get {} t.groups group).ctx.regs = (AMap.get {} s.groups group).ctx.regs ∧
        ∀ f ∈ (AMap.get {} t.groups group).inflight, f.tseq = tseq → f.ready ≠ none) ∧
    (∀ e, u.grp.inflight.find? (fun e => e.slot == slot && e.tseq == tseq && e.ready.isNone && e.before.isSome) = some e →
      x.live = true → 5 ≤ cls → cls ≤ 9 → cls ≠ 7 → (∀ n, x.solid = some n → seqBefore n tseq = true) →
      u.resultHeld group tseq = false → s.time.turn ≤ slotNumber group u.grp →
      ∃ t, exec (.deferredFault group slot tseq cls adda addb) s = .next t ∧
        let v := t.at_ group slot
        let b := e.before.getD {}
        { slot := slot, cls := cls, detail := 0, pc := b.pc, mask := b.mask, tseq := tseq, adda := adda, addb := addb } ∈ v.grp.pending ∧
        v.spl.pc = b.pc ∧ v.spl.mask = b.mask ∧ v.frozen slot = true ∧
        v.regs.clock = u.regs.clock - BitVec.ofNat 64 (x.dist - b.dist) ∧ t.mem = s.mem ∧
        (∀ f ∈ v.grp.inflight, f.slot = slot → seqBefore f.tseq tseq = true) ∧
        (u.grp.inflight = [e] → v.regs = { (u.regs.restore e.reg e.lanes e.old) with clock := v.regs.clock })) ∧
    (∀ pc n, (AMap.get {} s.groups group).nft = some (pc, n) → s.leads group = true →
      let g := (s.at_ group 0).grid
      ∃ t, exec (.nonFiniteTrap group) s = .next t ∧ t.gid = s.gid ∧ t.slot = s.slot ∧
        (g.ending.snuffed = false → g.ending.failed = false →
          ∃ r ∈ t.lamp.log, r.kind = 0x0004 ∧ r.detail = g.launch.snuff ∧ r.value = pc.setWidth 64) ∧
        (g.ending.snuffed = true ∨ g.ending.failed = true → ∃ r ∈ t.lamp.log, r.kind = 0x000F ∧ r.detail = g.launch.snuff)) ∧
    (∀ m, c.misses[idx]? = some m →
      (m.entry = 0 → (c.misses.filter fun o => o.entry == 1).length < Config.mshrOrdinary → exec (.mshrRetry core idx) s =
        .next (s.setCoreAt core { c with misses := c.misses.set idx { m with entry := 1 } })) ∧
      (m.entry = 0 → Config.mshrOrdinary ≤ (c.misses.filter fun o => o.entry == 1).length → exec (.mshrRetry core idx) s =
        .next (s.setCoreAt core { c with misses := c.misses.set idx { m with age := m.age + 1 } })) ∧
      (m.entry = 0 → 64 ≤ m.age → (c.misses.filter fun o => o.entry == 2).length < Config.mshrReserved →
        (∀ o ∈ c.misses, o.entry ≠ 0 ∨ o.age ≤ m.age) → exec (.mshrAged core idx) s =
        .next (s.setCoreAt core { c with misses := c.misses.set idx { m with entry := 2 } }))) ∧
    (∀ d q, (t1.ctx ctx).queue.find? (fun d => !d.started) = some d → d.guard = .pending q → t1.guardReady d = true →
      ∃ t, exec (.guardResolve team ctx) s = .next t ∧ t.mem = s.mem ∧ t.groups = s.groups ∧
        { d with guard := if (AMap.get {} s.groups d.gid).ctx.regs.getQ q && !d.dropped && !t1.gridDone then .runs
                          else .discarded } ∈ ((t.ofTeam team).ctx ctx).queue) ∧
    (∀ d, (t1.ctx ctx).queue.find? (fun d => !d.started) = some d →
      (d.guard = .discarded → exec (.engineCommandStart team ctx) s =
        .next (s.back ((s.at_ d.gid d.slot).completeCmd ctx d))) ∧
      (∀ v, d.guard = .runs → d.waits = false → (s.at_ d.gid d.slot).cluster.act = .active →
        (d.posted = true → (s.at_ d.gid d.slot).grid.ending.snuffed = false ∧ (s.at_ d.gid d.slot).grid.ending.failed = false) →
        (∀ o ∈ s.host.atomics, o.gid = d.gid → seqBefore o.tseq d.tseq = false) → (s.at_ d.gid d.slot).startCommand ctx d = some v → exec (.engineCommandStart team ctx) s = .next (s.back v))) ∧
    (∀ d rest, (t1.ctx ctx).queue = d :: rest → d.num = num → d.started = true → d.done = false → d.gid / 32 = team →
      onceCommand d.op = false → isShade d.op = false → (s.at_ d.gid d.slot).performed d = true →
      ∃ t, exec (.engineCommandComplete team ctx num) s = .next t ∧
        ((s.at_ d.gid d.slot).replicated = false → d.pend = [] → ctlNtf d.control = false → (∀ a b c, d.op ≠ .mdrp a b c) →
          (∀ f ∈ rest, f.num ≠ num ∧ f.done = false) →
          ((t.ofTeam team).ctx ctx).counter = BitVec.ofNat 64 num ∧ ((t.ofTeam team).ctx ctx).queue = rest)) ∧
    (∀ d, firstTransfer (s.transfers die) = some d →
      exec (.collectiveChunkBoundary die) s = .next (s.back ((s.at_ d.gid d.slot).sendChunk d))) ∧
    (∀ m, s.peers[idx]? = some m →
      let v := s.at_ m.target 0
      v.cluster.act = .active → (s.at_ m.gid 0).peerBehind m = false → v.grp.live = true → v.regs.openAcc.getLsbD m.block = true →
      ∃ t, exec (.peerAdd idx) s = .next t ∧ t.peers = s.peers.eraseIdx idx ∧ t.mem = s.mem ∧
        let r := (AMap.get {} t.groups m.target).ctx.regs
        (∀ k row j, (lanes.filter m.mask.has)[k]? = some row → j < 8 → r.getAcc m.block row j =
          BitVec.ofNat 32 (Fmt.f32.roundTo {} (Fl.add false (Fmt.f32.value (v.regs.getAcc m.block row j).toNat)
            (Fmt.f32.value (m.data.getD (8 * k + j) 0).toNat)))) ∧
        ∀ n row j, row < 32 → j < 8 → (n ≠ m.block ∨ m.mask.has row = false) → r.getAcc n row j = v.regs.getAcc n row j)

/-- R218, R219, R231, R234, R236, R347, R348, R357 to R368, R458, R472, R473, R479: the steps of the coherence protocol and of
the wick as they stand alone, a page's flip to the host, a torn pair, and what the host reads and writes. How the protocol's
steps appear as events is log 35, the tiles that a host access knows log 9, the entry that `binv` names log 8. -/
def Obligations.ProtocolEvents : Prop :=
  ∀ (s : State) (agent line core pa asid va vb group bytes x y op : Nat) (mask : BitVec 128) (data : BitVec 1024)
    (tseq : BitVec 32) (ok : Bool),
    let e := s.dirEntry line
    let does := fun (i : Instr) (p : State → Prop) => ∃ t, exec i s = .next t ∧ (s.uncrowded = true → State.onlyLine line s t ∧ p t)
    let ent := fun (t : State) => t.dirEntry line
    let sent := fun (t : State) (m : Msg) => m ∈ t.mem.msgs
    let all := BitVec.allOnes 128
    let owned := fun (a : Nat) (bytes : BitVec 1024) (t : State) =>
      (e.busy = true → (ent t).waiting = e.waiting ++ [.own a mask bytes]) ∧
      (e.busy = false → e.st ≠ 4 →
        (e.holders = [] ∨ (e.exclusive = false ∧ e.holders = [a]) → (ent t).ag = agBit a ∧ (ent t).st = 3 ∧
          ((ent t).copy a).dirty = mask ∧ ((ent t).copy a).data = blend mask bytes (s.homeLine line) ∧ sent t (.data line a)) ∧
        (∀ x, e.exclusive = true → e.holders.head? = some x → x ≠ a →
          (privatises e line x a mask = false → (ent t).busy = true ∧ (ent t).serving = some (.own a mask bytes) ∧
            (ent t).ag = e.ag ∧ sent t (.fwd line x)) ∧
          (privatises e line x a mask = true → (ent t).st = 4 ∧ (ent t).ag = e.ag ||| agBit a ∧
            ((ent t).copy x).claim = (e.copy x).dirty ∧ ((ent t).copy a).claim = mask ∧ sent t (.data line a))) ∧
        (e.exclusive = false → ∀ x ∈ e.holders, x ≠ a →
          (ent t).busy = true ∧ (ent t).serving = some (.own a mask bytes) ∧ sent t (.inv line x))) ∧
      (e.busy = false → e.st = 4 →
        (e.ag.getLsbD a = false ∨ mask &&& e.otherClaims a ≠ 0 → (ent t).ag = agBit a ∧ (ent t).st = 3 ∧ sent t (.data line a)) ∧
        (e.ag.getLsbD a = true → mask &&& e.otherClaims a = 0 →
          (ent t).st = 4 ∧ ((ent t).copy a).claim = (e.copy a).claim ||| mask))
    let gives := fun (a : Nat) (t : State) => AMap.has e.copies a = true →
      AMap.has (ent t).copies a = false ∧
      sent t (if e.exclusive && (e.copy a).dirty != 0 then .wbData line a (e.copy a).data (e.copy a).dirty false else .invAck line a)
    let home := fun (t : State) (d : BitVec 1024) (w : BitVec 128) => Memory.wf s.mem.bytes = true →
      ∀ k, k < 128 → t.byteAt (128 * line + k) = if w.getLsbD k then lineByte d k else s.byteAt (128 * line + k)
    let m := agent - 5
    let first := s.uncrowded = true ∧ e = {} ∧ (s.switchEntry line).st = 0 ∧ m ∉ (s.switchEntry line).modules ∧ ∀ x ∈ s.mem.msgs, x.line ≠ line
    let sorted := (s.coreAt core).l1.Pairwise fun a b => a.1 < b.1
    let w := s.wick line
    let l := pa / 128
    let answered := fun (t : State) (d : BitVec 1024) =>
      t.host.answers = (some d, false) :: s.host.answers ∧ t.groups = s.groups
    let may := s.hostMay pa = true ∧ s.hostPoisoned l (BitVec.allOnes 128) = false
    let quiet := s.atRest l = true ∧ s.uncrowded = true ∧ s.tileOf (128 * l) = none
    let alive := (homeDie l).any s.lamp.failed.contains = false
    (agent < 5 → s.agentOf agent line = true → e.ag.getLsbD agent = false → (agent = 4 → s.hostMay (128 * line) = true) →
      does (.read agent line) fun t =>
        (e.busy = true → (ent t).waiting = e.waiting ++ [.read agent all]) ∧
        (e.busy = false → e.st = 4 → (ent t).ag = agBit agent ∧ (ent t).st = 2 ∧ sent t (.data line agent)) ∧
        (e.busy = false → e.st ≠ 4 → e.exclusive = false → (ent t).ag = e.ag ||| agBit agent ∧
          (ent t).st = (if e.ag = 0 then 2 else 1) ∧ ((ent t).copy agent).data = s.homeLine line ∧ sent t (.data line agent)) ∧
        ∀ x, e.busy = false → e.exclusive = true → e.holders.head? = some x →
          (ent t).busy = true ∧ (ent t).serving = some (.read agent all) ∧ (ent t).ag = e.ag ∧ sent t (.fwd line x)) ∧
    (s.agentOf 4 line = true → mask ≠ 0 → s.hostMay (128 * line) = true → s.tileOf (128 * line) = none →
      does (.own 4 line mask data) (owned 4 data)) ∧
    (5 ≤ agent → s.moduleAsks m line = true → first →
      (∃ t, exec (.read agent line) s = .next t ∧ State.onlyLine line s t ∧ (t.dirEntry line).ag = agBit 5 ∧
        (t.switchEntry line).st = 2 ∧ (t.switchEntry line).modules = [m]) ∧
      (mask ≠ 0 → s.tileOf (128 * line) = none → ∃ t, exec (.own agent line mask data) s = .next t ∧ State.onlyLine line s t ∧ (t.dirEntry line).ag = agBit 5 ∧
        (t.switchEntry line).st = 3 ∧ (t.switchEntry line).modules = [m])) ∧
    (∀ c, agent < 4 → s.agentOf agent line = true → s.writerOf agent line mask data = some c → s.ownsBytes agent line mask = false →
      ∃ t, exec (.own agent line mask data) s = .next t ∧ (t.l1 c line).dirty = 0 ∧ t.groups = s.groups ∧
        (s.uncrowded = true → (s.l1 c line).tile = none → (s.l1 c line).dirty = mask → owned agent (s.l1 c line).data t)) ∧
    (∀ d c, homeDie line = some d → s.writerOf d line mask data = some c →
      exec (.homeWrite line mask data) s = .next (s.writeBack c line)) ∧
    (kindOf (128 * line) = 2 → s.fabricOn = true → AMap.has s.mem.peerLines line = false → s.poisoned line = false → mask ≠ 0 →
      exec (.homeWrite line mask data) s = .next (s.putHome line mask data)) ∧
    (s.agentOf agent line = true → e.st = 4 → e.busy = false → e.ag.getLsbD agent = true →
      mask &&& ~~~(e.copy agent).claim ≠ 0 → does (.claimAccess agent line mask) fun t =>
        let more := mask &&& ~~~(e.copy agent).claim
        (more &&& e.otherClaims agent = 0 → (ent t).st = 4 ∧ ((ent t).copy agent).claim = (e.copy agent).claim ||| mask ∧
          ((ent t).copy agent).data = blend more (s.homeLine line) (e.copy agent).data) ∧
        (more &&& e.otherClaims agent ≠ 0 → (ent t).ag = agBit agent ∧ (ent t).st = 2 ∧ sent t (.data line agent))) ∧
    (∀ m ∈ s.mem.msgs, s.mayArrive m = true →
      let only := ∀ x ∈ s.mem.msgs, x.line = line → x = m
      (∀ a, m = .fwd line a → does (.fwd line) fun t => only → AMap.has e.copies a = true → e.busy = true →
        (∀ b w, e.serving = some (.read b w) → sent t (.fwdData line b (e.copy a).data 0 false) ∧
          sent t (.wbData line a (e.copy a).data (e.copy a).dirty true) ∧ AMap.has (ent t).copies a = true ∧ ((ent t).copy a).dirty = 0) ∧
        (∀ b w x, e.serving = some (.own b w x) → AMap.has (ent t).copies a = false ∧
          sent t (.fwdData line b (blend w x (e.copy a).data) ((e.copy a).dirty ||| w) true)) ∧
        (∀ w x z, e.serving = some (.homeWrite w x z) → AMap.has (ent t).copies a = false ∧
          sent t (.wbData line a (e.copy a).data (e.copy a).dirty false))) ∧
      (∀ a d w o, m = .fwdData line a d w o → does (.fwdData line) fun t => only → a < 6 →
        (o = true → e.waiting = [] → (ent t).ag = agBit a ∧ (ent t).st = 3 ∧ (ent t).busy = false ∧ ((ent t).copy a).data = d ∧
          ((ent t).copy a).dirty = w ∧ (e.cnt ≠ 3 → (ent t).cnt = e.cnt + 1)) ∧
        (o = false → e.busy = true → AMap.has e.copies a = false → ((ent t).copy a).data = d ∧ ((ent t).copy a).here = true)) ∧
      (∀ x d w k, m = .wbData line x d w k → does (.wbData line) fun t => only → e.waiting = [] →
        (∀ a z, k = true → e.serving = some (.read a z) → a < 6 → home t d w ∧ (ent t).st = 1 ∧ (ent t).ag = e.ag ||| agBit a ∧
          (ent t).busy = false) ∧
        (k = false → e.serving = none → home t d w ∧ (ent t).ag.getLsbD x = false)) ∧
      (m = .inv line agent → does (.inv agent line) fun t => only → gives agent t) ∧
      (m = .binv line agent → does (.binv agent line) fun t => only → gives agent t) ∧
      (m = .invAck line agent → does (.invAck agent line) fun t => only → e.waiting = [] →
        (e.serving = none → (ent t).ag.getLsbD agent = false) ∧
        ∀ b w x, e.busy = true → e.serving = some (.own b w x) → b < 6 → (∀ a ∈ e.holders, a = agent ∨ a = b) →
          (ent t).ag = agBit b ∧ (ent t).st = 3 ∧ (ent t).busy = false ∧ ((ent t).copy b).dirty = w ∧ sent t (.data line b)) ∧
      (m = .data line agent → does (.data agent line) fun t =>
        AMap.has e.copies agent = true → e.ag ≠ 0 → ((ent t).copy agent).here = true)) ∧
    ((∀ m ∈ s.mem.msgs, m.line ≠ line) → e.busy = false → e.ag.getLsbD agent = true → AMap.has e.copies agent = true →
      (e.copy agent).here = true →
      ((e.copy agent).dirty ≠ 0 → does (.wbData line) fun t => (e.st = 4 → (ent t).ag = 0) ∧
        (e.st ≠ 4 → e.holders = [agent] → AMap.has (ent t).copies agent = false ∧
          sent t (.wbData line agent (e.copy agent).data (e.copy agent).dirty false))) ∧
      ((e.copy agent).dirty = 0 → (e.copy agent).claim = 0 → does (.invAck agent line) fun t => (e.st = 4 → (ent t).ag = 0) ∧
        (e.st ≠ 4 → AMap.has (ent t).copies agent = false ∧ sent t (.invAck line agent)))) ∧
    ((∀ m ∈ s.mem.msgs, m.line ≠ line) → kindOf (128 * line) = 2 → AMap.has s.mem.peerLines line = true →
      let st := AMap.get 0 s.mem.peerLines line
      (st = 2 ∨ st = 3 → exec (.fwd line) s = .next (s.setPeer line 1)) ∧
      (st = 1 → exec (.inv 5 line) s = .next { s with mem := { s.mem with peerLines := AMap.drop s.mem.peerLines line } }) ∧
      exec (.binv 5 line) s = .next { s with mem := { s.mem with peerLines := AMap.drop s.mem.peerLines line } }) ∧
    (w.v = true → w.dr = false → (∀ d ∈ s.mem.demands, d.line ≠ line) → s.demandWaits w = false → core = w.coreId → sorted →
      ∃ t, exec (.demand line) s = .next t ∧ (∃ d ∈ t.mem.demands, d.line = line) ∧
        ∀ z ∈ (t.coreAt core).l1, z.2.owner = none → ∀ n, z.2.tag = some n → atOrBefore n w.epoch = true → z.2.dirty = 0) ∧
    (∀ d, s.mem.demands.find? (fun d => d.line == line) = some d → s.ownPending d.die = false →
      ∃ t, exec (.demandAck line) s = .next t ∧ (∀ f ∈ t.mem.demands, f.line ≠ line) ∧ t.groups = s.groups ∧
      (w.v = true → w.die.toNat = d.die → w.core.toNat = d.core → w.epoch = d.epoch → (t.wick line).dr = true)) ∧
    (core ∈ s.mem.epochDue → sorted → ∃ t, exec (.epochWriteback core) s = .next t ∧ t.mem.epochDue = s.mem.epochDue.erase core ∧
      ∀ z ∈ (t.coreAt core).l1, z.2.owner = none → z.2.tag.isSome = true → z.2.dirty = 0) ∧
    (AMap.has (s.coreAt core).l1 line = true → s.heldFor core (s.l1 core line) 65535 = true →
      ∃ t, exec (.tiledLineDrop core line) s = .next t ∧ AMap.has (t.coreAt core).l1 line = false ∧ t.groups = s.groups) ∧
    (∀ root f, s.rootOf asid = some root → s.walk root va = some f → f.legal = true → (leafFields f.bits).valid = true →
      (leafFields f.bits).sa = false → s.pageLeased ((leafFields f.bits).phys va) = false →
      ∃ t, exec (.pageFlipToHost asid va) s = .next t ∧ (asid, va / 65536) ∈ t.host.hostPages ∧ t.groups = s.groups) ∧
    (∀ k word st d a b, (s.at_ group 0).pairSlot va vb = some k → (s.at_ group k).wordAt k = some word →
      (s.at_ group k).accepted word = some (.pst st d a b) →
      let u := ((s.at_ group k).beginIssue (word.extractLsb' 29 3).toNat).noteSolid word
      u.spl.dist < 4096 → u.early (.pst st d a b) = false → ∀ p1 p2 ta tb, u.pairs d a b p1 p2 ta tb →
      ∃ t, exec (.pairTorn group va vb) s = .next (s.back t.settleGroup) ∧
        u.completesMem t { u.nextSplit with rel := none } {} (fun j => ta.touches j || tb.touches j) (fun _ => false) ∧
        (Memory.wf s.mem.bytes = true → u.writesOnly u.spl.rel (u.pairPlaces a b) → ta.header % 32 = 0 → tb.header % 32 = 0 →
          u.atRest (ta.header / 128) = true → u.atRest (tb.header / 128) = true →
          (t.header ta.header).kind = 3 ∧ (t.header tb.header).kind = 3)) ∧
    (s.snooped line = true →
      (∃ t d, exec (.snpData line) s = .next t ∧ answered t d ∧ (s.atRest line = true → d = s.homeLine line)) ∧
      (∃ t, exec (.snpInv line) s = .next t ∧ t.groups = s.groups ∧
        (s.calm = true → (∀ a ∈ e.holders, AMap.has e.copies a = true ∧ (e.copy a).here = true) →
          (e.exclusive = true → e.holders.length ≤ 1) → (t.dirEntry line).ag = 0 ∧
          t.host.answers = (if e.exclusive && e.holders.any fun a => (e.copy a).dirty != 0 then some (t.homeLine line) else none, false)
            :: s.host.answers)) ∧
      exec (.snpCur line) s = .next (s.answer (BitVec.ofNat 1024 (s.physRead (128 * line) 128)) false)) ∧
    (s.plainPcie = false → s.hostMay pa = true → s.hostPoisoned l (BitVec.allOnes 128) = true →
      exec (.memRd pa) s = .next (s.answer 0 true)) ∧
    (s.plainPcie = false → may → ∃ t d, exec (.memRd pa) s = .next t ∧ answered t d ∧
      (quiet → ∀ k, k < 128 → lineByte d k = s.byteAt (128 * l + k))) ∧
    (s.plainPcie = false → s.hostMay pa = true → alive → ∃ t, exec (.memWr pa mask data) s = .next t ∧ t.groups = s.groups ∧
      (quiet → Memory.wf s.mem.bytes = true → ∀ k, k < 128 →
        t.byteAt (128 * l + k) = if mask.getLsbD k then lineByte data k else s.byteAt (128 * l + k))) ∧
    (s.plainPcie = true → may → 0 < bytes → pa % 128 + bytes ≤ 128 →
      (∃ t d, exec (.hostBar2Access false pa bytes x) s = .next t ∧ answered t d ∧
        (quiet → ∀ k, k < bytes → lineByte d k = s.byteAt (pa + k))) ∧
      (alive → ∃ t, exec (.hostBar2Access true pa bytes x) s = .next t ∧ t.groups = s.groups ∧
        (quiet → Memory.wf s.mem.bytes = true → ∀ a, a / 128 = l → t.byteAt a = storeBytes s.byteAt pa bytes x a))) ∧
    ((s.plainPcie = true ∨ kindOf pa = 1) → may → hostOperation op bytes = true → pa % bytes = 0 →
      ((s.wick l).v = true → (s.wick l).dr = false → s.demandWaits (s.wick l) = false) →
      ∃ t d, exec (.hostAtomicop op pa bytes x y) s = .next t ∧ answered t d ∧
        (quiet → Memory.wf s.mem.bytes = true → (s.wick l).v = false →
          let old := numberOf bytes fun k => s.byteAt (pa + k)
          let m := 2 ^ (8 * bytes)
          d = BitVec.ofNat 1024 old ∧ ∀ a, a / 128 = l → t.byteAt a =
            if op = 10 ∧ old ≠ x % m then s.byteAt a
            else storeBytes s.byteAt pa bytes (if op = 0 then (old + x) % m else if op = 9 then x % m else y % m) a)) ∧
    (∀ o, s.host.atomics.find? (fun o => o.gid == group && o.tseq == tseq) = some o →
      ∃ t, exec (.atomicopCompletion group tseq ok) s = .next t ∧ t.host.atomics = s.host.atomics.erase o ∧
        (ok = false → t.mem.bytes = s.mem.bytes ∧ ((s.at_ group o.slot).grid.ending.failed = false →
          (t.gridAt (s.at_ group o.slot).gridId).ending.failed = true)) ∧
        (ok = true → Memory.wf s.mem.bytes = true → (o.lanes.map Prod.fst).Nodup → (∀ z ∈ o.lanes, z.1 < 32 ∧
            s.atRest (z.2.1 / 128) = true ∧ ∀ k, k < o.bytes → (z.2.1 + k) / 128 = z.2.1 / 128) →
          let q := serially o.bytes (fun old z => if isCas o.op && old != z % 2 ^ (8 * o.bytes) then none
            else some (combine o.op o.bytes old z)) (o.lanes.map fun z => z.2) s.byteAt
          (∀ a, s.atRest (a / 128) = true → t.byteAt a = q.2 a) ∧
          (o.returns = true → ∀ c z i, o.lanes[c]? = some z → i < (o.bytes + 3) / 4 →
            (AMap.get {} t.groups group).ctx.regs.getV (o.reg + i) z.1 = BitVec.ofNat 32 (q.1.getD c 0 / 2 ^ (32 * i)))))

/-- R369 to R396, R403, R448 to R451, R462 to R468: compares and rendezvous of replicas, the ends of periods, the failures
that Lamplighter meets, and the ways into and out of service. The serial phase is log 20, votes log 37, checkpoints log 38,
the log's details log 39, what a reset keeps log 40, bring-up log 41, sensor numbers log 32. -/
def Obligations.ReplicaAndDeviceEvents : Prop :=
  ∀ (s : State) (group core line grid die peer pa errors version : Nat) (trained : BitVec 4) (signed : Bool),
    let l := s.replicaSet group
    let lead := leadOf s l
    let repl := fun (t : State) (g : Nat) => (AMap.get {} t.groups g).repl
    let u := s.atReplica group
    let late := u.grp.live = true ∧ u.grp.repl.since + 2 ^ 24 ≤ s.time.cycle
    let full := group ∈ l ∧ 2 ≤ l.length ∧ s.allThere group = true
    let other := 1 - s.lamp.active
    let kept := s.lamp.kept s.time.cycle
    let next := kept.slot other
    (∀ sig, full → (∀ g ∈ l, (repl s g).sent = some sig ∧ (repl s g).forced = true) →
      ∃ t, exec (.replicaSig group) s = .next t ∧ t.gid = s.gid ∧ t.slot = s.slot ∧
        ∀ g ∈ l, (repl t g).sent = none ∧ (repl t g).sig = 0 ∧ (repl t g).writes = []) ∧
    (late → u.spl.wait = some .compare → u.grp.repl.sent.isSome = true → (s.allThere group = false ∨ ∃ g ∈ l, (repl s g).sent = none) →
      exec (.compareTimeout group) s = .next (s.mismatch group)) ∧
    (late → u.spl.wait = some .rendezvous → u.grp.repl.operands.isSome = true → (s.allThere group = false ∨ ∃ g ∈ l, (repl s g).operands = none) →
      exec (.rendezvousTimeout group) s = .next (s.mismatch group)) ∧
    (late → u.spl.wait = some .rendezvous → u.grp.repl.operands = none → u.grp.repl.forwarded = [] →
      exec (.ldaForwardTimeout group) s = .next (s.mismatch group)) ∧
    ((repl s lead).retries + 1 ≤ s.cp.retryLimit → ∀ g ∈ l, (repl (s.mismatch group) g).retries = (repl s lead).retries + 1) ∧
    (∀ x, full → (∀ g ∈ l, (∃ e, (repl s g).operands = some e ∧ e.sent = x) ∧ (repl s g).agreed = none) →
      exec (.rendezvousOperands group) s =
        .next (s.setReplAt lead { repl s lead with agreed := some ((repl s lead).number + 1) })) ∧
    ((core, line) ∈ s.mem.notices → ∃ t, exec (.replicaNotice core line) s = .next t ∧
      t.mem = { s.mem with notices := s.mem.notices.erase (core, line) } ∧
      ∀ g ∈ (t.coreAt core).shadows, ∀ e ∈ g.2, ¬(e.1 = line ∧ e.2.verified = true)) ∧
    (∀ e rest, (repl s group).due = .result e :: rest → exec (.replicaResult group) s =
      .next (s.setReplAt group { repl s group with due := rest, log := (repl s group).log ++ [e] })) ∧
    (∀ n x rest, (repl s group).due = .value n x :: rest → exec (.replicaResult group) s =
      .next (s.setReplAt group { repl s group with due := rest, forwarded := (repl s group).forwarded ++ [(n, x)] })) ∧
    ((s.at_ group 0).groupRuns = true → (s.at_ group 0).periodOver = true → exec (.periodEnd group) s = .next s) ∧
    (let g := s.gridAt grid
     g.live = true → g.launch.det = true → s.gridGroups grid ≠ [] → (s.gridGroups grid).all s.rests = true →
     (∀ t ∈ s.gridTeams grid, s.enginesDone t = true) → (∀ o ∈ s.host.atomics, o.gid ∉ s.gridGroups grid) →
     ∃ t, exec (.serialPhase grid) s = .next t ∧ (t.gridAt grid).det.period = g.det.period + 1 ∧
       (t.gridAt grid).det.released = [] ∧ (t.gridAt grid).det.arrived = [] ∧ ∀ k ∈ s.gridTeams grid, (t.teamAt k).wbuf = []) ∧
    (die < 4 → s.inService die = true → ∃ t, exec (.dieFailure die) s = .next t ∧ die ∈ t.lamp.failed ∧
      t.inService die = false ∧ t.level = (if s.level = 2 then 3 else s.level) ∧ (∃ r ∈ t.lamp.log, r.kind = 0x0006) ∧
      ∀ n, ((t.wick n).die.toNat = die → (t.wick n).v = true → (t.wick n).dr = true)) ∧
    (peer < 1024 → peer ∉ s.lamp.unreachable → peer ≠ s.host.modnum.toNat % 1024 →
      ∃ t, exec (.peerUnreachable peer) s = .next t ∧ t.lamp.unreachable = peer :: s.lamp.unreachable) ∧
    (pa < Config.hbmBytes → pa / 65536 * 65536 ∉ s.lamp.retired → ∃ t, exec (.pageRetire pa errors) s = .next t ∧
      t.lamp.retired = pa / 65536 * 65536 :: s.lamp.retired ∧ t.mem = s.mem ∧ t.groups = s.groups) ∧
    (die < 4 → s.level ≠ 0 →
      (∀ sensor ∈ [1, 3, 5], s.lamp.clocks.length = 4 → s.inService die = true → ∃ t, exec (.sensorLimit sensor die) s = .next t ∧
        t.lamp.clocks.getD die 0 = max 1200 (s.lamp.clocks.getD die 0 - 100) ∧ t.mem = s.mem ∧ t.groups = s.groups ∧
        (sensor = 3 → 2 * die ∈ t.lamp.halved) ∧ (sensor = 5 → 2 * die + 1 ∈ t.lamp.halved)) ∧
      ∀ sensor ∈ [2, 4], ∃ t, exec (.sensorLimit sensor die) s = .next t ∧ t.level = 0 ∧ t.lamp.down = true) ∧
    (s.level ≠ 0 → ∃ t, exec .coolantFlowTimeout s = .next t ∧ t.level = 0 ∧ t.lamp.down = true) ∧
    (¬(next.valid = true ∧ next.pending = true) → exec .reset s = .next { State.reset with lamp := kept }) ∧
    (next.valid = true → next.pending = true → ∃ t, exec .reset s = .next t ∧ t.lamp.active = other ∧ t.lamp.trial = true ∧
      { t with lamp := State.reset.lamp } = State.reset) ∧
    (s.lamp.down = false →
      (s.level = 0 → trained.getLsbD 0 = true → ∃ t, exec (.dieTrainingComplete trained) s = .next t ∧ t.level = 1 ∧
        t.lamp.trial = false ∧ t.host.link = (if Config.cxlPersonality then 1 else 0) ∧ t.mem = s.mem) ∧
      (s.level = 0 → trained.getLsbD 0 = false → exec (.dieTrainingComplete trained) s =
        .next { s with host := { s.host with link := if Config.cxlPersonality then 1 else 0 } }) ∧
      (s.level = 1 → trained = 15 → ∃ t, exec (.dieTrainingComplete trained) s = .next t ∧ t.level = 2 ∧
        ∀ d, d < 4 → t.inService d = true) ∧
      (s.level = 1 → trained ≠ 15 → exec (.dieTrainingComplete trained) s = .next s)) ∧
    (let image := if signed then { version := BitVec.ofNat 64 version, valid := true, pending := true } else {}
     exec (.firmwareUpdate signed version) s = .next { s with lamp := s.lamp.setSlot other image }) ∧
    (s.lamp.trial = true → s.level = 0 → ∃ t, exec .firmwareFallback s = .next t ∧ t.lamp.active = other ∧
      { t with lamp := State.reset.lamp } = State.reset)
end

