-- ==== Sys2Proof/Laws/Store.lean ====
section
/-! SUPPORT. The laws of sparse maps: a read after a write, and the canonical form of memory. -/

namespace Sys2Proof.Machine

variable {α : Type}

@[simp] theorem AMap.get_set_same (d : α) (m : AMap α) (k : Nat) (x : α) : AMap.get d (AMap.set m k x) k = x := by
  induction m with
  | nil => simp [AMap.set, AMap.get]
  | cons e r ih =>
    obtain ⟨j, v⟩ := e
    simp only [AMap.set]
    split
    · simp [AMap.get]
    · split <;> rename_i h1 h2 <;> simp [AMap.get, h1, h2, ih]

theorem AMap.get_set_other (d : α) (m : AMap α) {k j : Nat} (x : α) (h : j ≠ k) :
    AMap.get d (AMap.set m k x) j = AMap.get d m j := by
  induction m with
  | nil => simp [AMap.set, AMap.get, h]
  | cons e r ih =>
    obtain ⟨i, v⟩ := e
    simp only [AMap.set]
    split
    · subst_vars; simp [AMap.get, h]
    · split
      · simp [AMap.get, h]
      · simp [AMap.get, ih]

/-- An entry dropped leaves every other. -/
theorem AMap.get_drop_other (d : α) (m : AMap α) {k j : Nat} (h : j ≠ k) : AMap.get d (AMap.drop m k) j = AMap.get d m j := by
  induction m with
  | nil => rfl
  | cons e r ih =>
    obtain ⟨i, v⟩ := e
    simp only [AMap.drop]
    split
    · subst_vars; simp [AMap.get, h, ih]
    · simp [AMap.get, ih]

@[simp] theorem AMap.get_drop_same (d : α) (m : AMap α) (k : Nat) : AMap.get d (AMap.drop m k) k = d := by
  induction m with
  | nil => rfl
  | cons e r ih =>
    simp only [AMap.drop]
    split
    · exact ih
    · simp [AMap.get, *]

theorem AMap.mem_set {m : AMap α} {k : Nat} {x : α} {e : Nat × α} (h : e ∈ AMap.set m k x) : e = (k, x) ∨ e ∈ m := by
  induction m with
  | nil => simpa [AMap.set] using h
  | cons a r ih =>
    simp only [AMap.set] at h
    split at h
    · simp at h; tauto
    · split at h
      · simp at h; simp; tauto
      · simp at h; simp; tauto

theorem AMap.mem_drop {m : AMap α} {k : Nat} {e : Nat × α} (h : e ∈ AMap.drop m k) : e ∈ m := by
  induction m with
  | nil => exact h
  | cons a r ih =>
    simp only [AMap.drop] at h
    split at h
    · exact List.mem_cons_of_mem _ (ih h)
    · simp at h; simp; tauto

theorem AMap.get_mem (d : α) (m : AMap α) (k : Nat) : AMap.get d m k = d ∨ (k, AMap.get d m k) ∈ m := by
  induction m with
  | nil => exact .inl rfl
  | cons a r ih =>
    simp only [AMap.get]
    split
    · subst_vars; exact .inr List.mem_cons_self
    · exact ih.imp_right (List.mem_cons_of_mem _)

theorem AMap.get_set (d : α) (m : AMap α) (k j : Nat) (x : α) :
    AMap.get d (AMap.set m k x) j = if j = k then x else AMap.get d m j := by
  split
  · subst_vars; exact AMap.get_set_same ..
  · exact AMap.get_set_other d m x ‹_›

@[simp] theorem AMap.set_set (m : AMap α) (k : Nat) (x y : α) : AMap.set (AMap.set m k x) k y = AMap.set m k y := by
  induction m with
  | nil => simp [AMap.set]
  | cons e r ih =>
    obtain ⟨j, v⟩ := e
    simp only [AMap.set]
    split
    · simp [AMap.set]
    · split <;> simp_all [AMap.set]

variable {w : Nat}

theorem Store.wfFrom_le {lo lo' : Nat} (h : lo' ≤ lo) : ∀ {m : Store w}, Store.wfFrom lo m = true → Store.wfFrom lo' m = true
  | [], _ => rfl
  | (k, v) :: r, hm => by
    simp only [Store.wfFrom, Bool.and_eq_true, decide_eq_true_eq] at *
    exact ⟨⟨by omega, hm.1.2⟩, hm.2⟩

theorem Store.wfFrom_set {a : Nat} {x : BitVec w} : ∀ {lo : Nat} {m : Store w}, lo ≤ a → Store.wfFrom lo m = true →
    Store.wfFrom lo (Store.set m a x) = true
  | lo, [], ha, _ => by
    simp only [Store.set]
    split <;> simp_all [Store.wfFrom]
  | lo, (k, v) :: r, ha, hm => by
    simp only [Store.wfFrom, Bool.and_eq_true, decide_eq_true_eq] at hm
    obtain ⟨⟨hk, hv⟩, hr⟩ := hm
    simp only [Store.set]
    split
    · subst_vars
      split
      · exact Store.wfFrom_le (by omega) hr
      · simp_all [Store.wfFrom]
    · split
      · split
        · simp_all [Store.wfFrom]
        · have : a + 1 ≤ k := by omega
          simp_all [Store.wfFrom]
      · have := Store.wfFrom_set (x := x) (a := a) (by omega : k + 1 ≤ a) hr
        simp_all [Store.wfFrom]

/-- A write keeps the canonical form. -/
theorem Store.wf_set {m : Store w} (h : Store.wf m = true) (a : Nat) (x : BitVec w) : Store.wf (Store.set m a x) = true :=
  Store.wfFrom_set (Nat.zero_le a) h

theorem Store.get_below {a : Nat} : ∀ {lo : Nat} {m : Store w}, a < lo → Store.wfFrom lo m = true → Store.get m a = 0
  | _, [], _, _ => rfl
  | lo, (k, v) :: r, h, hm => by
    simp only [Store.wfFrom, Bool.and_eq_true, decide_eq_true_eq] at hm
    rw [Store.get, if_neg (by omega)]
    exact Store.get_below (by omega) hm.2

theorem Store.get_setFrom {a b : Nat} {x : BitVec w} : ∀ {lo : Nat} {m : Store w}, Store.wfFrom lo m = true →
    Store.get (Store.set m a x) b = if b = a then x else Store.get m b
  | lo, [], _ => by
    simp only [Store.set]
    split <;> simp only [Store.get] <;> split <;> simp_all
  | lo, (k, v) :: r, hm => by
    simp only [Store.wfFrom, Bool.and_eq_true, decide_eq_true_eq] at hm
    obtain ⟨⟨hk, hv⟩, hr⟩ := hm
    have ih := Store.get_setFrom (a := a) (b := b) (x := x) hr
    simp only [Store.set]
    split
    · rename_i hak
      subst hak
      split
      · rename_i hx
        subst hx
        by_cases hb : b = a
        · subst hb; simp [Store.get_below (Nat.lt_succ_self b) hr]
        · simp [Store.get, hb]
      · simp [Store.get]
        split <;> simp_all
    · split
      · rename_i hlt
        split
        · subst_vars
          by_cases hb : b = a
          · subst hb
            simp [Store.get, show b ≠ k by omega, Store.get_below (by omega : b < k + 1) hr]
          · simp [hb]
        · simp [Store.get]
      · simp only [Store.get, ih]
        by_cases hb : b = a
        · subst hb; simp [*]
        · simp [hb]

/-- A write leaves every other address, in any memory. -/
theorem Store.get_set_other (m : Store w) {a b : Nat} (x : BitVec w) (h : b ≠ a) :
    Store.get (Store.set m a x) b = Store.get m b := by
  induction m with
  | nil => simp only [Store.set]; split <;> simp [Store.get, h]
  | cons e r ih =>
    obtain ⟨k, v⟩ := e
    simp only [Store.set]
    split
    · subst_vars; split <;> simp [Store.get, h]
    · split
      · split <;> simp [Store.get, h]
      · simp [Store.get, ih]

/-- A read after a write of a canonical memory. -/
theorem Store.get_set {m : Store w} (h : Store.wf m = true) (a b : Nat) (x : BitVec w) :
    Store.get (Store.set m a x) b = if b = a then x else Store.get m b := Store.get_setFrom h

/-- Equal reads make equal canonical memories. -/
theorem Store.ext_wf : ∀ {lo : Nat} {m m' : Store w}, Store.wfFrom lo m = true → Store.wfFrom lo m' = true →
    (∀ a, Store.get m a = Store.get m' a) → m = m'
  | _, [], [], _, _, _ => rfl
  | _, [], (k, v) :: r, _, h', he => by
    simp only [Store.wfFrom, Bool.and_eq_true, decide_eq_true_eq] at h'
    have := he k
    simp_all [Store.get]
  | _, (k, v) :: r, [], h, _, he => by
    simp only [Store.wfFrom, Bool.and_eq_true, decide_eq_true_eq] at h
    have := he k
    simp_all [Store.get]
  | lo, (k, v) :: r, (k', v') :: r', h, h', he => by
    simp only [Store.wfFrom, Bool.and_eq_true, decide_eq_true_eq] at h h'
    obtain ⟨⟨hk, hv⟩, hr⟩ := h
    obtain ⟨⟨hk', hv'⟩, hr'⟩ := h'
    have hkk : k = k' := by
      rcases Nat.lt_trichotomy k k' with hlt | heq | hgt
      · have := he k
        simp [Store.get, show k ≠ k' by omega, Store.get_below (by omega : k < k' + 1) hr'] at this
        simp [this] at hv
      · exact heq
      · have := he k'
        simp [Store.get, show k' ≠ k by omega, Store.get_below (by omega : k' < k + 1) hr] at this
        simp [← this] at hv'
    subst hkk
    have hvv : v = v' := by have := he k; simpa [Store.get] using this
    subst hvv
    rw [Store.ext_wf hr hr' fun a => ?_]
    by_cases ha : a < k + 1
    · rw [Store.get_below ha hr, Store.get_below ha hr']
    · have := he a
      simpa [Store.get, show a ≠ k by omega] using this

end Sys2Proof.Machine
end

