-- ==== Sys2Proof/Laws/State.lean ====
section
/-! SUPPORT. One lemma for each field and each update of the state, and for each accessor under the update it reads. -/

namespace Sys2Proof.Machine

@[simp] theorem State.setGrp_gid (s : State) (g : Group) : (s.setGrp g).gid = s.gid := rfl
@[simp] theorem State.setGrp_slot (s : State) (g : Group) : (s.setGrp g).slot = s.slot := rfl
@[simp] theorem State.setGrp_teams (s : State) (g : Group) : (s.setGrp g).teams = s.teams := rfl
@[simp] theorem State.setGrp_clusters (s : State) (g : Group) : (s.setGrp g).clusters = s.clusters := rfl
@[simp] theorem State.setGrp_grids (s : State) (g : Group) : (s.setGrp g).grids = s.grids := rfl
@[simp] theorem State.setGrp_cores (s : State) (g : Group) : (s.setGrp g).cores = s.cores := rfl
@[simp] theorem State.setGrp_mem (s : State) (g : Group) : (s.setGrp g).mem = s.mem := rfl
@[simp] theorem State.setGrp_cp (s : State) (g : Group) : (s.setGrp g).cp = s.cp := rfl
@[simp] theorem State.setGrp_host (s : State) (g : Group) : (s.setGrp g).host = s.host := rfl
@[simp] theorem State.setGrp_lamp (s : State) (g : Group) : (s.setGrp g).lamp = s.lamp := rfl
@[simp] theorem State.setGrp_peers (s : State) (g : Group) : (s.setGrp g).peers = s.peers := rfl
@[simp] theorem State.setGrp_posts (s : State) (g : Group) : (s.setGrp g).posts = s.posts := rfl
@[simp] theorem State.setGrp_time (s : State) (g : Group) : (s.setGrp g).time = s.time := rfl
@[simp] theorem State.setGrp_events (s : State) (g : Group) : (s.setGrp g).events = s.events := rfl

@[simp] theorem State.setRegs_gid (s : State) (r : Regs) : (s.setRegs r).gid = s.gid := rfl
@[simp] theorem State.setRegs_slot (s : State) (r : Regs) : (s.setRegs r).slot = s.slot := rfl
@[simp] theorem State.setRegs_teams (s : State) (r : Regs) : (s.setRegs r).teams = s.teams := rfl
@[simp] theorem State.setRegs_clusters (s : State) (r : Regs) : (s.setRegs r).clusters = s.clusters := rfl
@[simp] theorem State.setRegs_grids (s : State) (r : Regs) : (s.setRegs r).grids = s.grids := rfl
@[simp] theorem State.setRegs_cores (s : State) (r : Regs) : (s.setRegs r).cores = s.cores := rfl
@[simp] theorem State.setRegs_mem (s : State) (r : Regs) : (s.setRegs r).mem = s.mem := rfl
@[simp] theorem State.setRegs_cp (s : State) (r : Regs) : (s.setRegs r).cp = s.cp := rfl
@[simp] theorem State.setRegs_host (s : State) (r : Regs) : (s.setRegs r).host = s.host := rfl
@[simp] theorem State.setRegs_lamp (s : State) (r : Regs) : (s.setRegs r).lamp = s.lamp := rfl
@[simp] theorem State.setRegs_peers (s : State) (r : Regs) : (s.setRegs r).peers = s.peers := rfl
@[simp] theorem State.setRegs_posts (s : State) (r : Regs) : (s.setRegs r).posts = s.posts := rfl
@[simp] theorem State.setRegs_time (s : State) (r : Regs) : (s.setRegs r).time = s.time := rfl
@[simp] theorem State.setRegs_events (s : State) (r : Regs) : (s.setRegs r).events = s.events := rfl

@[simp] theorem State.setSplitAt_gid (s : State) (k : Nat) (x : Split) : (s.setSplitAt k x).gid = s.gid := rfl
@[simp] theorem State.setSplitAt_slot (s : State) (k : Nat) (x : Split) : (s.setSplitAt k x).slot = s.slot := rfl
@[simp] theorem State.setSplitAt_teams (s : State) (k : Nat) (x : Split) : (s.setSplitAt k x).teams = s.teams := rfl
@[simp] theorem State.setSplitAt_clusters (s : State) (k : Nat) (x : Split) : (s.setSplitAt k x).clusters = s.clusters := rfl
@[simp] theorem State.setSplitAt_grids (s : State) (k : Nat) (x : Split) : (s.setSplitAt k x).grids = s.grids := rfl
@[simp] theorem State.setSplitAt_cores (s : State) (k : Nat) (x : Split) : (s.setSplitAt k x).cores = s.cores := rfl
@[simp] theorem State.setSplitAt_mem (s : State) (k : Nat) (x : Split) : (s.setSplitAt k x).mem = s.mem := rfl
@[simp] theorem State.setSplitAt_cp (s : State) (k : Nat) (x : Split) : (s.setSplitAt k x).cp = s.cp := rfl
@[simp] theorem State.setSplitAt_host (s : State) (k : Nat) (x : Split) : (s.setSplitAt k x).host = s.host := rfl
@[simp] theorem State.setSplitAt_lamp (s : State) (k : Nat) (x : Split) : (s.setSplitAt k x).lamp = s.lamp := rfl
@[simp] theorem State.setSplitAt_peers (s : State) (k : Nat) (x : Split) : (s.setSplitAt k x).peers = s.peers := rfl
@[simp] theorem State.setSplitAt_posts (s : State) (k : Nat) (x : Split) : (s.setSplitAt k x).posts = s.posts := rfl
@[simp] theorem State.setSplitAt_time (s : State) (k : Nat) (x : Split) : (s.setSplitAt k x).time = s.time := rfl
@[simp] theorem State.setSplitAt_events (s : State) (k : Nat) (x : Split) : (s.setSplitAt k x).events = s.events := rfl

@[simp] theorem State.setSpl_gid (s : State) (x : Split) : (s.setSpl x).gid = s.gid := rfl
@[simp] theorem State.setSpl_slot (s : State) (x : Split) : (s.setSpl x).slot = s.slot := rfl
@[simp] theorem State.setSpl_teams (s : State) (x : Split) : (s.setSpl x).teams = s.teams := rfl
@[simp] theorem State.setSpl_clusters (s : State) (x : Split) : (s.setSpl x).clusters = s.clusters := rfl
@[simp] theorem State.setSpl_grids (s : State) (x : Split) : (s.setSpl x).grids = s.grids := rfl
@[simp] theorem State.setSpl_cores (s : State) (x : Split) : (s.setSpl x).cores = s.cores := rfl
@[simp] theorem State.setSpl_mem (s : State) (x : Split) : (s.setSpl x).mem = s.mem := rfl
@[simp] theorem State.setSpl_cp (s : State) (x : Split) : (s.setSpl x).cp = s.cp := rfl
@[simp] theorem State.setSpl_host (s : State) (x : Split) : (s.setSpl x).host = s.host := rfl
@[simp] theorem State.setSpl_lamp (s : State) (x : Split) : (s.setSpl x).lamp = s.lamp := rfl
@[simp] theorem State.setSpl_peers (s : State) (x : Split) : (s.setSpl x).peers = s.peers := rfl
@[simp] theorem State.setSpl_posts (s : State) (x : Split) : (s.setSpl x).posts = s.posts := rfl
@[simp] theorem State.setSpl_time (s : State) (x : Split) : (s.setSpl x).time = s.time := rfl
@[simp] theorem State.setSpl_events (s : State) (x : Split) : (s.setSpl x).events = s.events := rfl

@[simp] theorem State.setTeamAt_gid (s : State) (k : Nat) (x : Team) : (s.setTeamAt k x).gid = s.gid := rfl
@[simp] theorem State.setTeamAt_slot (s : State) (k : Nat) (x : Team) : (s.setTeamAt k x).slot = s.slot := rfl
@[simp] theorem State.setTeamAt_groups (s : State) (k : Nat) (x : Team) : (s.setTeamAt k x).groups = s.groups := rfl
@[simp] theorem State.setTeamAt_clusters (s : State) (k : Nat) (x : Team) : (s.setTeamAt k x).clusters = s.clusters := rfl
@[simp] theorem State.setTeamAt_grids (s : State) (k : Nat) (x : Team) : (s.setTeamAt k x).grids = s.grids := rfl
@[simp] theorem State.setTeamAt_cores (s : State) (k : Nat) (x : Team) : (s.setTeamAt k x).cores = s.cores := rfl
@[simp] theorem State.setTeamAt_mem (s : State) (k : Nat) (x : Team) : (s.setTeamAt k x).mem = s.mem := rfl
@[simp] theorem State.setTeamAt_cp (s : State) (k : Nat) (x : Team) : (s.setTeamAt k x).cp = s.cp := rfl
@[simp] theorem State.setTeamAt_host (s : State) (k : Nat) (x : Team) : (s.setTeamAt k x).host = s.host := rfl
@[simp] theorem State.setTeamAt_lamp (s : State) (k : Nat) (x : Team) : (s.setTeamAt k x).lamp = s.lamp := rfl
@[simp] theorem State.setTeamAt_peers (s : State) (k : Nat) (x : Team) : (s.setTeamAt k x).peers = s.peers := rfl
@[simp] theorem State.setTeamAt_posts (s : State) (k : Nat) (x : Team) : (s.setTeamAt k x).posts = s.posts := rfl
@[simp] theorem State.setTeamAt_time (s : State) (k : Nat) (x : Team) : (s.setTeamAt k x).time = s.time := rfl
@[simp] theorem State.setTeamAt_events (s : State) (k : Nat) (x : Team) : (s.setTeamAt k x).events = s.events := rfl

@[simp] theorem State.setTeam_gid (s : State) (x : Team) : (s.setTeam x).gid = s.gid := rfl
@[simp] theorem State.setTeam_slot (s : State) (x : Team) : (s.setTeam x).slot = s.slot := rfl
@[simp] theorem State.setTeam_groups (s : State) (x : Team) : (s.setTeam x).groups = s.groups := rfl
@[simp] theorem State.setTeam_clusters (s : State) (x : Team) : (s.setTeam x).clusters = s.clusters := rfl
@[simp] theorem State.setTeam_grids (s : State) (x : Team) : (s.setTeam x).grids = s.grids := rfl
@[simp] theorem State.setTeam_cores (s : State) (x : Team) : (s.setTeam x).cores = s.cores := rfl
@[simp] theorem State.setTeam_mem (s : State) (x : Team) : (s.setTeam x).mem = s.mem := rfl
@[simp] theorem State.setTeam_cp (s : State) (x : Team) : (s.setTeam x).cp = s.cp := rfl
@[simp] theorem State.setTeam_host (s : State) (x : Team) : (s.setTeam x).host = s.host := rfl
@[simp] theorem State.setTeam_lamp (s : State) (x : Team) : (s.setTeam x).lamp = s.lamp := rfl
@[simp] theorem State.setTeam_peers (s : State) (x : Team) : (s.setTeam x).peers = s.peers := rfl
@[simp] theorem State.setTeam_posts (s : State) (x : Team) : (s.setTeam x).posts = s.posts := rfl
@[simp] theorem State.setTeam_time (s : State) (x : Team) : (s.setTeam x).time = s.time := rfl
@[simp] theorem State.setTeam_events (s : State) (x : Team) : (s.setTeam x).events = s.events := rfl

@[simp] theorem State.setClusterAt_gid (s : State) (k : Nat) (x : Cluster) : (s.setClusterAt k x).gid = s.gid := rfl
@[simp] theorem State.setClusterAt_slot (s : State) (k : Nat) (x : Cluster) : (s.setClusterAt k x).slot = s.slot := rfl
@[simp] theorem State.setClusterAt_groups (s : State) (k : Nat) (x : Cluster) : (s.setClusterAt k x).groups = s.groups := rfl
@[simp] theorem State.setClusterAt_teams (s : State) (k : Nat) (x : Cluster) : (s.setClusterAt k x).teams = s.teams := rfl
@[simp] theorem State.setClusterAt_grids (s : State) (k : Nat) (x : Cluster) : (s.setClusterAt k x).grids = s.grids := rfl
@[simp] theorem State.setClusterAt_cores (s : State) (k : Nat) (x : Cluster) : (s.setClusterAt k x).cores = s.cores := rfl
@[simp] theorem State.setClusterAt_mem (s : State) (k : Nat) (x : Cluster) : (s.setClusterAt k x).mem = s.mem := rfl
@[simp] theorem State.setClusterAt_cp (s : State) (k : Nat) (x : Cluster) : (s.setClusterAt k x).cp = s.cp := rfl
@[simp] theorem State.setClusterAt_host (s : State) (k : Nat) (x : Cluster) : (s.setClusterAt k x).host = s.host := rfl
@[simp] theorem State.setClusterAt_lamp (s : State) (k : Nat) (x : Cluster) : (s.setClusterAt k x).lamp = s.lamp := rfl
@[simp] theorem State.setClusterAt_peers (s : State) (k : Nat) (x : Cluster) : (s.setClusterAt k x).peers = s.peers := rfl
@[simp] theorem State.setClusterAt_posts (s : State) (k : Nat) (x : Cluster) : (s.setClusterAt k x).posts = s.posts := rfl
@[simp] theorem State.setClusterAt_time (s : State) (k : Nat) (x : Cluster) : (s.setClusterAt k x).time = s.time := rfl
@[simp] theorem State.setClusterAt_events (s : State) (k : Nat) (x : Cluster) : (s.setClusterAt k x).events = s.events := rfl

@[simp] theorem State.setGridAt_gid (s : State) (k : Nat) (x : Grid) : (s.setGridAt k x).gid = s.gid := rfl
@[simp] theorem State.setGridAt_slot (s : State) (k : Nat) (x : Grid) : (s.setGridAt k x).slot = s.slot := rfl
@[simp] theorem State.setGridAt_groups (s : State) (k : Nat) (x : Grid) : (s.setGridAt k x).groups = s.groups := rfl
@[simp] theorem State.setGridAt_teams (s : State) (k : Nat) (x : Grid) : (s.setGridAt k x).teams = s.teams := rfl
@[simp] theorem State.setGridAt_clusters (s : State) (k : Nat) (x : Grid) : (s.setGridAt k x).clusters = s.clusters := rfl
@[simp] theorem State.setGridAt_cores (s : State) (k : Nat) (x : Grid) : (s.setGridAt k x).cores = s.cores := rfl
@[simp] theorem State.setGridAt_mem (s : State) (k : Nat) (x : Grid) : (s.setGridAt k x).mem = s.mem := rfl
@[simp] theorem State.setGridAt_cp (s : State) (k : Nat) (x : Grid) : (s.setGridAt k x).cp = s.cp := rfl
@[simp] theorem State.setGridAt_host (s : State) (k : Nat) (x : Grid) : (s.setGridAt k x).host = s.host := rfl
@[simp] theorem State.setGridAt_lamp (s : State) (k : Nat) (x : Grid) : (s.setGridAt k x).lamp = s.lamp := rfl
@[simp] theorem State.setGridAt_peers (s : State) (k : Nat) (x : Grid) : (s.setGridAt k x).peers = s.peers := rfl
@[simp] theorem State.setGridAt_posts (s : State) (k : Nat) (x : Grid) : (s.setGridAt k x).posts = s.posts := rfl
@[simp] theorem State.setGridAt_time (s : State) (k : Nat) (x : Grid) : (s.setGridAt k x).time = s.time := rfl
@[simp] theorem State.setGridAt_events (s : State) (k : Nat) (x : Grid) : (s.setGridAt k x).events = s.events := rfl

@[simp] theorem State.setGrid_gid (s : State) (x : Grid) : (s.setGrid x).gid = s.gid := rfl
@[simp] theorem State.setGrid_slot (s : State) (x : Grid) : (s.setGrid x).slot = s.slot := rfl
@[simp] theorem State.setGrid_groups (s : State) (x : Grid) : (s.setGrid x).groups = s.groups := rfl
@[simp] theorem State.setGrid_teams (s : State) (x : Grid) : (s.setGrid x).teams = s.teams := rfl
@[simp] theorem State.setGrid_clusters (s : State) (x : Grid) : (s.setGrid x).clusters = s.clusters := rfl
@[simp] theorem State.setGrid_cores (s : State) (x : Grid) : (s.setGrid x).cores = s.cores := rfl
@[simp] theorem State.setGrid_mem (s : State) (x : Grid) : (s.setGrid x).mem = s.mem := rfl
@[simp] theorem State.setGrid_cp (s : State) (x : Grid) : (s.setGrid x).cp = s.cp := rfl
@[simp] theorem State.setGrid_host (s : State) (x : Grid) : (s.setGrid x).host = s.host := rfl
@[simp] theorem State.setGrid_lamp (s : State) (x : Grid) : (s.setGrid x).lamp = s.lamp := rfl
@[simp] theorem State.setGrid_peers (s : State) (x : Grid) : (s.setGrid x).peers = s.peers := rfl
@[simp] theorem State.setGrid_posts (s : State) (x : Grid) : (s.setGrid x).posts = s.posts := rfl
@[simp] theorem State.setGrid_time (s : State) (x : Grid) : (s.setGrid x).time = s.time := rfl
@[simp] theorem State.setGrid_events (s : State) (x : Grid) : (s.setGrid x).events = s.events := rfl

@[simp] theorem State.setCoreAt_gid (s : State) (k : Nat) (x : CoreState) : (s.setCoreAt k x).gid = s.gid := rfl
@[simp] theorem State.setCoreAt_slot (s : State) (k : Nat) (x : CoreState) : (s.setCoreAt k x).slot = s.slot := rfl
@[simp] theorem State.setCoreAt_groups (s : State) (k : Nat) (x : CoreState) : (s.setCoreAt k x).groups = s.groups := rfl
@[simp] theorem State.setCoreAt_teams (s : State) (k : Nat) (x : CoreState) : (s.setCoreAt k x).teams = s.teams := rfl
@[simp] theorem State.setCoreAt_clusters (s : State) (k : Nat) (x : CoreState) : (s.setCoreAt k x).clusters = s.clusters := rfl
@[simp] theorem State.setCoreAt_grids (s : State) (k : Nat) (x : CoreState) : (s.setCoreAt k x).grids = s.grids := rfl
@[simp] theorem State.setCoreAt_mem (s : State) (k : Nat) (x : CoreState) : (s.setCoreAt k x).mem = s.mem := rfl
@[simp] theorem State.setCoreAt_cp (s : State) (k : Nat) (x : CoreState) : (s.setCoreAt k x).cp = s.cp := rfl
@[simp] theorem State.setCoreAt_host (s : State) (k : Nat) (x : CoreState) : (s.setCoreAt k x).host = s.host := rfl
@[simp] theorem State.setCoreAt_lamp (s : State) (k : Nat) (x : CoreState) : (s.setCoreAt k x).lamp = s.lamp := rfl
@[simp] theorem State.setCoreAt_peers (s : State) (k : Nat) (x : CoreState) : (s.setCoreAt k x).peers = s.peers := rfl
@[simp] theorem State.setCoreAt_posts (s : State) (k : Nat) (x : CoreState) : (s.setCoreAt k x).posts = s.posts := rfl
@[simp] theorem State.setCoreAt_time (s : State) (k : Nat) (x : CoreState) : (s.setCoreAt k x).time = s.time := rfl
@[simp] theorem State.setCoreAt_events (s : State) (k : Nat) (x : CoreState) : (s.setCoreAt k x).events = s.events := rfl

@[simp] theorem State.setCore_gid (s : State) (x : CoreState) : (s.setCore x).gid = s.gid := rfl
@[simp] theorem State.setCore_slot (s : State) (x : CoreState) : (s.setCore x).slot = s.slot := rfl
@[simp] theorem State.setCore_groups (s : State) (x : CoreState) : (s.setCore x).groups = s.groups := rfl
@[simp] theorem State.setCore_teams (s : State) (x : CoreState) : (s.setCore x).teams = s.teams := rfl
@[simp] theorem State.setCore_clusters (s : State) (x : CoreState) : (s.setCore x).clusters = s.clusters := rfl
@[simp] theorem State.setCore_grids (s : State) (x : CoreState) : (s.setCore x).grids = s.grids := rfl
@[simp] theorem State.setCore_mem (s : State) (x : CoreState) : (s.setCore x).mem = s.mem := rfl
@[simp] theorem State.setCore_cp (s : State) (x : CoreState) : (s.setCore x).cp = s.cp := rfl
@[simp] theorem State.setCore_host (s : State) (x : CoreState) : (s.setCore x).host = s.host := rfl
@[simp] theorem State.setCore_lamp (s : State) (x : CoreState) : (s.setCore x).lamp = s.lamp := rfl
@[simp] theorem State.setCore_peers (s : State) (x : CoreState) : (s.setCore x).peers = s.peers := rfl
@[simp] theorem State.setCore_posts (s : State) (x : CoreState) : (s.setCore x).posts = s.posts := rfl
@[simp] theorem State.setCore_time (s : State) (x : CoreState) : (s.setCore x).time = s.time := rfl
@[simp] theorem State.setCore_events (s : State) (x : CoreState) : (s.setCore x).events = s.events := rfl

@[simp] theorem State.setQueue_gid (s : State) (k : Nat) (x : Queue) : (s.setQueue k x).gid = s.gid := rfl
@[simp] theorem State.setQueue_slot (s : State) (k : Nat) (x : Queue) : (s.setQueue k x).slot = s.slot := rfl
@[simp] theorem State.setQueue_groups (s : State) (k : Nat) (x : Queue) : (s.setQueue k x).groups = s.groups := rfl
@[simp] theorem State.setQueue_teams (s : State) (k : Nat) (x : Queue) : (s.setQueue k x).teams = s.teams := rfl
@[simp] theorem State.setQueue_clusters (s : State) (k : Nat) (x : Queue) : (s.setQueue k x).clusters = s.clusters := rfl
@[simp] theorem State.setQueue_grids (s : State) (k : Nat) (x : Queue) : (s.setQueue k x).grids = s.grids := rfl
@[simp] theorem State.setQueue_cores (s : State) (k : Nat) (x : Queue) : (s.setQueue k x).cores = s.cores := rfl
@[simp] theorem State.setQueue_mem (s : State) (k : Nat) (x : Queue) : (s.setQueue k x).mem = s.mem := rfl
@[simp] theorem State.setQueue_host (s : State) (k : Nat) (x : Queue) : (s.setQueue k x).host = s.host := rfl
@[simp] theorem State.setQueue_lamp (s : State) (k : Nat) (x : Queue) : (s.setQueue k x).lamp = s.lamp := rfl
@[simp] theorem State.setQueue_peers (s : State) (k : Nat) (x : Queue) : (s.setQueue k x).peers = s.peers := rfl
@[simp] theorem State.setQueue_posts (s : State) (k : Nat) (x : Queue) : (s.setQueue k x).posts = s.posts := rfl
@[simp] theorem State.setQueue_time (s : State) (k : Nat) (x : Queue) : (s.setQueue k x).time = s.time := rfl
@[simp] theorem State.setQueue_events (s : State) (k : Nat) (x : Queue) : (s.setQueue k x).events = s.events := rfl

@[simp] theorem State.setRepl_gid (s : State) (r : Replica) : (s.setRepl r).gid = s.gid := rfl
@[simp] theorem State.setRepl_slot (s : State) (r : Replica) : (s.setRepl r).slot = s.slot := rfl
@[simp] theorem State.setRepl_teams (s : State) (r : Replica) : (s.setRepl r).teams = s.teams := rfl
@[simp] theorem State.setRepl_clusters (s : State) (r : Replica) : (s.setRepl r).clusters = s.clusters := rfl
@[simp] theorem State.setRepl_grids (s : State) (r : Replica) : (s.setRepl r).grids = s.grids := rfl
@[simp] theorem State.setRepl_cores (s : State) (r : Replica) : (s.setRepl r).cores = s.cores := rfl
@[simp] theorem State.setRepl_mem (s : State) (r : Replica) : (s.setRepl r).mem = s.mem := rfl
@[simp] theorem State.setRepl_cp (s : State) (r : Replica) : (s.setRepl r).cp = s.cp := rfl
@[simp] theorem State.setRepl_host (s : State) (r : Replica) : (s.setRepl r).host = s.host := rfl
@[simp] theorem State.setRepl_lamp (s : State) (r : Replica) : (s.setRepl r).lamp = s.lamp := rfl
@[simp] theorem State.setRepl_peers (s : State) (r : Replica) : (s.setRepl r).peers = s.peers := rfl
@[simp] theorem State.setRepl_posts (s : State) (r : Replica) : (s.setRepl r).posts = s.posts := rfl
@[simp] theorem State.setRepl_time (s : State) (r : Replica) : (s.setRepl r).time = s.time := rfl
@[simp] theorem State.setRepl_events (s : State) (r : Replica) : (s.setRepl r).events = s.events := rfl

@[simp] theorem State.at_groups (s : State) (g k : Nat) : (s.at_ g k).groups = s.groups := rfl
@[simp] theorem State.at_teams (s : State) (g k : Nat) : (s.at_ g k).teams = s.teams := rfl
@[simp] theorem State.at_clusters (s : State) (g k : Nat) : (s.at_ g k).clusters = s.clusters := rfl
@[simp] theorem State.at_grids (s : State) (g k : Nat) : (s.at_ g k).grids = s.grids := rfl
@[simp] theorem State.at_cores (s : State) (g k : Nat) : (s.at_ g k).cores = s.cores := rfl
@[simp] theorem State.at_mem (s : State) (g k : Nat) : (s.at_ g k).mem = s.mem := rfl
@[simp] theorem State.at_cp (s : State) (g k : Nat) : (s.at_ g k).cp = s.cp := rfl
@[simp] theorem State.at_host (s : State) (g k : Nat) : (s.at_ g k).host = s.host := rfl
@[simp] theorem State.at_lamp (s : State) (g k : Nat) : (s.at_ g k).lamp = s.lamp := rfl
@[simp] theorem State.at_peers (s : State) (g k : Nat) : (s.at_ g k).peers = s.peers := rfl
@[simp] theorem State.at_posts (s : State) (g k : Nat) : (s.at_ g k).posts = s.posts := rfl
@[simp] theorem State.at_time (s : State) (g k : Nat) : (s.at_ g k).time = s.time := rfl
@[simp] theorem State.at_events (s : State) (g k : Nat) : (s.at_ g k).events = s.events := rfl
@[simp] theorem State.at_gid (s : State) (g k : Nat) : (s.at_ g k).gid = g := rfl
@[simp] theorem State.at_slot (s : State) (g k : Nat) : (s.at_ g k).slot = k := rfl

@[simp] theorem State.setGrp_grp (s : State) (g : Group) : (s.setGrp g).grp = g := by simp [State.grp, State.setGrp]
@[simp] theorem State.setGrp_regs (s : State) (g : Group) : (s.setGrp g).regs = g.ctx.regs := by simp [State.regs]
@[simp] theorem State.setRegs_grp (s : State) (r : Regs) :
    (s.setRegs r).grp = { s.grp with ctx := { s.grp.ctx with regs := r } } := by simp [State.setRegs]
@[simp] theorem State.setRegs_regs (s : State) (r : Regs) : (s.setRegs r).regs = r := by simp [State.regs]
@[simp] theorem State.setRepl_grp (s : State) (r : Replica) : (s.setRepl r).grp = { s.grp with repl := r } := by
  simp [State.setRepl]
@[simp] theorem State.setRepl_regs (s : State) (r : Replica) : (s.setRepl r).regs = s.regs := by simp [State.regs]
@[simp] theorem State.setSplitAt_grp (s : State) (k : Nat) (x : Split) :
    (s.setSplitAt k x).grp = { s.grp with ctx := { s.grp.ctx with splits := AMap.set s.grp.ctx.splits k x } } := by
  simp [State.setSplitAt]
@[simp] theorem State.setSplitAt_regs (s : State) (k : Nat) (x : Split) : (s.setSplitAt k x).regs = s.regs := by
  simp [State.regs]
@[simp] theorem State.setSpl_grp (s : State) (x : Split) :
    (s.setSpl x).grp = { s.grp with ctx := { s.grp.ctx with splits := AMap.set s.grp.ctx.splits s.slot x } } := by
  simp [State.setSpl]
@[simp] theorem State.setSpl_regs (s : State) (x : Split) : (s.setSpl x).regs = s.regs := by simp [State.setSpl]
@[simp] theorem State.setSpl_spl (s : State) (x : Split) : (s.setSpl x).spl = x := by
  simp [State.spl, State.splitAt]
@[simp] theorem State.setGrp_splitAt (s : State) (g : Group) (k : Nat) :
    (s.setGrp g).splitAt k = AMap.get {} g.ctx.splits k := by simp [State.splitAt]
@[simp] theorem State.setRegs_splitAt (s : State) (r : Regs) (k : Nat) : (s.setRegs r).splitAt k = s.splitAt k := by
  simp [State.splitAt]
@[simp] theorem State.setRegs_spl (s : State) (r : Regs) : (s.setRegs r).spl = s.spl := by simp [State.spl]
theorem State.setSplitAt_splitAt (s : State) (k j : Nat) (x : Split) :
    (s.setSplitAt k x).splitAt j = if j = k then x else s.splitAt j := by
  simp [State.splitAt, AMap.get_set]

theorem State.setGrp_eq (s : State) (g : Group) : s.setGrp g = { s with groups := AMap.set s.groups s.gid g } := rfl
@[simp] theorem State.setGrp_setGrp (s : State) (g h : Group) : (s.setGrp g).setGrp h = s.setGrp h := by
  simp [State.setGrp]

@[simp] theorem State.setTeamAt_teamAt (s : State) (k : Nat) (x : Team) : (s.setTeamAt k x).teamAt k = x := by
  simp [State.teamAt, State.setTeamAt]
@[simp] theorem State.setClusterAt_clusterAt (s : State) (k : Nat) (x : Cluster) : (s.setClusterAt k x).clusterAt k = x := by
  simp [State.clusterAt, State.setClusterAt]
@[simp] theorem State.setGridAt_gridAt (s : State) (k : Nat) (x : Grid) : (s.setGridAt k x).gridAt k = x := by
  simp [State.gridAt, State.setGridAt]
@[simp] theorem State.setCoreAt_coreAt (s : State) (k : Nat) (x : CoreState) : (s.setCoreAt k x).coreAt k = x := by
  simp [State.coreAt, State.setCoreAt]
theorem State.setCoreAt_other (s : State) {k j : Nat} (x : CoreState) (h : j ≠ k) : (s.setCoreAt k x).coreAt j = s.coreAt j :=
  AMap.get_set_other _ _ _ h

end Sys2Proof.Machine
end

