-- ==== Sys2Proof/Laws/Mem.lean ====
section
/-! SUPPORT. Memory under its operations: one lemma for each field and each update, and the canonical form, which every
operation of the directory and of the homes keeps. -/

namespace Sys2Proof.Machine

@[simp] theorem State.putHome_gid (s : State) (line : Nat) (mask : BitVec 128) (data : BitVec 1024) : (s.putHome line mask data).gid = s.gid := rfl
@[simp] theorem State.putHome_slot (s : State) (line : Nat) (mask : BitVec 128) (data : BitVec 1024) : (s.putHome line mask data).slot = s.slot := rfl
@[simp] theorem State.putHome_groups (s : State) (line : Nat) (mask : BitVec 128) (data : BitVec 1024) : (s.putHome line mask data).groups = s.groups := rfl
@[simp] theorem State.putHome_teams (s : State) (line : Nat) (mask : BitVec 128) (data : BitVec 1024) : (s.putHome line mask data).teams = s.teams := rfl
@[simp] theorem State.putHome_clusters (s : State) (line : Nat) (mask : BitVec 128) (data : BitVec 1024) : (s.putHome line mask data).clusters = s.clusters := rfl
@[simp] theorem State.putHome_grids (s : State) (line : Nat) (mask : BitVec 128) (data : BitVec 1024) : (s.putHome line mask data).grids = s.grids := rfl
@[simp] theorem State.putHome_cores (s : State) (line : Nat) (mask : BitVec 128) (data : BitVec 1024) : (s.putHome line mask data).cores = s.cores := rfl
@[simp] theorem State.putHome_cp (s : State) (line : Nat) (mask : BitVec 128) (data : BitVec 1024) : (s.putHome line mask data).cp = s.cp := rfl
@[simp] theorem State.putHome_host (s : State) (line : Nat) (mask : BitVec 128) (data : BitVec 1024) : (s.putHome line mask data).host = s.host := rfl
@[simp] theorem State.putHome_lamp (s : State) (line : Nat) (mask : BitVec 128) (data : BitVec 1024) : (s.putHome line mask data).lamp = s.lamp := rfl
@[simp] theorem State.putHome_peers (s : State) (line : Nat) (mask : BitVec 128) (data : BitVec 1024) : (s.putHome line mask data).peers = s.peers := rfl
@[simp] theorem State.putHome_posts (s : State) (line : Nat) (mask : BitVec 128) (data : BitVec 1024) : (s.putHome line mask data).posts = s.posts := rfl
@[simp] theorem State.putHome_time (s : State) (line : Nat) (mask : BitVec 128) (data : BitVec 1024) : (s.putHome line mask data).time = s.time := rfl
@[simp] theorem State.putHome_events (s : State) (line : Nat) (mask : BitVec 128) (data : BitVec 1024) : (s.putHome line mask data).events = s.events := rfl
@[simp] theorem State.putHome_scratch (s : State) (line : Nat) (mask : BitVec 128) (data : BitVec 1024) : (s.putHome line mask data).mem.scratch = s.mem.scratch := rfl
@[simp] theorem State.putHome_wicks (s : State) (line : Nat) (mask : BitVec 128) (data : BitVec 1024) : (s.putHome line mask data).mem.wicks = s.mem.wicks := rfl
@[simp] theorem State.putHome_dir (s : State) (line : Nat) (mask : BitVec 128) (data : BitVec 1024) : (s.putHome line mask data).mem.dir = s.mem.dir := rfl
@[simp] theorem State.putHome_stalled (s : State) (line : Nat) (mask : BitVec 128) (data : BitVec 1024) : (s.putHome line mask data).mem.stalled = s.mem.stalled := rfl
@[simp] theorem State.putHome_switch (s : State) (line : Nat) (mask : BitVec 128) (data : BitVec 1024) : (s.putHome line mask data).mem.switch = s.mem.switch := rfl
@[simp] theorem State.putHome_peerLines (s : State) (line : Nat) (mask : BitVec 128) (data : BitVec 1024) : (s.putHome line mask data).mem.peerLines = s.mem.peerLines := rfl
@[simp] theorem State.putHome_tick (s : State) (line : Nat) (mask : BitVec 128) (data : BitVec 1024) : (s.putHome line mask data).mem.tick = s.mem.tick := rfl
@[simp] theorem State.putHome_tlbs (s : State) (line : Nat) (mask : BitVec 128) (data : BitVec 1024) : (s.putHome line mask data).mem.tlbs = s.mem.tlbs := rfl
@[simp] theorem State.putHome_poison (s : State) (line : Nat) (mask : BitVec 128) (data : BitVec 1024) : (s.putHome line mask data).mem.poison = s.mem.poison := rfl
@[simp] theorem State.putHome_clearing (s : State) (line : Nat) (mask : BitVec 128) (data : BitVec 1024) : (s.putHome line mask data).mem.clearing = s.mem.clearing := rfl
@[simp] theorem State.putHome_msgs (s : State) (line : Nat) (mask : BitVec 128) (data : BitVec 1024) : (s.putHome line mask data).mem.msgs = s.mem.msgs := rfl
@[simp] theorem State.putHome_demands (s : State) (line : Nat) (mask : BitVec 128) (data : BitVec 1024) : (s.putHome line mask data).mem.demands = s.mem.demands := rfl
@[simp] theorem State.putHome_notices (s : State) (line : Nat) (mask : BitVec 128) (data : BitVec 1024) : (s.putHome line mask data).mem.notices = s.mem.notices := rfl
@[simp] theorem State.putHome_epochDue (s : State) (line : Nat) (mask : BitVec 128) (data : BitVec 1024) : (s.putHome line mask data).mem.epochDue = s.mem.epochDue := rfl

@[simp] theorem State.setDir_gid (s : State) (line : Nat) (e : DirEntry) : (s.setDir line e).gid = s.gid := rfl
@[simp] theorem State.setDir_slot (s : State) (line : Nat) (e : DirEntry) : (s.setDir line e).slot = s.slot := rfl
@[simp] theorem State.setDir_groups (s : State) (line : Nat) (e : DirEntry) : (s.setDir line e).groups = s.groups := rfl
@[simp] theorem State.setDir_teams (s : State) (line : Nat) (e : DirEntry) : (s.setDir line e).teams = s.teams := rfl
@[simp] theorem State.setDir_clusters (s : State) (line : Nat) (e : DirEntry) : (s.setDir line e).clusters = s.clusters := rfl
@[simp] theorem State.setDir_grids (s : State) (line : Nat) (e : DirEntry) : (s.setDir line e).grids = s.grids := rfl
@[simp] theorem State.setDir_cores (s : State) (line : Nat) (e : DirEntry) : (s.setDir line e).cores = s.cores := rfl
@[simp] theorem State.setDir_cp (s : State) (line : Nat) (e : DirEntry) : (s.setDir line e).cp = s.cp := rfl
@[simp] theorem State.setDir_host (s : State) (line : Nat) (e : DirEntry) : (s.setDir line e).host = s.host := rfl
@[simp] theorem State.setDir_lamp (s : State) (line : Nat) (e : DirEntry) : (s.setDir line e).lamp = s.lamp := rfl
@[simp] theorem State.setDir_peers (s : State) (line : Nat) (e : DirEntry) : (s.setDir line e).peers = s.peers := rfl
@[simp] theorem State.setDir_posts (s : State) (line : Nat) (e : DirEntry) : (s.setDir line e).posts = s.posts := rfl
@[simp] theorem State.setDir_time (s : State) (line : Nat) (e : DirEntry) : (s.setDir line e).time = s.time := rfl
@[simp] theorem State.setDir_events (s : State) (line : Nat) (e : DirEntry) : (s.setDir line e).events = s.events := rfl
@[simp] theorem State.setDir_bytes (s : State) (line : Nat) (e : DirEntry) : (s.setDir line e).mem.bytes = s.mem.bytes := rfl
@[simp] theorem State.setDir_scratch (s : State) (line : Nat) (e : DirEntry) : (s.setDir line e).mem.scratch = s.mem.scratch := rfl
@[simp] theorem State.setDir_wicks (s : State) (line : Nat) (e : DirEntry) : (s.setDir line e).mem.wicks = s.mem.wicks := rfl
@[simp] theorem State.setDir_stalled (s : State) (line : Nat) (e : DirEntry) : (s.setDir line e).mem.stalled = s.mem.stalled := rfl
@[simp] theorem State.setDir_switch (s : State) (line : Nat) (e : DirEntry) : (s.setDir line e).mem.switch = s.mem.switch := rfl
@[simp] theorem State.setDir_peerLines (s : State) (line : Nat) (e : DirEntry) : (s.setDir line e).mem.peerLines = s.mem.peerLines := rfl
@[simp] theorem State.setDir_tick (s : State) (line : Nat) (e : DirEntry) : (s.setDir line e).mem.tick = s.mem.tick := rfl
@[simp] theorem State.setDir_tlbs (s : State) (line : Nat) (e : DirEntry) : (s.setDir line e).mem.tlbs = s.mem.tlbs := rfl
@[simp] theorem State.setDir_poison (s : State) (line : Nat) (e : DirEntry) : (s.setDir line e).mem.poison = s.mem.poison := rfl
@[simp] theorem State.setDir_clearing (s : State) (line : Nat) (e : DirEntry) : (s.setDir line e).mem.clearing = s.mem.clearing := rfl
@[simp] theorem State.setDir_msgs (s : State) (line : Nat) (e : DirEntry) : (s.setDir line e).mem.msgs = s.mem.msgs := rfl
@[simp] theorem State.setDir_demands (s : State) (line : Nat) (e : DirEntry) : (s.setDir line e).mem.demands = s.mem.demands := rfl
@[simp] theorem State.setDir_notices (s : State) (line : Nat) (e : DirEntry) : (s.setDir line e).mem.notices = s.mem.notices := rfl
@[simp] theorem State.setDir_epochDue (s : State) (line : Nat) (e : DirEntry) : (s.setDir line e).mem.epochDue = s.mem.epochDue := rfl

@[simp] theorem State.send_gid (s : State) (m : Msg) : (s.send m).gid = s.gid := rfl
@[simp] theorem State.send_slot (s : State) (m : Msg) : (s.send m).slot = s.slot := rfl
@[simp] theorem State.send_groups (s : State) (m : Msg) : (s.send m).groups = s.groups := rfl
@[simp] theorem State.send_teams (s : State) (m : Msg) : (s.send m).teams = s.teams := rfl
@[simp] theorem State.send_clusters (s : State) (m : Msg) : (s.send m).clusters = s.clusters := rfl
@[simp] theorem State.send_grids (s : State) (m : Msg) : (s.send m).grids = s.grids := rfl
@[simp] theorem State.send_cores (s : State) (m : Msg) : (s.send m).cores = s.cores := rfl
@[simp] theorem State.send_cp (s : State) (m : Msg) : (s.send m).cp = s.cp := rfl
@[simp] theorem State.send_host (s : State) (m : Msg) : (s.send m).host = s.host := rfl
@[simp] theorem State.send_lamp (s : State) (m : Msg) : (s.send m).lamp = s.lamp := rfl
@[simp] theorem State.send_peers (s : State) (m : Msg) : (s.send m).peers = s.peers := rfl
@[simp] theorem State.send_posts (s : State) (m : Msg) : (s.send m).posts = s.posts := rfl
@[simp] theorem State.send_time (s : State) (m : Msg) : (s.send m).time = s.time := rfl
@[simp] theorem State.send_events (s : State) (m : Msg) : (s.send m).events = s.events := rfl
@[simp] theorem State.send_bytes (s : State) (m : Msg) : (s.send m).mem.bytes = s.mem.bytes := rfl
@[simp] theorem State.send_scratch (s : State) (m : Msg) : (s.send m).mem.scratch = s.mem.scratch := rfl
@[simp] theorem State.send_wicks (s : State) (m : Msg) : (s.send m).mem.wicks = s.mem.wicks := rfl
@[simp] theorem State.send_dir (s : State) (m : Msg) : (s.send m).mem.dir = s.mem.dir := rfl
@[simp] theorem State.send_stalled (s : State) (m : Msg) : (s.send m).mem.stalled = s.mem.stalled := rfl
@[simp] theorem State.send_switch (s : State) (m : Msg) : (s.send m).mem.switch = s.mem.switch := rfl
@[simp] theorem State.send_peerLines (s : State) (m : Msg) : (s.send m).mem.peerLines = s.mem.peerLines := rfl
@[simp] theorem State.send_tick (s : State) (m : Msg) : (s.send m).mem.tick = s.mem.tick := rfl
@[simp] theorem State.send_tlbs (s : State) (m : Msg) : (s.send m).mem.tlbs = s.mem.tlbs := rfl
@[simp] theorem State.send_poison (s : State) (m : Msg) : (s.send m).mem.poison = s.mem.poison := rfl
@[simp] theorem State.send_clearing (s : State) (m : Msg) : (s.send m).mem.clearing = s.mem.clearing := rfl
@[simp] theorem State.send_demands (s : State) (m : Msg) : (s.send m).mem.demands = s.mem.demands := rfl
@[simp] theorem State.send_notices (s : State) (m : Msg) : (s.send m).mem.notices = s.mem.notices := rfl
@[simp] theorem State.send_epochDue (s : State) (m : Msg) : (s.send m).mem.epochDue = s.mem.epochDue := rfl

@[simp] theorem State.dropSwitch_gid (s : State) (line : Nat) : (s.dropSwitch line).gid = s.gid := rfl
@[simp] theorem State.dropSwitch_slot (s : State) (line : Nat) : (s.dropSwitch line).slot = s.slot := rfl
@[simp] theorem State.dropSwitch_groups (s : State) (line : Nat) : (s.dropSwitch line).groups = s.groups := rfl
@[simp] theorem State.dropSwitch_teams (s : State) (line : Nat) : (s.dropSwitch line).teams = s.teams := rfl
@[simp] theorem State.dropSwitch_clusters (s : State) (line : Nat) : (s.dropSwitch line).clusters = s.clusters := rfl
@[simp] theorem State.dropSwitch_grids (s : State) (line : Nat) : (s.dropSwitch line).grids = s.grids := rfl
@[simp] theorem State.dropSwitch_cores (s : State) (line : Nat) : (s.dropSwitch line).cores = s.cores := rfl
@[simp] theorem State.dropSwitch_cp (s : State) (line : Nat) : (s.dropSwitch line).cp = s.cp := rfl
@[simp] theorem State.dropSwitch_host (s : State) (line : Nat) : (s.dropSwitch line).host = s.host := rfl
@[simp] theorem State.dropSwitch_lamp (s : State) (line : Nat) : (s.dropSwitch line).lamp = s.lamp := rfl
@[simp] theorem State.dropSwitch_peers (s : State) (line : Nat) : (s.dropSwitch line).peers = s.peers := rfl
@[simp] theorem State.dropSwitch_posts (s : State) (line : Nat) : (s.dropSwitch line).posts = s.posts := rfl
@[simp] theorem State.dropSwitch_time (s : State) (line : Nat) : (s.dropSwitch line).time = s.time := rfl
@[simp] theorem State.dropSwitch_events (s : State) (line : Nat) : (s.dropSwitch line).events = s.events := rfl
@[simp] theorem State.dropSwitch_bytes (s : State) (line : Nat) : (s.dropSwitch line).mem.bytes = s.mem.bytes := rfl
@[simp] theorem State.dropSwitch_scratch (s : State) (line : Nat) : (s.dropSwitch line).mem.scratch = s.mem.scratch := rfl
@[simp] theorem State.dropSwitch_wicks (s : State) (line : Nat) : (s.dropSwitch line).mem.wicks = s.mem.wicks := rfl
@[simp] theorem State.dropSwitch_dir (s : State) (line : Nat) : (s.dropSwitch line).mem.dir = s.mem.dir := rfl
@[simp] theorem State.dropSwitch_stalled (s : State) (line : Nat) : (s.dropSwitch line).mem.stalled = s.mem.stalled := rfl
@[simp] theorem State.dropSwitch_peerLines (s : State) (line : Nat) : (s.dropSwitch line).mem.peerLines = s.mem.peerLines := rfl
@[simp] theorem State.dropSwitch_tick (s : State) (line : Nat) : (s.dropSwitch line).mem.tick = s.mem.tick := rfl
@[simp] theorem State.dropSwitch_tlbs (s : State) (line : Nat) : (s.dropSwitch line).mem.tlbs = s.mem.tlbs := rfl
@[simp] theorem State.dropSwitch_poison (s : State) (line : Nat) : (s.dropSwitch line).mem.poison = s.mem.poison := rfl
@[simp] theorem State.dropSwitch_clearing (s : State) (line : Nat) : (s.dropSwitch line).mem.clearing = s.mem.clearing := rfl
@[simp] theorem State.dropSwitch_msgs (s : State) (line : Nat) : (s.dropSwitch line).mem.msgs = s.mem.msgs := rfl
@[simp] theorem State.dropSwitch_demands (s : State) (line : Nat) : (s.dropSwitch line).mem.demands = s.mem.demands := rfl
@[simp] theorem State.dropSwitch_notices (s : State) (line : Nat) : (s.dropSwitch line).mem.notices = s.mem.notices := rfl
@[simp] theorem State.dropSwitch_epochDue (s : State) (line : Nat) : (s.dropSwitch line).mem.epochDue = s.mem.epochDue := rfl

@[simp] theorem State.setPeer_gid (s : State) (line : Nat) (st : BitVec 3) : (s.setPeer line st).gid = s.gid := rfl
@[simp] theorem State.setPeer_slot (s : State) (line : Nat) (st : BitVec 3) : (s.setPeer line st).slot = s.slot := rfl
@[simp] theorem State.setPeer_groups (s : State) (line : Nat) (st : BitVec 3) : (s.setPeer line st).groups = s.groups := rfl
@[simp] theorem State.setPeer_teams (s : State) (line : Nat) (st : BitVec 3) : (s.setPeer line st).teams = s.teams := rfl
@[simp] theorem State.setPeer_clusters (s : State) (line : Nat) (st : BitVec 3) : (s.setPeer line st).clusters = s.clusters := rfl
@[simp] theorem State.setPeer_grids (s : State) (line : Nat) (st : BitVec 3) : (s.setPeer line st).grids = s.grids := rfl
@[simp] theorem State.setPeer_cores (s : State) (line : Nat) (st : BitVec 3) : (s.setPeer line st).cores = s.cores := rfl
@[simp] theorem State.setPeer_cp (s : State) (line : Nat) (st : BitVec 3) : (s.setPeer line st).cp = s.cp := rfl
@[simp] theorem State.setPeer_host (s : State) (line : Nat) (st : BitVec 3) : (s.setPeer line st).host = s.host := rfl
@[simp] theorem State.setPeer_lamp (s : State) (line : Nat) (st : BitVec 3) : (s.setPeer line st).lamp = s.lamp := rfl
@[simp] theorem State.setPeer_peers (s : State) (line : Nat) (st : BitVec 3) : (s.setPeer line st).peers = s.peers := rfl
@[simp] theorem State.setPeer_posts (s : State) (line : Nat) (st : BitVec 3) : (s.setPeer line st).posts = s.posts := rfl
@[simp] theorem State.setPeer_time (s : State) (line : Nat) (st : BitVec 3) : (s.setPeer line st).time = s.time := rfl
@[simp] theorem State.setPeer_events (s : State) (line : Nat) (st : BitVec 3) : (s.setPeer line st).events = s.events := rfl
@[simp] theorem State.setPeer_bytes (s : State) (line : Nat) (st : BitVec 3) : (s.setPeer line st).mem.bytes = s.mem.bytes := rfl
@[simp] theorem State.setPeer_scratch (s : State) (line : Nat) (st : BitVec 3) : (s.setPeer line st).mem.scratch = s.mem.scratch := rfl
@[simp] theorem State.setPeer_wicks (s : State) (line : Nat) (st : BitVec 3) : (s.setPeer line st).mem.wicks = s.mem.wicks := rfl
@[simp] theorem State.setPeer_dir (s : State) (line : Nat) (st : BitVec 3) : (s.setPeer line st).mem.dir = s.mem.dir := rfl
@[simp] theorem State.setPeer_stalled (s : State) (line : Nat) (st : BitVec 3) : (s.setPeer line st).mem.stalled = s.mem.stalled := rfl
@[simp] theorem State.setPeer_switch (s : State) (line : Nat) (st : BitVec 3) : (s.setPeer line st).mem.switch = s.mem.switch := rfl
@[simp] theorem State.setPeer_tick (s : State) (line : Nat) (st : BitVec 3) : (s.setPeer line st).mem.tick = s.mem.tick := rfl
@[simp] theorem State.setPeer_tlbs (s : State) (line : Nat) (st : BitVec 3) : (s.setPeer line st).mem.tlbs = s.mem.tlbs := rfl
@[simp] theorem State.setPeer_poison (s : State) (line : Nat) (st : BitVec 3) : (s.setPeer line st).mem.poison = s.mem.poison := rfl
@[simp] theorem State.setPeer_clearing (s : State) (line : Nat) (st : BitVec 3) : (s.setPeer line st).mem.clearing = s.mem.clearing := rfl
@[simp] theorem State.setPeer_msgs (s : State) (line : Nat) (st : BitVec 3) : (s.setPeer line st).mem.msgs = s.mem.msgs := rfl
@[simp] theorem State.setPeer_demands (s : State) (line : Nat) (st : BitVec 3) : (s.setPeer line st).mem.demands = s.mem.demands := rfl
@[simp] theorem State.setPeer_notices (s : State) (line : Nat) (st : BitVec 3) : (s.setPeer line st).mem.notices = s.mem.notices := rfl
@[simp] theorem State.setPeer_epochDue (s : State) (line : Nat) (st : BitVec 3) : (s.setPeer line st).mem.epochDue = s.mem.epochDue := rfl

@[simp] theorem State.setWick_gid (s : State) (line : Nat) (w : Wick) : (s.setWick line w).gid = s.gid := rfl
@[simp] theorem State.setWick_slot (s : State) (line : Nat) (w : Wick) : (s.setWick line w).slot = s.slot := rfl
@[simp] theorem State.setWick_groups (s : State) (line : Nat) (w : Wick) : (s.setWick line w).groups = s.groups := rfl
@[simp] theorem State.setWick_teams (s : State) (line : Nat) (w : Wick) : (s.setWick line w).teams = s.teams := rfl
@[simp] theorem State.setWick_clusters (s : State) (line : Nat) (w : Wick) : (s.setWick line w).clusters = s.clusters := rfl
@[simp] theorem State.setWick_grids (s : State) (line : Nat) (w : Wick) : (s.setWick line w).grids = s.grids := rfl
@[simp] theorem State.setWick_cores (s : State) (line : Nat) (w : Wick) : (s.setWick line w).cores = s.cores := rfl
@[simp] theorem State.setWick_cp (s : State) (line : Nat) (w : Wick) : (s.setWick line w).cp = s.cp := rfl
@[simp] theorem State.setWick_host (s : State) (line : Nat) (w : Wick) : (s.setWick line w).host = s.host := rfl
@[simp] theorem State.setWick_lamp (s : State) (line : Nat) (w : Wick) : (s.setWick line w).lamp = s.lamp := rfl
@[simp] theorem State.setWick_peers (s : State) (line : Nat) (w : Wick) : (s.setWick line w).peers = s.peers := rfl
@[simp] theorem State.setWick_posts (s : State) (line : Nat) (w : Wick) : (s.setWick line w).posts = s.posts := rfl
@[simp] theorem State.setWick_time (s : State) (line : Nat) (w : Wick) : (s.setWick line w).time = s.time := rfl
@[simp] theorem State.setWick_events (s : State) (line : Nat) (w : Wick) : (s.setWick line w).events = s.events := rfl
@[simp] theorem State.setWick_bytes (s : State) (line : Nat) (w : Wick) : (s.setWick line w).mem.bytes = s.mem.bytes := rfl
@[simp] theorem State.setWick_scratch (s : State) (line : Nat) (w : Wick) : (s.setWick line w).mem.scratch = s.mem.scratch := rfl
@[simp] theorem State.setWick_dir (s : State) (line : Nat) (w : Wick) : (s.setWick line w).mem.dir = s.mem.dir := rfl
@[simp] theorem State.setWick_stalled (s : State) (line : Nat) (w : Wick) : (s.setWick line w).mem.stalled = s.mem.stalled := rfl
@[simp] theorem State.setWick_switch (s : State) (line : Nat) (w : Wick) : (s.setWick line w).mem.switch = s.mem.switch := rfl
@[simp] theorem State.setWick_peerLines (s : State) (line : Nat) (w : Wick) : (s.setWick line w).mem.peerLines = s.mem.peerLines := rfl
@[simp] theorem State.setWick_tick (s : State) (line : Nat) (w : Wick) : (s.setWick line w).mem.tick = s.mem.tick := rfl
@[simp] theorem State.setWick_tlbs (s : State) (line : Nat) (w : Wick) : (s.setWick line w).mem.tlbs = s.mem.tlbs := rfl
@[simp] theorem State.setWick_poison (s : State) (line : Nat) (w : Wick) : (s.setWick line w).mem.poison = s.mem.poison := rfl
@[simp] theorem State.setWick_clearing (s : State) (line : Nat) (w : Wick) : (s.setWick line w).mem.clearing = s.mem.clearing := rfl
@[simp] theorem State.setWick_msgs (s : State) (line : Nat) (w : Wick) : (s.setWick line w).mem.msgs = s.mem.msgs := rfl
@[simp] theorem State.setWick_demands (s : State) (line : Nat) (w : Wick) : (s.setWick line w).mem.demands = s.mem.demands := rfl
@[simp] theorem State.setWick_notices (s : State) (line : Nat) (w : Wick) : (s.setWick line w).mem.notices = s.mem.notices := rfl
@[simp] theorem State.setWick_epochDue (s : State) (line : Nat) (w : Wick) : (s.setWick line w).mem.epochDue = s.mem.epochDue := rfl

@[simp] theorem State.scratchWrite_gid (s : State) (team off n x : Nat) : (s.scratchWrite team off n x).gid = s.gid := rfl
@[simp] theorem State.scratchWrite_slot (s : State) (team off n x : Nat) : (s.scratchWrite team off n x).slot = s.slot := rfl
@[simp] theorem State.scratchWrite_groups (s : State) (team off n x : Nat) : (s.scratchWrite team off n x).groups = s.groups := rfl
@[simp] theorem State.scratchWrite_teams (s : State) (team off n x : Nat) : (s.scratchWrite team off n x).teams = s.teams := rfl
@[simp] theorem State.scratchWrite_clusters (s : State) (team off n x : Nat) : (s.scratchWrite team off n x).clusters = s.clusters := rfl
@[simp] theorem State.scratchWrite_grids (s : State) (team off n x : Nat) : (s.scratchWrite team off n x).grids = s.grids := rfl
@[simp] theorem State.scratchWrite_cores (s : State) (team off n x : Nat) : (s.scratchWrite team off n x).cores = s.cores := rfl
@[simp] theorem State.scratchWrite_cp (s : State) (team off n x : Nat) : (s.scratchWrite team off n x).cp = s.cp := rfl
@[simp] theorem State.scratchWrite_host (s : State) (team off n x : Nat) : (s.scratchWrite team off n x).host = s.host := rfl
@[simp] theorem State.scratchWrite_lamp (s : State) (team off n x : Nat) : (s.scratchWrite team off n x).lamp = s.lamp := rfl
@[simp] theorem State.scratchWrite_peers (s : State) (team off n x : Nat) : (s.scratchWrite team off n x).peers = s.peers := rfl
@[simp] theorem State.scratchWrite_posts (s : State) (team off n x : Nat) : (s.scratchWrite team off n x).posts = s.posts := rfl
@[simp] theorem State.scratchWrite_time (s : State) (team off n x : Nat) : (s.scratchWrite team off n x).time = s.time := rfl
@[simp] theorem State.scratchWrite_events (s : State) (team off n x : Nat) : (s.scratchWrite team off n x).events = s.events := rfl
@[simp] theorem State.scratchWrite_bytes (s : State) (team off n x : Nat) : (s.scratchWrite team off n x).mem.bytes = s.mem.bytes := rfl
@[simp] theorem State.scratchWrite_wicks (s : State) (team off n x : Nat) : (s.scratchWrite team off n x).mem.wicks = s.mem.wicks := rfl
@[simp] theorem State.scratchWrite_dir (s : State) (team off n x : Nat) : (s.scratchWrite team off n x).mem.dir = s.mem.dir := rfl
@[simp] theorem State.scratchWrite_stalled (s : State) (team off n x : Nat) : (s.scratchWrite team off n x).mem.stalled = s.mem.stalled := rfl
@[simp] theorem State.scratchWrite_switch (s : State) (team off n x : Nat) : (s.scratchWrite team off n x).mem.switch = s.mem.switch := rfl
@[simp] theorem State.scratchWrite_peerLines (s : State) (team off n x : Nat) : (s.scratchWrite team off n x).mem.peerLines = s.mem.peerLines := rfl
@[simp] theorem State.scratchWrite_tick (s : State) (team off n x : Nat) : (s.scratchWrite team off n x).mem.tick = s.mem.tick := rfl
@[simp] theorem State.scratchWrite_tlbs (s : State) (team off n x : Nat) : (s.scratchWrite team off n x).mem.tlbs = s.mem.tlbs := rfl
@[simp] theorem State.scratchWrite_poison (s : State) (team off n x : Nat) : (s.scratchWrite team off n x).mem.poison = s.mem.poison := rfl
@[simp] theorem State.scratchWrite_clearing (s : State) (team off n x : Nat) : (s.scratchWrite team off n x).mem.clearing = s.mem.clearing := rfl
@[simp] theorem State.scratchWrite_msgs (s : State) (team off n x : Nat) : (s.scratchWrite team off n x).mem.msgs = s.mem.msgs := rfl
@[simp] theorem State.scratchWrite_demands (s : State) (team off n x : Nat) : (s.scratchWrite team off n x).mem.demands = s.mem.demands := rfl
@[simp] theorem State.scratchWrite_notices (s : State) (team off n x : Nat) : (s.scratchWrite team off n x).mem.notices = s.mem.notices := rfl
@[simp] theorem State.scratchWrite_epochDue (s : State) (team off n x : Nat) : (s.scratchWrite team off n x).mem.epochDue = s.mem.epochDue := rfl

/-- A state whose memories are another's has them in canonical form where that one has. -/
theorem State.memoryWf_of_mem {s t : State} (hb : t.mem.bytes = s.mem.bytes) (hc : t.mem.scratch = s.mem.scratch) :
    t.memoryWf = s.memoryWf := by
  rw [State.memoryWf, hb, hc, State.memoryWf]

theorem putBytes_wf (line : Nat) (mask : BitVec 128) (data : BitVec 1024) : ∀ (ks : List Nat) (m : Store 8), Store.wf m = true →
    Store.wf (putBytes m line mask data ks) = true
  | [], _, h => h
  | k :: ks, m, h => by
    rw [putBytes]
    apply putBytes_wf
    split
    · exact Store.wf_set h ..
    · exact h

theorem putScratch_wf : ∀ (n : Nat) (m : Store 8) (key x : Nat), Store.wf m = true → Store.wf (putScratch m key x n) = true
  | 0, _, _, _, h => h
  | n + 1, _, _, _, h => putScratch_wf n _ _ _ (Store.wf_set h ..)

theorem State.putHome_wf {s : State} (h : s.memoryWf = true) (line : Nat) (mask : BitVec 128) (data : BitVec 1024) :
    (s.putHome line mask data).memoryWf = true := by
  simp only [State.memoryWf, Memory.wf, Bool.and_eq_true] at h ⊢
  exact ⟨putBytes_wf _ _ _ _ _ h.1, h.2⟩

theorem State.scratchWrite_wf {s : State} (h : s.memoryWf = true) (team off n x : Nat) : (s.scratchWrite team off n x).memoryWf = true := by
  simp only [State.memoryWf, Memory.wf, Bool.and_eq_true] at h ⊢
  exact ⟨h.1, putScratch_wf _ _ _ _ h.2⟩

@[simp] theorem State.setDir_wf (s : State) (line : Nat) (e : DirEntry) : (s.setDir line e).memoryWf = s.memoryWf := rfl
@[simp] theorem State.send_wf (s : State) (m : Msg) : (s.send m).memoryWf = s.memoryWf := rfl
@[simp] theorem State.dropSwitch_wf (s : State) (line : Nat) : (s.dropSwitch line).memoryWf = s.memoryWf := rfl
@[simp] theorem State.setPeer_wf (s : State) (line : Nat) (st : BitVec 3) : (s.setPeer line st).memoryWf = s.memoryWf := rfl
@[simp] theorem State.setWick_wf (s : State) (line : Nat) (w : Wick) : (s.setWick line w).memoryWf = s.memoryWf := rfl
@[simp] theorem State.setGrp_wf (s : State) (g : Group) : (s.setGrp g).memoryWf = s.memoryWf := rfl
@[simp] theorem State.setCore_wf (s : State) (c : CoreState) : (s.setCore c).memoryWf = s.memoryWf := rfl
@[simp] theorem State.setCoreAt_wf (s : State) (k : Nat) (c : CoreState) : (s.setCoreAt k c).memoryWf = s.memoryWf := rfl
@[simp] theorem State.setTeamAt_wf (s : State) (k : Nat) (x : Team) : (s.setTeamAt k x).memoryWf = s.memoryWf := rfl
@[simp] theorem State.setGridAt_wf (s : State) (k : Nat) (x : Grid) : (s.setGridAt k x).memoryWf = s.memoryWf := rfl
@[simp] theorem State.setClusterAt_wf (s : State) (k : Nat) (x : Cluster) : (s.setClusterAt k x).memoryWf = s.memoryWf := rfl

@[simp] theorem State.touch_wf (s : State) (line : Nat) : (s.touch line).memoryWf = s.memoryWf := by
  rw [State.touch]; split <;> rfl
@[simp] theorem State.shareSwitch_wf (s : State) (line : Nat) : (s.shareSwitch line).memoryWf = s.memoryWf := by
  rw [State.shareSwitch]; split <;> rfl
@[simp] theorem State.leaves_wf (s : State) (line a : Nat) : (s.leaves line a).memoryWf = s.memoryWf := by
  rw [State.leaves]; split <;> rfl
@[simp] theorem State.unpoison_wf (s : State) (line : Nat) (mask : BitVec 128) (c : Bool) :
    (s.unpoison line mask c).memoryWf = s.memoryWf := by
  rw [State.unpoison]; split <;> rfl

@[simp] theorem State.dropPeer_wf (s : State) (line : Nat) : (s.dropPeer line).memoryWf = s.memoryWf := by
  rw [State.dropPeer]; split <;> rfl

/-- What holds of a state and of every step of a fold holds of its result. -/
theorem foldl_keeps {α β : Type} {p : β → Prop} {f : β → α → β} (hf : ∀ b a, p b → p (f b a)) : ∀ (l : List α) {b : β}, p b → p (l.foldl f b)
  | [], _, h => h
  | _ :: l, _, h => foldl_keeps hf l (hf _ _ h)

theorem State.sends_wf (l : List Msg) (s : State) : (l.foldl State.send s).memoryWf = s.memoryWf := by
  induction l generalizing s with
  | nil => rfl
  | cons m l ih => exact ih _
@[simp] theorem State.beginService_wf (s : State) (line : Nat) (r : Request) (l : List Msg) :
    (s.beginService line r l).memoryWf = s.memoryWf := State.sends_wf ..

theorem State.merge_wf {s : State} (h : s.memoryWf = true) (line : Nat) : (s.merge line).memoryWf = true :=
  foldl_keeps (p := fun t : State => t.memoryWf = true) (fun _ _ hb => State.putHome_wf hb ..) _ h
theorem State.performHome_wf {s : State} (h : s.memoryWf = true) (line : Nat) (mask : BitVec 128) (data : BitVec 1024) (c : Bool) :
    (s.performHome line mask data c).memoryWf = true := by
  rw [State.performHome, State.dropPeer_wf, State.unpoison_wf]; exact State.putHome_wf h ..
theorem State.sendBack_wf {s : State} (h : s.memoryWf = true) (line x : Nat) : (s.sendBack line x).memoryWf = true := by
  rw [State.sendBack]
  split
  · exact State.merge_wf h line
  · dsimp only; split <;> exact h
theorem State.handBack_wf {s : State} (h : s.memoryWf = true) (line x : Nat) : (s.handBack line x).memoryWf = true := by
  rw [State.handBack]
  split
  · exact State.merge_wf h line
  · rw [State.setDir_wf]; exact State.putHome_wf h ..
theorem State.trimL2_wf {s : State} (h : s.memoryWf = true) (die line : Nat) : (s.trimL2 die line).memoryWf = true := by
  rw [State.trimL2]
  split
  · exact h
  · dsimp only
    split
    · exact h
    · split
      · exact State.handBack_wf h ..
      · exact h
theorem State.grantRead_wf {s : State} (h : s.memoryWf = true) (line agent : Nat) : (s.grantRead line agent).memoryWf = true :=
  State.trimL2_wf (by exact h) ..
theorem State.grantOwn_wf {s : State} (h : s.memoryWf = true) (line agent : Nat) (mask : BitVec 128) (bytes : BitVec 1024) :
    (s.grantOwn line agent mask bytes).memoryWf = true := State.trimL2_wf (by exact h) ..
theorem State.claimRead_wf {s : State} (h : s.memoryWf = true) (line agent : Nat) (mask : BitVec 128) :
    (s.claimRead line agent mask).memoryWf = true := by
  unfold State.claimRead
  dsimp only
  split
  · exact h
  · split
    · exact h
    · exact State.grantRead_wf (State.merge_wf h line) ..
theorem State.claimOwn_wf {s : State} (h : s.memoryWf = true) (line agent : Nat) (mask : BitVec 128) (bytes : BitVec 1024) :
    (s.claimOwn line agent mask bytes).memoryWf = true := by
  unfold State.claimOwn
  dsimp only
  split
  · exact h
  · exact State.grantOwn_wf (State.merge_wf h line) ..
@[simp] theorem State.privatise_wf (s : State) (line x agent : Nat) (mask : BitVec 128) (bytes : BitVec 1024) :
    (s.privatise line x agent mask bytes).memoryWf = s.memoryWf := rfl
theorem State.serveHeld_wf {s : State} (h : s.memoryWf = true) (line : Nat) (r : Request) : (s.serveHeld line r).memoryWf = true := by
  have hm := State.merge_wf h line
  unfold State.serveHeld
  rw [State.touch_wf]
  cases r <;> dsimp only <;> repeat' split
  all_goals
    simp only [State.beginService_wf, State.setDir_wf, State.privatise_wf, h, State.claimRead_wf h, State.claimOwn_wf h,
      State.grantRead_wf h, State.grantRead_wf hm, State.grantOwn_wf h, State.grantOwn_wf hm, State.performHome_wf h,
      State.performHome_wf hm]
theorem State.serve_wf {s : State} (h : s.memoryWf = true) (line : Nat) (r : Request) : (s.serve line r).memoryWf = true := by
  unfold State.serve
  dsimp only
  repeat' split
  · exact h
  · exact h
  · exact State.serveHeld_wf (State.merge_wf h _) ..
  · rw [State.beginService_wf, h]
  · exact State.serveHeld_wf h ..
theorem State.wake_wf {s : State} (h : s.memoryWf = true) (line : Nat) : (s.wake line).memoryWf = true := by
  rw [State.wake]
  split
  · exact h
  · exact foldl_keeps (p := fun t : State => t.memoryWf = true) (fun _ _ hb => State.serve_wf hb ..) _ (by exact h)
theorem State.served_wf {s : State} (h : s.memoryWf = true) (line : Nat) (l : List Request) :
    ((l.foldl (fun s r => s.serve line r) s).wake line).memoryWf = true :=
  State.wake_wf (foldl_keeps (p := fun t : State => t.memoryWf = true) (fun _ _ hb => State.serve_wf hb ..) _ h) line
theorem State.endService_wf {s : State} (h : s.memoryWf = true) (line : Nat) : (s.endService line).memoryWf = true :=
  State.served_wf (by exact h) ..
theorem State.proceed_wf {s : State} (h : s.memoryWf = true) (line : Nat) : (s.proceed line).memoryWf = true := by
  unfold State.proceed
  dsimp only
  split
  · exact State.endService_wf (State.performHome_wf h ..) line
  · exact State.endService_wf (State.grantOwn_wf h ..) line
  · exact State.endService_wf (State.grantRead_wf h ..) line
  · exact State.served_wf (State.serve_wf (by exact h) ..) ..
  · exact State.endService_wf h line
theorem State.onFwd_wf {s : State} (h : s.memoryWf = true) (line x : Nat) : (s.onFwd line x).memoryWf = true := by
  unfold State.onFwd
  dsimp only
  repeat' split
  all_goals simpa using h
theorem State.onFwdData_wf {s : State} (h : s.memoryWf = true) (line a : Nat) (data : BitVec 1024) (dirty : BitVec 128) (own : Bool) :
    (s.onFwdData line a data dirty own).memoryWf = true := by
  unfold State.onFwdData
  dsimp only
  split
  · exact State.trimL2_wf (State.endService_wf (by exact h) line) ..
  · exact h
theorem State.gaveBack_wf {s : State} (h : s.memoryWf = true) (line x : Nat) : (s.gaveBack line x).memoryWf = true := by
  have hl : (s.leaves line x).memoryWf = true := (State.leaves_wf ..).trans h
  unfold State.gaveBack
  dsimp only
  split <;> (split; exacts [State.proceed_wf (by exact hl) line, hl])
theorem State.onWbData_wf {s : State} (h : s.memoryWf = true) (line x : Nat) (data : BitVec 1024) (mask : BitVec 128) (keep : Bool) :
    (s.onWbData line x data mask keep).memoryWf = true := by
  have hp := State.putHome_wf h line mask data
  unfold State.onWbData
  dsimp only
  split
  · exact State.gaveBack_wf hp ..
  · split
    · exact State.trimL2_wf (State.endService_wf (by exact hp) line) ..
    · exact State.endService_wf hp line
theorem State.onInv_wf {s : State} (h : s.memoryWf = true) (line a : Nat) : (s.onInv line a).memoryWf = true := by
  unfold State.onInv
  dsimp only
  repeat' split
  all_goals exact h
theorem State.onMsg_wf {s : State} (h : s.memoryWf = true) (m : Msg) : (s.onMsg m).memoryWf = true := by
  cases m
  case fwd => exact State.onFwd_wf h ..
  case fwdData => exact State.onFwdData_wf h ..
  case wbData => exact State.onWbData_wf h ..
  case inv => exact State.onInv_wf h ..
  case binv => exact State.onInv_wf h ..
  case invAck => exact State.gaveBack_wf h ..
  case data => simp only [State.onMsg, State.onData]; split <;> exact h
theorem State.takeMsg_wf {s t : State} {m : Msg} {p : Msg → Bool} (h : s.memoryWf = true) (ht : s.takeMsg p = some (m, t)) :
    t.memoryWf = true := by
  unfold State.takeMsg at ht
  split at ht
  · cases ht; exact h
  · cases ht
theorem State.settle_wf (line : Nat) : ∀ (n : Nat) {s : State}, s.memoryWf = true → (State.settle n line s).memoryWf = true
  | 0, _, h => h
  | n + 1, s, h => by
    rw [State.settle]
    split
    · exact State.settle_wf line n (State.onMsg_wf (State.takeMsg_wf h ‹_›) _)
    · exact h
theorem State.request_wf {s : State} (h : s.memoryWf = true) (line : Nat) (r : Request) : (s.request line r).memoryWf = true :=
  State.settle_wf _ _ (State.serve_wf (State.settle_wf _ _ h) ..)
theorem State.homeDieRead_wf {s : State} (h : s.memoryWf = true) (line : Nat) (mask : BitVec 128) :
    (s.homeDieRead line mask).memoryWf = true := by
  have hs := State.settle_wf line 64 h
  unfold State.homeDieRead
  rw [State.touch_wf]
  dsimp only
  repeat' split
  all_goals simp only [State.shareSwitch_wf, State.setPeer_wf, State.setDir_wf, hs, State.merge_wf hs, State.putHome_wf hs]
theorem State.fetchLine_wf {s : State} (h : s.memoryWf = true) (die line : Nat) (mask : BitVec 128) :
    (s.fetchLine die line mask).1.memoryWf = true := by
  have hs := State.settle_wf line 64 h
  unfold State.fetchLine
  dsimp only
  split
  · exact State.homeDieRead_wf h ..
  · split
    · split
      · exact h
      · exact h
    · split
      · split
        · exact State.settle_wf _ _ ((State.touch_wf ..).trans (State.claimRead_wf hs ..))
        · exact hs
      · exact State.request_wf hs ..
/-- A write-back keeps the canonical form, whichever way it takes. -/
theorem State.performWrite_wf {s : State} (h : s.memoryWf = true) (die line : Nat) (mask : BitVec 128) (data : BitVec 1024) :
    (s.performWrite die line mask data).memoryWf = true := by
  have hu : (s.unpoison line mask false).memoryWf = true := (State.unpoison_wf ..).trans h
  have hs := State.settle_wf line 64 hu
  unfold State.performWrite
  dsimp only
  split
  · exact State.request_wf hu ..
  · split
    · rw [State.setPeer_wf]; exact State.putHome_wf hu ..
    · split
      · rw [State.setDir_wf, hs]
      · split
        · rw [State.setDir_wf, hs]
        · exact State.request_wf hs ..
theorem State.physWrite_wf {s : State} (h : s.memoryWf = true) (pa n x : Nat) : (s.physWrite pa n x).memoryWf = true :=
  State.request_wf h ..

end Sys2Proof.Machine
end

