-- ==== Sys2Proof/Laws/Registers.lean ====
section
/-! SUPPORT. Reads of registers after writes, and what a register result of an instruction does. -/

namespace Sys2Proof.Machine

@[simp] theorem Regs.setLanesFrom_other (r : Regs) (n : Nat) (m : Mask) (f : Nat → Word) (ls : List Nat) :
    (r.setLanesFrom n m f ls).g = r.g ∧ (r.setLanesFrom n m f ls).p = r.p ∧ (r.setLanesFrom n m f ls).q = r.q ∧
    (r.setLanesFrom n m f ls).acc = r.acc ∧ (r.setLanesFrom n m f ls).openAcc = r.openAcc ∧
    (r.setLanesFrom n m f ls).gmode = r.gmode ∧ (r.setLanesFrom n m f ls).role = r.role ∧
    (r.setLanesFrom n m f ls).scount = r.scount ∧ (r.setLanesFrom n m f ls).clock = r.clock ∧
    (r.setLanesFrom n m f ls).tseq = r.tseq := by
  induction ls generalizing r with
  | nil => simp [Regs.setLanesFrom]
  | cons l ls ih =>
    simp only [Regs.setLanesFrom]
    have := ih (if m.has l then r.setV n l (f l) else r)
    split <;> simp_all [Regs.setV]

theorem Regs.getV_setV (r : Regs) (n l n' l' : Nat) (x : Word) (hl : l < 32) (hl' : l' < 32) :
    (r.setV n l x).getV n' l' = if n' = n ∧ l' = l then x else r.getV n' l' := by
  simp only [Regs.getV, Regs.setV, AMap.get_set]
  congr 1
  simp only [eq_iff_iff]
  omega

theorem Regs.getV_setLanesFrom (n : Nat) (m : Mask) (f : Nat → Word) {n' l' : Nat} (hl' : l' < 32) :
    ∀ (ls : List Nat) (r : Regs), (∀ l ∈ ls, l < 32) →
      (r.setLanesFrom n m f ls).getV n' l' = if n' = n ∧ l' ∈ ls ∧ m.has l' = true then f l' else r.getV n' l'
  | [], r, _ => by simp [Regs.setLanesFrom]
  | l :: ls, r, h => by
    have hl : l < 32 := h l List.mem_cons_self
    have step : (if m.has l then r.setV n l (f l) else r).getV n' l' =
        if n' = n ∧ l' = l ∧ m.has l' = true then f l' else r.getV n' l' := by
      by_cases hm : m.has l = true
      · simp only [hm, if_true, Regs.getV_setV _ _ _ _ _ _ hl hl']
        by_cases h4 : l' = l <;> simp_all
      · by_cases h4 : l' = l <;> simp_all
    rw [Regs.setLanesFrom, Regs.getV_setLanesFrom n m f hl' ls _ fun k hk => h k (List.mem_cons_of_mem _ hk), step]
    by_cases h1 : n' = n <;> by_cases h3 : m.has l' = true <;> by_cases h2 : l' ∈ ls <;> by_cases h4 : l' = l <;>
      simp_all

/-- A read of a vector register after a write of some lanes. -/
theorem Regs.getV_setLanes (r : Regs) (n : Nat) (m : Mask) (f : Nat → Word) {n' l' : Nat} (hl' : l' < 32) :
    (r.setLanes n m f).getV n' l' = if n' = n ∧ m.has l' = true then f l' else r.getV n' l' := by
  rw [Regs.setLanes, Regs.getV_setLanesFrom n m f hl' lanes r (by simp)]
  simp [hl']

@[simp] theorem Regs.getV_clock (r : Regs) (x : DWord) (n l : Nat) : ({ r with clock := x } : Regs).getV n l = r.getV n l := rfl
@[simp] theorem Regs.getG_clock (r : Regs) (x : DWord) (n : Nat) : ({ r with clock := x } : Regs).getG n = r.getG n := rfl
@[simp] theorem Regs.getP_clock (r : Regs) (x : DWord) (n : Nat) : ({ r with clock := x } : Regs).getP n = r.getP n := rfl
@[simp] theorem Regs.getQ_clock (r : Regs) (x : DWord) (n : Nat) : ({ r with clock := x } : Regs).getQ n = r.getQ n := rfl
@[simp] theorem Regs.getAcc_clock (r : Regs) (x : DWord) (b i j : Nat) : ({ r with clock := x } : Regs).getAcc b i j = r.getAcc b i j := rfl
@[simp] theorem Regs.getSc_clock (r : Regs) (x : DWord) (l : Nat) : ({ r with clock := x } : Regs).getSc l = r.getSc l := rfl
@[simp] theorem Regs.getV_tseq (r : Regs) (x : Word) (n l : Nat) : ({ r with tseq := x } : Regs).getV n l = r.getV n l := rfl
@[simp] theorem Regs.getG_tseq (r : Regs) (x : Word) (n : Nat) : ({ r with tseq := x } : Regs).getG n = r.getG n := rfl
@[simp] theorem Regs.getP_tseq (r : Regs) (x : Word) (n : Nat) : ({ r with tseq := x } : Regs).getP n = r.getP n := rfl
@[simp] theorem Regs.getQ_tseq (r : Regs) (x : Word) (n : Nat) : ({ r with tseq := x } : Regs).getQ n = r.getQ n := rfl
@[simp] theorem Regs.getAcc_tseq (r : Regs) (x : Word) (b i j : Nat) : ({ r with tseq := x } : Regs).getAcc b i j = r.getAcc b i j := rfl
@[simp] theorem Regs.getSc_tseq (r : Regs) (x : Word) (l : Nat) : ({ r with tseq := x } : Regs).getSc l = r.getSc l := rfl
@[simp] theorem Regs.getV_gmode (r : Regs) (x : Word) (n l : Nat) : ({ r with gmode := x } : Regs).getV n l = r.getV n l := rfl
@[simp] theorem Regs.getG_gmode (r : Regs) (x : Word) (n : Nat) : ({ r with gmode := x } : Regs).getG n = r.getG n := rfl
@[simp] theorem Regs.getP_gmode (r : Regs) (x : Word) (n : Nat) : ({ r with gmode := x } : Regs).getP n = r.getP n := rfl
@[simp] theorem Regs.getQ_gmode (r : Regs) (x : Word) (n : Nat) : ({ r with gmode := x } : Regs).getQ n = r.getQ n := rfl
@[simp] theorem Regs.getAcc_gmode (r : Regs) (x : Word) (b i j : Nat) : ({ r with gmode := x } : Regs).getAcc b i j = r.getAcc b i j := rfl
@[simp] theorem Regs.getSc_gmode (r : Regs) (x : Word) (l : Nat) : ({ r with gmode := x } : Regs).getSc l = r.getSc l := rfl
@[simp] theorem Regs.getV_role (r : Regs) (x : BitVec 2) (n l : Nat) : ({ r with role := x } : Regs).getV n l = r.getV n l := rfl
@[simp] theorem Regs.getG_role (r : Regs) (x : BitVec 2) (n : Nat) : ({ r with role := x } : Regs).getG n = r.getG n := rfl
@[simp] theorem Regs.getP_role (r : Regs) (x : BitVec 2) (n : Nat) : ({ r with role := x } : Regs).getP n = r.getP n := rfl
@[simp] theorem Regs.getQ_role (r : Regs) (x : BitVec 2) (n : Nat) : ({ r with role := x } : Regs).getQ n = r.getQ n := rfl
@[simp] theorem Regs.getAcc_role (r : Regs) (x : BitVec 2) (b i j : Nat) : ({ r with role := x } : Regs).getAcc b i j = r.getAcc b i j := rfl
@[simp] theorem Regs.getSc_role (r : Regs) (x : BitVec 2) (l : Nat) : ({ r with role := x } : Regs).getSc l = r.getSc l := rfl
@[simp] theorem Regs.getV_setG (r : Regs) (k : Nat) (x : DWord) (n l : Nat) : (r.setG k x).getV n l = r.getV n l := rfl
@[simp] theorem Regs.getP_setG (r : Regs) (k : Nat) (x : DWord) (n : Nat) : (r.setG k x).getP n = r.getP n := rfl
@[simp] theorem Regs.getQ_setG (r : Regs) (k : Nat) (x : DWord) (n : Nat) : (r.setG k x).getQ n = r.getQ n := rfl
@[simp] theorem Regs.getAcc_setG (r : Regs) (k : Nat) (x : DWord) (b i j : Nat) : (r.setG k x).getAcc b i j = r.getAcc b i j := rfl
@[simp] theorem Regs.getSc_setG (r : Regs) (k : Nat) (x : DWord) (l : Nat) : (r.setG k x).getSc l = r.getSc l := rfl
@[simp] theorem Regs.setG_gmode (r : Regs) (k : Nat) (x : DWord) : (r.setG k x).gmode = r.gmode := rfl
@[simp] theorem Regs.setG_role (r : Regs) (k : Nat) (x : DWord) : (r.setG k x).role = r.role := rfl
@[simp] theorem Regs.setG_openAcc (r : Regs) (k : Nat) (x : DWord) : (r.setG k x).openAcc = r.openAcc := rfl
@[simp] theorem Regs.setG_tseq (r : Regs) (k : Nat) (x : DWord) : (r.setG k x).tseq = r.tseq := rfl
@[simp] theorem Regs.setG_clock (r : Regs) (k : Nat) (x : DWord) : (r.setG k x).clock = r.clock := rfl
@[simp] theorem Regs.getG_setV (r : Regs) (k j : Nat) (x : Word) (n : Nat) : (r.setV k j x).getG n = r.getG n := rfl
@[simp] theorem Regs.getP_setV (r : Regs) (k j : Nat) (x : Word) (n : Nat) : (r.setV k j x).getP n = r.getP n := rfl
@[simp] theorem Regs.getQ_setV (r : Regs) (k j : Nat) (x : Word) (n : Nat) : (r.setV k j x).getQ n = r.getQ n := rfl
@[simp] theorem Regs.getAcc_setV (r : Regs) (k h : Nat) (x : Word) (b i j : Nat) : (r.setV k h x).getAcc b i j = r.getAcc b i j := rfl
@[simp] theorem Regs.getSc_setV (r : Regs) (k j : Nat) (x : Word) (l : Nat) : (r.setV k j x).getSc l = r.getSc l := rfl
@[simp] theorem Regs.setV_gmode (r : Regs) (k j : Nat) (x : Word) : (r.setV k j x).gmode = r.gmode := rfl
@[simp] theorem Regs.setV_role (r : Regs) (k j : Nat) (x : Word) : (r.setV k j x).role = r.role := rfl
@[simp] theorem Regs.setV_openAcc (r : Regs) (k j : Nat) (x : Word) : (r.setV k j x).openAcc = r.openAcc := rfl
@[simp] theorem Regs.setV_tseq (r : Regs) (k j : Nat) (x : Word) : (r.setV k j x).tseq = r.tseq := rfl
@[simp] theorem Regs.setV_clock (r : Regs) (k j : Nat) (x : Word) : (r.setV k j x).clock = r.clock := rfl
@[simp] theorem Regs.getV_setSc (r : Regs) (k : Nat) (x : Word) (n l : Nat) : (r.setSc k x).getV n l = r.getV n l := rfl
@[simp] theorem Regs.getG_setSc (r : Regs) (k : Nat) (x : Word) (n : Nat) : (r.setSc k x).getG n = r.getG n := rfl
@[simp] theorem Regs.getP_setSc (r : Regs) (k : Nat) (x : Word) (n : Nat) : (r.setSc k x).getP n = r.getP n := rfl
@[simp] theorem Regs.getQ_setSc (r : Regs) (k : Nat) (x : Word) (n : Nat) : (r.setSc k x).getQ n = r.getQ n := rfl
@[simp] theorem Regs.getAcc_setSc (r : Regs) (k : Nat) (x : Word) (b i j : Nat) : (r.setSc k x).getAcc b i j = r.getAcc b i j := rfl
@[simp] theorem Regs.setSc_gmode (r : Regs) (k : Nat) (x : Word) : (r.setSc k x).gmode = r.gmode := rfl
@[simp] theorem Regs.setSc_role (r : Regs) (k : Nat) (x : Word) : (r.setSc k x).role = r.role := rfl
@[simp] theorem Regs.setSc_openAcc (r : Regs) (k : Nat) (x : Word) : (r.setSc k x).openAcc = r.openAcc := rfl
@[simp] theorem Regs.setSc_tseq (r : Regs) (k : Nat) (x : Word) : (r.setSc k x).tseq = r.tseq := rfl
@[simp] theorem Regs.setSc_clock (r : Regs) (k : Nat) (x : Word) : (r.setSc k x).clock = r.clock := rfl
@[simp] theorem Regs.getV_setAcc (r : Regs) (c k j : Nat) (x : Word) (n l : Nat) : (r.setAcc c k j x).getV n l = r.getV n l := rfl
@[simp] theorem Regs.getG_setAcc (r : Regs) (c k j : Nat) (x : Word) (n : Nat) : (r.setAcc c k j x).getG n = r.getG n := rfl
@[simp] theorem Regs.getP_setAcc (r : Regs) (c k j : Nat) (x : Word) (n : Nat) : (r.setAcc c k j x).getP n = r.getP n := rfl
@[simp] theorem Regs.getQ_setAcc (r : Regs) (c k j : Nat) (x : Word) (n : Nat) : (r.setAcc c k j x).getQ n = r.getQ n := rfl
@[simp] theorem Regs.getSc_setAcc (r : Regs) (c k j : Nat) (x : Word) (l : Nat) : (r.setAcc c k j x).getSc l = r.getSc l := rfl
@[simp] theorem Regs.setAcc_gmode (r : Regs) (c k j : Nat) (x : Word) : (r.setAcc c k j x).gmode = r.gmode := rfl
@[simp] theorem Regs.setAcc_role (r : Regs) (c k j : Nat) (x : Word) : (r.setAcc c k j x).role = r.role := rfl
@[simp] theorem Regs.setAcc_openAcc (r : Regs) (c k j : Nat) (x : Word) : (r.setAcc c k j x).openAcc = r.openAcc := rfl
@[simp] theorem Regs.setAcc_tseq (r : Regs) (c k j : Nat) (x : Word) : (r.setAcc c k j x).tseq = r.tseq := rfl
@[simp] theorem Regs.setAcc_clock (r : Regs) (c k j : Nat) (x : Word) : (r.setAcc c k j x).clock = r.clock := rfl
@[simp] theorem Regs.getG_setLanes (r : Regs) (n : Nat) (m : Mask) (f : Nat → Word) (k : Nat) : (r.setLanes n m f).getG k = r.getG k := by
  simp [Regs.getG, Regs.setLanes]
@[simp] theorem Regs.getP_setLanes (r : Regs) (n : Nat) (m : Mask) (f : Nat → Word) (k : Nat) : (r.setLanes n m f).getP k = r.getP k := by
  simp [Regs.getP, Regs.setLanes]
@[simp] theorem Regs.getQ_setLanes (r : Regs) (n : Nat) (m : Mask) (f : Nat → Word) (k : Nat) : (r.setLanes n m f).getQ k = r.getQ k := by
  simp [Regs.getQ, Regs.setLanes]
@[simp] theorem Regs.getAcc_setLanes (r : Regs) (n : Nat) (m : Mask) (f : Nat → Word) (b i j : Nat) : (r.setLanes n m f).getAcc b i j = r.getAcc b i j := by
  simp [Regs.getAcc, Regs.setLanes]
@[simp] theorem Regs.getSc_setLanes (r : Regs) (n : Nat) (m : Mask) (f : Nat → Word) (l : Nat) : (r.setLanes n m f).getSc l = r.getSc l := by
  simp [Regs.getSc, Regs.setLanes]
@[simp] theorem Regs.setLanes_gmode (r : Regs) (n : Nat) (m : Mask) (f : Nat → Word) : (r.setLanes n m f).gmode = r.gmode := by
  simp [Regs.setLanes]
@[simp] theorem Regs.setLanes_role (r : Regs) (n : Nat) (m : Mask) (f : Nat → Word) : (r.setLanes n m f).role = r.role := by
  simp [Regs.setLanes]
@[simp] theorem Regs.setLanes_openAcc (r : Regs) (n : Nat) (m : Mask) (f : Nat → Word) : (r.setLanes n m f).openAcc = r.openAcc := by
  simp [Regs.setLanes]
@[simp] theorem Regs.setLanes_tseq (r : Regs) (n : Nat) (m : Mask) (f : Nat → Word) : (r.setLanes n m f).tseq = r.tseq := by
  simp [Regs.setLanes]
@[simp] theorem Regs.setLanes_clock (r : Regs) (n : Nat) (m : Mask) (f : Nat → Word) : (r.setLanes n m f).clock = r.clock := by
  simp [Regs.setLanes]
@[simp] theorem Regs.getV_setP (r : Regs) (k : Nat) (m x : Mask) (n l : Nat) : (r.setP k m x).getV n l = r.getV n l := by
  unfold Regs.setP; split <;> rfl
@[simp] theorem Regs.getG_setP (r : Regs) (k : Nat) (m x : Mask) (n : Nat) : (r.setP k m x).getG n = r.getG n := by
  unfold Regs.setP; split <;> rfl
@[simp] theorem Regs.getQ_setP (r : Regs) (k : Nat) (m x : Mask) (n : Nat) : (r.setP k m x).getQ n = r.getQ n := by
  unfold Regs.setP; split <;> rfl
@[simp] theorem Regs.getAcc_setP (r : Regs) (k : Nat) (m x : Mask) (b i j : Nat) : (r.setP k m x).getAcc b i j = r.getAcc b i j := by
  unfold Regs.setP; split <;> rfl
@[simp] theorem Regs.getSc_setP (r : Regs) (k : Nat) (m x : Mask) (l : Nat) : (r.setP k m x).getSc l = r.getSc l := by
  unfold Regs.setP; split <;> rfl
@[simp] theorem Regs.setP_gmode (r : Regs) (k : Nat) (m x : Mask) : (r.setP k m x).gmode = r.gmode := by
  unfold Regs.setP; split <;> rfl
@[simp] theorem Regs.setP_role (r : Regs) (k : Nat) (m x : Mask) : (r.setP k m x).role = r.role := by
  unfold Regs.setP; split <;> rfl
@[simp] theorem Regs.setP_openAcc (r : Regs) (k : Nat) (m x : Mask) : (r.setP k m x).openAcc = r.openAcc := by
  unfold Regs.setP; split <;> rfl
@[simp] theorem Regs.setP_tseq (r : Regs) (k : Nat) (m x : Mask) : (r.setP k m x).tseq = r.tseq := by
  unfold Regs.setP; split <;> rfl
@[simp] theorem Regs.setP_clock (r : Regs) (k : Nat) (m x : Mask) : (r.setP k m x).clock = r.clock := by
  unfold Regs.setP; split <;> rfl
@[simp] theorem Regs.getV_setQ (r : Regs) (k : Nat) (x : Bool) (n l : Nat) : (r.setQ k x).getV n l = r.getV n l := by
  unfold Regs.setQ; split <;> rfl
@[simp] theorem Regs.getG_setQ (r : Regs) (k : Nat) (x : Bool) (n : Nat) : (r.setQ k x).getG n = r.getG n := by
  unfold Regs.setQ; split <;> rfl
@[simp] theorem Regs.getP_setQ (r : Regs) (k : Nat) (x : Bool) (n : Nat) : (r.setQ k x).getP n = r.getP n := by
  unfold Regs.setQ; split <;> rfl
@[simp] theorem Regs.getAcc_setQ (r : Regs) (k : Nat) (x : Bool) (b i j : Nat) : (r.setQ k x).getAcc b i j = r.getAcc b i j := by
  unfold Regs.setQ; split <;> rfl
@[simp] theorem Regs.getSc_setQ (r : Regs) (k : Nat) (x : Bool) (l : Nat) : (r.setQ k x).getSc l = r.getSc l := by
  unfold Regs.setQ; split <;> rfl
@[simp] theorem Regs.setQ_gmode (r : Regs) (k : Nat) (x : Bool) : (r.setQ k x).gmode = r.gmode := by
  unfold Regs.setQ; split <;> rfl
@[simp] theorem Regs.setQ_role (r : Regs) (k : Nat) (x : Bool) : (r.setQ k x).role = r.role := by
  unfold Regs.setQ; split <;> rfl
@[simp] theorem Regs.setQ_openAcc (r : Regs) (k : Nat) (x : Bool) : (r.setQ k x).openAcc = r.openAcc := by
  unfold Regs.setQ; split <;> rfl
@[simp] theorem Regs.setQ_tseq (r : Regs) (k : Nat) (x : Bool) : (r.setQ k x).tseq = r.tseq := by
  unfold Regs.setQ; split <;> rfl
@[simp] theorem Regs.setQ_clock (r : Regs) (k : Nat) (x : Bool) : (r.setQ k x).clock = r.clock := by
  unfold Regs.setQ; split <;> rfl

theorem Regs.getG_setG (r : Regs) (k n : Nat) (x : DWord) : (r.setG k x).getG n = if n = k then x else r.getG n := by
  simp [Regs.getG, Regs.setG, AMap.get_set]
@[simp] theorem Regs.getP_zero (r : Regs) : r.getP 0 = 0xFFFFFFFF#32 := rfl
@[simp] theorem Regs.getQ_zero (r : Regs) : r.getQ 0 = true := rfl
theorem Regs.getP_setP_other (r : Regs) (k : Nat) (m x : Mask) {n : Nat} (h : n ≠ k) : (r.setP k m x).getP n = r.getP n := by
  unfold Regs.setP
  split
  · rfl
  · simp [Regs.getP, AMap.get_set, h]
theorem Regs.getP_setP (r : Regs) (k : Nat) (m x : Mask) (l : Nat) (hl : l < 32) :
    ((r.setP k m x).getP k).has l = if k = 0 then true else if m.has l then x.has l else (r.getP k).has l := by
  unfold Regs.setP
  by_cases hk : k = 0
  · subst hk; simp [Regs.getP]; decide +revert
  · simp only [Regs.getP, hk, if_false, AMap.get_set_same, Mask.has, BitVec.getLsbD_or, BitVec.getLsbD_and, BitVec.getLsbD_not]
    generalize AMap.get (0 : Mask) r.p k = y
    cases hm : m.getLsbD l <;> cases y.getLsbD l <;> cases x.getLsbD l <;> simp [hl]
theorem Regs.getQ_setQ_other (r : Regs) (k : Nat) (x : Bool) {n : Nat} (h : n ≠ k) : (r.setQ k x).getQ n = r.getQ n := by
  unfold Regs.setQ
  by_cases hk : k = 0
  · simp [hk]
  · by_cases hn : n = 0
    · subst hn; rfl
    · simp only [Regs.getQ, hk, hn, if_false]
      by_cases h8 : n < 8
      · have hb : (1#8 <<< k).getLsbD n = false := by
          rw [BitVec.getLsbD_shiftLeft]
          rcases Nat.lt_or_gt_of_ne h with hlt | hgt
          · simp [hlt]
          · simp only [Bool.and_eq_false_iff]
            right
            rw [BitVec.getLsbD_one]
            simp; omega
        cases x <;> simp only [BitVec.getLsbD_or, BitVec.getLsbD_and, BitVec.getLsbD_not, hb, if_true, if_false, Bool.or_false,
          Bool.not_false, Bool.and_true, h8, decide_true] <;> simp
      · simp [BitVec.getLsbD_of_ge _ _ (Nat.not_lt.mp h8)]
theorem Regs.getQ_setQ (r : Regs) {k : Nat} (x : Bool) (h : k < 8) : (r.setQ k x).getQ k = if k = 0 then true else x := by
  unfold Regs.setQ
  by_cases hk : k = 0
  · subst hk; rfl
  · cases x <;> simp [Regs.getQ, hk, h]


end Sys2Proof.Machine
end

