-- ==== Sys2Proof/Laws/Results.lean ====
section
/-! SUPPORT. What retiring, and what each register result of a completed instruction, does to the state. -/

namespace Sys2Proof.Machine

/-- The registers after an instruction has retired: the clock has added 1. -/
def Regs.tick (r : Regs) : Regs := { r with clock := r.clock + 1 }
@[simp] theorem Regs.getV_tick (r : Regs) (n l : Nat) : r.tick.getV n l = r.getV n l := rfl
@[simp] theorem Regs.getG_tick (r : Regs) (n : Nat) : r.tick.getG n = r.getG n := rfl
@[simp] theorem Regs.getP_tick (r : Regs) (n : Nat) : r.tick.getP n = r.getP n := rfl
@[simp] theorem Regs.getQ_tick (r : Regs) (n : Nat) : r.tick.getQ n = r.getQ n := rfl
@[simp] theorem Regs.getSc_tick (r : Regs) (l : Nat) : r.tick.getSc l = r.getSc l := rfl
@[simp] theorem Regs.getAcc_tick (r : Regs) (b i j : Nat) : r.tick.getAcc b i j = r.getAcc b i j := rfl
@[simp] theorem Regs.tick_openAcc (r : Regs) : r.tick.openAcc = r.openAcc := rfl
@[simp] theorem Regs.tick_gmode (r : Regs) : r.tick.gmode = r.gmode := rfl
@[simp] theorem Regs.tick_role (r : Regs) : r.tick.role = r.role := rfl
@[simp] theorem Regs.tick_tseq (r : Regs) : r.tick.tseq = r.tseq := rfl
@[simp] theorem Regs.tick_clock (r : Regs) : r.tick.clock = r.clock + 1 := rfl

@[simp] theorem State.retire_grp (s : State) : s.retire.grp =
    { s.grp with ctx := { s.grp.ctx with
        splits := AMap.set s.grp.ctx.splits s.slot s.nextSplit
        regs := s.regs.tick } } := by
  simp [State.retire, State.retireTo, State.nextSplit, Split.retired, State.regs, Regs.tick]
  cases s.handlerMode <;> simp

theorem State.retire_eq (s : State) : s.retire = s.setGrp s.retire.grp := by
  rw [State.retire, State.retireTo]; simp

@[simp] theorem State.retire_regs (s : State) : s.retire.regs = s.regs.tick := by
  simp [State.regs]

/-- A change of the executing group alone leaves every byte as it is. -/
theorem State.sameBytes_setGrp (s : State) (g : Group) : s.sameBytes (s.setGrp g) := ⟨fun _ => rfl, fun _ => rfl, fun _ _ => rfl⟩

/-- The group after some register writes and new results in flight. -/
def Group.wrote (g : Group) (r : Regs) (l : List Inflight) : Group :=
  { g with inflight := l ++ g.inflight, ctx := { g.ctx with regs := r } }

/-- An instruction that writes registers and retires has completed. -/
theorem State.completes_wrote (s : State) (r : Regs) (l : List Inflight) (w : Writes)
    (hl : ∀ e ∈ l, w.names e.reg = true)
    (hr : Regs.keeps w s.regs r.tick) :
    s.completes (s.setGrp (s.grp.wrote r l)).retire s.nextSplit w false := by
  have hsp : (s.setGrp (s.grp.wrote r l)).nextSplit = s.nextSplit := by
    simp [State.nextSplit, State.spl, State.splitAt, State.handlerMode, Group.wrote]
  refine ⟨?_, ?_, ?_, ?_, ?_, ?_⟩
  · rw [State.retire_eq]; simp
  · rw [State.retire_eq]; simpa using s.sameBytes_setGrp _
  · rw [State.retire_eq]; simp [State.spl, State.splitAt, hsp]
  · intro k hk
    rw [State.retire_eq]
    simp [State.splitAt, Group.wrote, AMap.get_set_other _ _ _ hk]
  · rw [State.retire_regs]; simpa [Group.wrote] using hr
  · simp [Group.keeps, Group.wrote]
    exact hl

/-- Every register but those named keeps its value. -/
def Regs.leaves (w : Writes) (r r' : Regs) : Prop :=
  (∀ n l, l < 32 → w.v n l = false → r'.getV n l = r.getV n l) ∧ (∀ n, w.g n = false → r'.getG n = r.getG n) ∧
  (∀ n, w.p n = false → r'.getP n = r.getP n) ∧ (∀ n, w.q n = false → r'.getQ n = r.getQ n) ∧
  (w.scount = false → ∀ l, r'.getSc l = r.getSc l) ∧ (w.mode = false → r'.gmode = r.gmode) ∧
  (w.role = false → r'.role = r.role) ∧ (∀ b i j, r'.getAcc b i j = r.getAcc b i j) ∧ r'.openAcc = r.openAcc ∧
  r'.tseq = r.tseq ∧ r'.clock = r.clock

theorem Regs.leaves_clock {w : Writes} {r r' : Regs} (h : Regs.leaves w r r') :
    Regs.keeps w r r'.tick := by
  obtain ⟨h1, h2, h3, h4, h5, h6, h7, h8, h9, h10, h11⟩ := h
  exact ⟨h1, h2, h3, h4, h5, h6, h7, h8, h9, h10, by simp [h11]⟩

theorem Regs.keeps_clock (w : Writes) (r : Regs) : Regs.keeps w r r.tick := by
  simp [Regs.keeps]

/-- Setting the group to what it is changes nothing that retiring does not set. -/
theorem State.retire_setGrp_self (s : State) : (s.setGrp s.grp).retire = s.retire := by
  have hsp : (s.setGrp s.grp).nextSplit = s.nextSplit := by
    simp [State.nextSplit, State.spl, State.splitAt, State.handlerMode]
  rw [State.retire_eq, State.retire_eq s, State.retire_grp, State.retire_grp, hsp]
  simp [State.regs]

/-- An instruction without effect but its retirement. -/
theorem State.completes_done (s : State) : s.completes s.retire s.nextSplit {} false := by
  have := s.completes_wrote s.regs [] {} (by simp) (Regs.keeps_clock _ _)
  rwa [show s.grp.wrote s.regs [] = s.grp from rfl, State.retire_setGrp_self] at this

/-- More registers may be named than an instruction has written. -/
theorem State.completes_mono {s t : State} {y : Split} {w w' : Writes} {nft : Bool} (h : s.completes t y w nft)
    (hv : ∀ n l, w.v n l = true → w'.v n l = true) (hg : ∀ n, w.g n = true → w'.g n = true)
    (hp : ∀ n, w.p n = true → w'.p n = true) (hq : ∀ n, w.q n = true → w'.q n = true)
    (hs : w.scount = true → w'.scount = true) (hm : w.mode = true → w'.mode = true)
    (hr : w.role = true → w'.role = true) : s.completes t y w' nft := by
  have tr : ∀ {a b : Bool}, (a = true → b = true) → b = false → a = false := by
    intro a b; cases a <;> cases b <;> simp
  obtain ⟨h1, h2, h3, h4, ⟨v, g, p, q, sc, m, r, rest⟩, k1, k2, k3, k4, k5, k6, k7, k8, l, k9, k10⟩ := h
  refine ⟨h1, h2, h3, h4, ⟨fun n l h0 h => v n l h0 (tr (hv n l) h), fun n h => g n (tr (hg n) h),
    fun n h => p n (tr (hp n) h), fun n h => q n (tr (hq n) h), fun h => sc (tr hs h), fun h => m (tr hm h),
    fun h => r (tr hr h), rest⟩, k1, k2, k3, k4, k5, k6, k7, k8, l, k9, fun e he => ?_⟩
  have := k10 e he
  cases hreg : e.reg <;> rw [hreg] at this <;> simp only [Writes.names, List.any_eq_true] at this ⊢
  · exact this.imp fun k h => ⟨h.1, hv _ _ h.2⟩
  · exact hg _ this
  · exact hp _ this
  · exact hq _ this
  · exact hm this
  · exact hr this
  · exact hs this

/-- What a result in flight of the executing instruction is. -/
def State.InFlight (s : State) (e : Inflight) (r : Reg) (lat : Option Nat) : Prop :=
  e.reg = r ∧ e.slot = s.slot ∧ e.tseq = s.tseq ∧ e.ready = lat.map (s.time.cycle + ·)

/-- A register result as a change of the group. -/
theorem State.mark_eq (s : State) (r : Reg) (m : Mask) (lat : Option Nat) (x : Regs) :
    ∃ e : Inflight, s.InFlight e r lat ∧ (s.mark r m lat).setRegs x = s.setGrp (s.grp.wrote x [e]) := by
  let e : Inflight :=
    { reg := r, slot := s.slot, tseq := s.tseq, ready := lat.map (s.time.cycle + ·), old := s.regs.hold r, lanes := m,
      before := if lat.isNone then some s.spl else none }
  refine ⟨e, ⟨rfl, rfl, rfl, rfl⟩, ?_⟩
  simp [State.mark, State.setRegs, Group.wrote, e]

theorem State.pends_wrote (s : State) (r : Regs) (e : Inflight) (l : List Inflight) (h : e ∈ l) {reg : Reg} {lat : Option Nat}
    (he : s.InFlight e reg lat) : s.pends (s.setGrp (s.grp.wrote r l)).retire reg lat :=
  ⟨e, by simp [Group.wrote, h], he⟩

theorem State.wrote_regs (s : State) (r : Regs) (l : List Inflight) :
    (s.setGrp (s.grp.wrote r l)).retire.regs = r.tick := by
  rw [State.retire_regs]; simp [Group.wrote, State.regs]

theorem Mask.lt_of_has {m : Mask} {l : Nat} (h : m.has l = true) : l < 32 := by
  by_contra hc
  simp [Mask.has, BitVec.getLsbD_of_ge _ _ (Nat.not_lt.mp hc)] at h

/-- What a vector result of an instruction does. -/
theorem State.answersV_wrV (s : State) (i : Instr) (d : Nat) (lat : Option Nat) (f : Nat → Word)
    (h : exec i s = s.vector ((s.wrV d s.active f lat).done)) : s.answersV i d lat f := by
  by_cases ha : s.active = 0
  · exact ⟨s.retire, by simp [h, State.vector, ha, State.done], by simp [ha, Mask.has], by simp [ha],
      State.completes_mono s.completes_done (by simp) (by simp) (by simp) (by simp) (by simp) (by simp) (by simp)⟩
  · have ha' : ¬(s.active = 0#32) := ha
    obtain ⟨e, he, h5⟩ := s.mark_eq (.v d) s.active lat (s.regs.setLanes d s.active f)
    have hw : s.wrV d s.active f lat = s.setGrp (s.grp.wrote (s.regs.setLanes d s.active f) [e]) := h5
    refine ⟨(s.wrV d s.active f lat).retire, by simp [h, State.vector, ha', State.done], ?_, ?_, ?_⟩
    · intro l hl
      rw [hw, State.wrote_regs, Regs.getV_tick, Regs.getV_setLanes _ _ _ _ (Mask.lt_of_has hl)]
      simp [hl]
    · intro _
      rw [hw]
      exact s.pends_wrote _ e [e] (by simp) he
    · rw [hw]
      refine s.completes_wrote _ _ _ ?_ ?_
      · simp only [List.mem_singleton, forall_eq, he.1, Writes.names, List.any_eq_true, BEq.rfl, Bool.true_and]
        by_contra hc
        push Not at hc
        refine ha (BitVec.eq_of_getLsbD_eq fun k hk => ?_)
        have := hc k (by simpa using hk)
        simpa [Mask.has] using this
      · refine Regs.leaves_clock ⟨fun n l hl hn => ?_, by simp⟩
        rw [Regs.getV_setLanes _ _ _ _ hl, if_neg]
        rintro ⟨rfl, h'⟩
        simp [h'] at hn

/-- A register write noted in flight, as a completed instruction. -/
theorem State.completes_marked (s : State) (r : Reg) (m : Mask) (lat : Option Nat) (x : Regs) (w : Writes)
    (hn : w.names r = true) (hx : Regs.leaves w s.regs x) :
    s.completes ((s.mark r m lat).setRegs x).retire s.nextSplit w false ∧
      s.pends ((s.mark r m lat).setRegs x).retire r lat ∧
      ((s.mark r m lat).setRegs x).retire.regs = x.tick := by
  obtain ⟨e, he, h5⟩ := s.mark_eq r m lat x
  rw [h5]
  exact ⟨s.completes_wrote _ _ _ (by simp [he.1, hn]) (Regs.leaves_clock hx), s.pends_wrote _ e [e] (by simp) he,
    s.wrote_regs _ _⟩

/-- What a group-register result of an instruction does. -/
theorem State.answersG_wrG (s : State) (i : Instr) (d : Nat) (lat : Option Nat) (x : DWord)
    (h : exec i s = (s.wrG d x lat).done) : s.answersG i d lat x := by
  obtain ⟨h1, h2, h3⟩ := s.completes_marked (.g d) 0 lat (s.regs.setG d x) { g := (· == d) } (by simp [Writes.names])
    ⟨by simp, fun n hn => by rw [Regs.getG_setG, if_neg (by simpa using hn)], by simp⟩
  exact ⟨_, h, by rw [State.wrG, h3]; simp [Regs.getG_setG], h2, h1⟩

/-- What a lane-predicate result of an instruction does. -/
theorem State.answersP_wrP (s : State) (i : Instr) (d : Nat) (lat : Option Nat) (x : Mask)
    (h : exec i s = (s.wrP d s.active x lat).done) : s.answersP i d lat x.has := by
  obtain ⟨h1, h2, h3⟩ := s.completes_marked (.p d) s.active lat (s.regs.setP d s.active x) { p := (· == d) }
    (by simp [Writes.names])
    ⟨by simp, by simp, fun n hn => Regs.getP_setP_other _ _ _ _ (by simpa using hn), by simp⟩
  refine ⟨_, h, fun l hl => ?_, fun _ => h2, h1⟩
  rw [State.wrP, h3, Regs.getP_tick]
  exact Regs.getP_setP _ _ _ _ _ hl

/-- What a group-predicate result of an instruction does. -/
theorem State.answersQ_wrQ (s : State) (i : Instr) (d : Nat) (lat : Option Nat) (x : Bool) (hd : d < 8)
    (h : exec i s = (s.wrQ d x lat).done) : s.answersQ i d lat x := by
  obtain ⟨h1, h2, h3⟩ := s.completes_marked (.q d) 0 lat (s.regs.setQ d x) { q := (· == d) } (by simp [Writes.names])
    ⟨by simp, by simp, by simp, fun n hn => Regs.getQ_setQ_other _ _ _ (by simpa using hn), by simp⟩
  exact ⟨_, h, by rw [State.wrQ, h3, Regs.getQ_tick, Regs.getQ_setQ _ _ hd], h2, h1⟩

end Sys2Proof.Machine
end

