-- ==== Sys2Proof/Laws/Typed.lean ====
section
/-! SUPPORT. Elements of a lane slice, and what a typed instruction does. -/

namespace Sys2Proof.Machine

/-- The value that elements build up, before it is a word. -/
def packElems (w : Nat) (l : List Nat) : Nat := l.foldr (fun x a => a <<< w + x % 2 ^ w) 0

theorem packElems_lt (w : Nat) : ∀ l : List Nat, packElems w l < 2 ^ (w * l.length)
  | [] => by simp [packElems]
  | x :: l => by
    have h := packElems_lt w l
    have hx : x % 2 ^ w < 2 ^ w := Nat.mod_lt _ (Nat.two_pow_pos w)
    simp only [packElems, List.foldr_cons, Nat.shiftLeft_eq, List.length_cons] at h ⊢
    rw [Nat.mul_succ, Nat.pow_add]
    have := Nat.mul_le_mul_right (2 ^ w) h
    rw [Nat.succ_mul] at this
    omega

theorem packElems_elem (w : Nat) : ∀ (l : List Nat) (e : Nat), e < l.length →
    (packElems w l >>> (w * e)) % 2 ^ w = l.getD e 0 % 2 ^ w
  | [], _, h => by simp at h
  | x :: l, 0, _ => by
    simp [packElems, Nat.shiftLeft_eq, Nat.add_mod]
  | x :: l, e + 1, h => by
    have ih := packElems_elem w l e (by simpa using h)
    have hx : x % 2 ^ w < 2 ^ w := Nat.mod_lt _ (Nat.two_pow_pos w)
    have : packElems w (x :: l) >>> (w * (e + 1)) = packElems w l >>> (w * e) := by
      rw [Nat.mul_succ, Nat.add_comm, Nat.shiftRight_add]
      congr 1
      show ((packElems w l) <<< w + x % 2 ^ w) >>> w = packElems w l
      rw [Nat.shiftLeft_eq, Nat.shiftRight_eq_div_pow, Nat.add_comm,
        Nat.add_mul_div_right _ _ (Nat.two_pow_pos w), Nat.div_eq_of_lt hx, Nat.zero_add]
    rw [this, ih]
    simp

/-- Reading an element of a slice made of elements. -/
theorem elem_fromElems (w : Nat) (l : List Nat) (e : Nat) (he : e < l.length) (hl : w * l.length ≤ 32) :
    elem w (fromElems w l) e = l.getD e 0 % 2 ^ w := by
  have h := packElems_lt w l
  have h2 : packElems w l < 2 ^ 32 := lt_of_lt_of_le h (Nat.pow_le_pow_right (by norm_num) hl)
  rw [← packElems_elem w l e he]
  show (BitVec.ofNat 32 (packElems w l)).toNat >>> (w * e) % 2 ^ w = _
  rw [BitVec.toNat_ofNat, Nat.mod_eq_of_lt h2]

/-- Above the elements given a slice is 0. -/
theorem elem_fromElems_above (w : Nat) (l : List Nat) (e : Nat) (he : l.length ≤ e) (hl : w * l.length ≤ 32) :
    elem w (fromElems w l) e = 0 := by
  have h := packElems_lt w l
  have h2 : packElems w l < 2 ^ 32 := lt_of_lt_of_le h (Nat.pow_le_pow_right (by norm_num) hl)
  show (BitVec.ofNat 32 (packElems w l)).toNat >>> (w * e) % 2 ^ w = _
  rw [BitVec.toNat_ofNat, Nat.mod_eq_of_lt h2, Nat.shiftRight_eq_div_pow, Nat.div_eq_of_lt, Nat.zero_mod]
  exact lt_of_lt_of_le h (Nat.pow_le_pow_right (by norm_num) (Nat.mul_le_mul_left w he))

theorem elem_perElem (w : Nat) (f : Nat → Nat → Nat → Nat → Nat) (x y z : Word) (e : Nat) (he : e < 32 / w) :
    elem w (perElem w f x y z) e = f e (elem w x e) (elem w y e) (elem w z e) % 2 ^ w := by
  rw [perElem, elem_fromElems _ _ _ (by simpa using he) (by simpa using Nat.mul_div_le 32 w)]
  congr 1
  simp [List.getD_eq_getElem?_getD, he]

/-- One more in the rounding counters of a mask. -/
def Regs.bumpSc (m : Mask) (ls : List Nat) (r : Regs) : Regs :=
  ls.foldl (fun r l => if m.has l then r.setSc l (r.getSc l + 1) else r) r

theorem Regs.getSc_setSc (r : Regs) (l k : Nat) (x : Word) : (r.setSc l x).getSc k = if k = l then x else r.getSc k := by
  simp [Regs.getSc, Regs.setSc, AMap.get_set]

theorem Regs.getSc_bumpSc (m : Mask) : ∀ (ls : List Nat) (r : Regs) (k : Nat), ls.Nodup →
    (r.bumpSc m ls).getSc k = if k ∈ ls ∧ m.has k = true then r.getSc k + 1 else r.getSc k
  | [], r, k, _ => by simp [Regs.bumpSc]
  | l :: ls, r, k, h => by
    have ih := Regs.getSc_bumpSc m ls (if m.has l then r.setSc l (r.getSc l + 1) else r) k (List.nodup_cons.mp h).2
    rw [Regs.bumpSc, List.foldl_cons]
    rw [Regs.bumpSc] at ih
    rw [ih]
    have hn := (List.nodup_cons.mp h).1
    by_cases hk : k = l
    · subst hk
      by_cases hm : m.getLsbD k = true <;> simp [hn, hm, Regs.getSc_setSc, Mask.has]
    · by_cases hm : m.getLsbD l = true <;> simp [hk, hm, Regs.getSc_setSc, Mask.has]

theorem Regs.bumpSc_leaves (m : Mask) (w : Writes) (hw : w.scount = true) : ∀ (ls : List Nat) (r : Regs),
    Regs.leaves w r (r.bumpSc m ls)
  | [], r => ⟨fun _ _ _ _ => rfl, fun _ _ => rfl, fun _ _ => rfl, fun _ _ => rfl, by simp [hw], fun _ => rfl, fun _ => rfl,
      fun _ _ _ => rfl, rfl, rfl, rfl⟩
  | l :: ls, r => by
    have ih := Regs.bumpSc_leaves m w hw ls (if m.has l then r.setSc l (r.getSc l + 1) else r)
    rw [Regs.bumpSc, List.foldl_cons]
    rw [Regs.bumpSc] at ih
    obtain ⟨h1, h2, h3, h4, h5, h6, h7, h8, h9, h10, h11⟩ := ih
    by_cases hm : m.has l = true
    · simp only [hm, if_true] at h1 h2 h3 h4 h6 h7 h8 h9 h10 h11 ⊢
      exact ⟨h1, h2, h3, h4, by simp [hw], h6, h7, h8, h9, h10, h11⟩
    · simp only [hm] at h1 h2 h3 h4 h6 h7 h8 h9 h10 h11 ⊢
      exact ⟨h1, h2, h3, h4, by simp [hw], h6, h7, h8, h9, h10, h11⟩

theorem Regs.leaves_trans {w : Writes} {a b c : Regs} (h : Regs.leaves w a b) (k : Regs.leaves w b c) : Regs.leaves w a c := by
  obtain ⟨h1, h2, h3, h4, h5, h6, h7, h8, h9, h10, h11⟩ := h
  obtain ⟨k1, k2, k3, k4, k5, k6, k7, k8, k9, k10, k11⟩ := k
  exact ⟨fun n l a b => (k1 n l a b).trans (h1 n l a b), fun n a => (k2 n a).trans (h2 n a), fun n a => (k3 n a).trans (h3 n a),
    fun n a => (k4 n a).trans (h4 n a), fun a l => (k5 a l).trans (h5 a l), fun a => (k6 a).trans (h6 a),
    fun a => (k7 a).trans (h7 a), fun b i j => (k8 b i j).trans (h8 b i j), k9.trans h9, k10.trans h10, k11.trans h11⟩

/-- Writing lanes of a vector register leaves every other. -/
theorem Regs.setLanes_leaves (r : Regs) (d : Nat) (m : Mask) (f : Nat → Word) (w : Writes)
    (hw : ∀ l, m.has l = true → w.v d l = true) : Regs.leaves w r (r.setLanes d m f) := by
  refine ⟨fun n l hl hn => ?_, by simp⟩
  rw [Regs.getV_setLanes _ _ _ _ hl, if_neg]
  rintro ⟨rfl, h'⟩
  simp [hw l h'] at hn

/-- A change of the executing group alone, then the retirement. -/
theorem State.completes_group (s : State) (g : Group) (w : Writes) (nft : Bool)
    (hs : g.ctx.splits = s.grp.ctx.splits) (hk : Group.keeps w nft s.grp g) (hr : Regs.leaves w s.regs g.ctx.regs) :
    s.completes (s.setGrp g).retire s.nextSplit w nft := by
  have hh : g.handler = s.grp.handler := hk.2.2.1
  have hsp : (s.setGrp g).nextSplit = s.nextSplit := by
    simp [State.nextSplit, State.spl, State.splitAt, State.handlerMode, hs, hh]
  refine ⟨?_, ?_, ?_, ?_, ?_, ?_⟩
  · rw [State.retire_eq]; simp
  · rw [State.retire_eq]; simpa using s.sameBytes_setGrp _
  · rw [State.retire_eq]; simp [State.spl, State.splitAt, hsp]
  · intro k hk
    rw [State.retire_eq]
    simp [State.splitAt, hs, AMap.get_set_other _ _ _ hk]
  · rw [State.retire_regs]; exact Regs.leaves_clock (by simpa [State.regs] using hr)
  · simpa [Group.keeps] using hk

/-- The marks a typed instruction leaves. -/
theorem State.bumpCounters_eq (s : State) (g : Group) (rounds : Bool) (m : Mask) :
    ∃ l : List Inflight, (∀ e ∈ l, e.reg = .scount ∧ (rounds && modeRnd g.ctx.regs.gmode == 5) = true) ∧
      (s.setGrp g).bumpCounters rounds m =
        s.setGrp (g.wrote (if rounds && modeRnd g.ctx.regs.gmode == 5 then g.ctx.regs.bumpSc m lanes else g.ctx.regs) l) := by
  by_cases h : (rounds && modeRnd g.ctx.regs.gmode == 5) = true
  · obtain ⟨e, he, h5⟩ := (s.setGrp g).mark_eq .scount m (some 0) (g.ctx.regs.bumpSc m lanes)
    refine ⟨[e], by simp [he.1, h], ?_⟩
    rw [if_pos h, State.bumpCounters, State.setGrp_regs, if_pos h]
    exact h5.trans (by simp)
  · refine ⟨[], by simp, ?_⟩
    rw [if_neg h, State.bumpCounters, State.setGrp_regs, if_neg h]
    rfl

/-- What NFT makes of a group. -/
def Group.marked (g : Group) (on repl : Bool) (at_ : Addr × Word) : Group :=
  { g with
    nft := if on && !repl then some at_ else g.nft
    repl := if on && repl && g.repl.nft.isNone then { g.repl with nft := some at_ } else g.repl }

theorem State.nonFinite_eq (s : State) (g : Group) (bad : Bool) (hs : g.ctx.splits = s.grp.ctx.splits)
    (hm : g.ctx.regs.gmode = s.regs.gmode) (ht : g.ctx.regs.tseq = s.regs.tseq) :
    (s.setGrp g).nonFinite bad = s.setGrp (g.marked (bad && modeNft s.regs.gmode) s.replicated (s.spl.pc, s.tseq)) := by
  have h1 : (s.setGrp g).spl = s.spl := by simp [State.spl, State.splitAt, hs]
  have h2 : (s.setGrp g).tseq = s.tseq := by simp [State.tseq, h1, ht]
  have h3 : (s.setGrp g).replicated = s.replicated := rfl
  rw [State.nonFinite, State.setGrp_regs, hm, h3, h1, h2]
  by_cases h : (bad && modeNft s.regs.gmode) = true
  · rw [if_pos h, h]
    cases hr : s.replicated
    · simp [Group.marked]
    · cases hn : g.repl.nft <;> simp [Group.marked, hn]
  · rw [if_neg h]
    simp only [Bool.not_eq_true] at h
    simp [h, Group.marked]

/-- What a typed result of an instruction does: the general form. -/
theorem State.answersElements_of (s : State) (i : Instr) (w d : Nat) (lat : Option Nat) (rounds : Bool)
    (nonFin : Nat → Bool) (res : Nat → Nat → Nat) (f : Nat → Word) (bad : Bool) (ha : s.active ≠ 0)
    (h : exec i s = (State.nonFinite (State.bumpCounters (s.wrV d s.active f lat) rounds s.active) bad).done)
    (hf : ∀ l, s.active.has l = true → ∀ e, e < 32 / w → elem w (f l) e = res l e % 2 ^ w)
    (hbad : bad = lanes.any fun l => s.active.has l && (List.range (32 / w)).any fun e => nonFin (res l e)) :
    s.answersElements i w d lat rounds nonFin res := by
  obtain ⟨e, he, h5⟩ := s.mark_eq (.v d) s.active lat (s.regs.setLanes d s.active f)
  have hw : s.wrV d s.active f lat = s.setGrp (s.grp.wrote (s.regs.setLanes d s.active f) [e]) := h5
  obtain ⟨l, hl, hb⟩ := s.bumpCounters_eq (s.grp.wrote (s.regs.setLanes d s.active f) [e]) rounds s.active
  have hgm : (s.grp.wrote (s.regs.setLanes d s.active f) [e]).ctx.regs.gmode = s.regs.gmode := by simp [Group.wrote]
  rw [hgm] at hb hl
  set r1 := s.regs.setLanes d s.active f with hr1
  set r2 := (if (rounds && modeRnd s.regs.gmode == 5) = true then r1.bumpSc s.active lanes else r1) with hr2
  have hr2' : (if (rounds && modeRnd s.regs.gmode == 5) = true then
      (s.grp.wrote r1 [e]).ctx.regs.bumpSc s.active lanes else (s.grp.wrote r1 [e]).ctx.regs) = r2 := rfl
  rw [hr2'] at hb
  set w' : Writes := { v := fun n l => n == d && s.active.has l, scount := rounds && modeRnd s.regs.gmode == 5 } with hw'
  have hleaf : Regs.leaves w' s.regs r2 := by
    have h1 : Regs.leaves w' s.regs r1 := Regs.setLanes_leaves _ _ _ _ _ (by simp [hw'])
    rw [hr2]
    split
    · rename_i hc
      exact Regs.leaves_trans h1 (Regs.bumpSc_leaves _ _ hc _ _)
    · exact h1
  have hget : ∀ n l, l < 32 → r2.getV n l = r1.getV n l := by
    intro n l hl
    rw [hr2]
    split
    · exact (Regs.bumpSc_leaves s.active { scount := true } rfl lanes r1).1 n l hl rfl
    · rfl
  have hgm2 := hleaf.2.2.2.2.2.1
  have hts2 := hleaf.2.2.2.2.2.2.2.2.2.1
  have hnf := s.nonFinite_eq ((s.grp.wrote r1 [e]).wrote r2 l) bad rfl (hgm2 rfl) hts2
  have hex : exec i s = .next (s.setGrp (((s.grp.wrote r1 [e]).wrote r2 l).marked (bad && modeNft s.regs.gmode)
      s.replicated (s.spl.pc, s.tseq))).retire := by
    rw [h, hw, hb, hnf]; rfl
  have hregs : ∀ g : Group, (s.setGrp g).retire.regs = g.ctx.regs.tick := by simp
  refine ⟨_, hex, ?_, ⟨e, by simp [Group.wrote, Group.marked], he⟩, ?_, ?_, ?_⟩
  · intro k hk e' he'
    rw [hregs]
    show elem w (r2.tick.getV d k) e' = _
    rw [Regs.getV_tick, hget _ _ (Mask.lt_of_has hk), hr1, Regs.getV_setLanes _ _ _ _ (Mask.lt_of_has hk),
      if_pos ⟨rfl, hk⟩, hf k hk e' he']
  · intro k hk
    rw [hregs]
    show r2.tick.getSc k = _
    rw [Regs.getSc_tick, hr2]
    by_cases hc : (rounds && modeRnd s.regs.gmode == 5) = true
    · rw [if_pos hc, Regs.getSc_bumpSc _ _ _ _ (List.nodup_range), hr1, hc]
      simp [hk]
    · rw [if_neg hc]; simp [hc, hr1]
  · rw [← hbad]
    simp [State.nonFiniteMark, Group.marked, Group.wrote]
  · refine s.completes_group _ _ _ rfl ?_ ?_
    · refine ⟨rfl, rfl, rfl, rfl, rfl, rfl, rfl, by simp, l ++ [e], by simp [Group.wrote, Group.marked], ?_⟩
      intro x hx
      rcases List.mem_append.mp hx with hx | hx
      · rw [(hl x hx).1]; simpa [Writes.names, hw'] using (hl x hx).2
      · rw [List.mem_singleton.mp hx, he.1]
        simp only [Writes.names, hw', List.any_eq_true, BEq.rfl, Bool.true_and]
        by_contra hc
        push Not at hc
        refine ha (BitVec.eq_of_getLsbD_eq fun k hk => ?_)
        have := hc k (by simpa using hk)
        simpa [Mask.has] using this
    · exact hleaf

end Sys2Proof.Machine
end

