-- ==== Sys2Proof/Laws/Access.lean ====
section
/-! SUPPORT. What the operations that memory instructions share do: bytes of lines and of scratch after a write, the access
once nothing stands before it, and the results of a load. -/

namespace Sys2Proof.Machine

theorem lineBytes_congr {f g : Nat → Byte} (h : ∀ k < 128, f k = g k) : lineBytes f = lineBytes g := by
  exact congrArg (BitVec.ofNat 1024) (List.foldr_ext _ _ _ fun k hk a => by rw [h k (List.mem_range.mp hk)])

theorem State.homeLine_congr {s t : State} {k : Nat} (h : ∀ pa, pa / 128 = k → t.byteAt pa = s.byteAt pa) :
    t.homeLine k = s.homeLine k :=
  lineBytes_congr fun j hj => h (128 * k + j) (by omega)

theorem State.dirEntry_setDir (s : State) (k j : Nat) (e : DirEntry) : (s.setDir k e).dirEntry j =
    if j = k then (if e.ag == 0 && !e.busy && e.waiting.isEmpty then {} else e) else s.dirEntry j := by
  simp only [State.setDir, State.dirEntry]
  by_cases hj : j = k
  · subst hj; simp only [if_pos]; split <;> simp
  · rw [if_neg hj]; split
    · exact AMap.get_drop_other _ _ hj
    · exact AMap.get_set_other _ _ _ hj

theorem lineNumber_byte (f : Nat → Byte) : ∀ (n o k : Nat), k < n →
    (List.range' o n).foldr (fun k a => (a <<< 8) + (f k).toNat) 0 / 256 ^ k % 256 = (f (o + k)).toNat
  | 0, _, _, h => absurd h (Nat.not_lt_zero _)
  | n + 1, o, 0, _ => by
    have := (f o).isLt
    rw [List.range'_succ, List.foldr_cons, Nat.shiftLeft_eq, pow_zero, Nat.div_one]
    show _ = (f o).toNat
    omega
  | n + 1, o, k + 1, h => by
    have h1 := lineNumber_byte f n (o + 1) k (by omega)
    have := (f o).isLt
    rw [List.range'_succ, List.foldr_cons, Nat.shiftLeft_eq, pow_succ' 256 k, ← Nat.div_div_eq_div_mul,
      show ∀ x, (x * 2 ^ 8 + (f o).toNat) / 256 = x by intro x; omega, h1, Nat.add_assoc, Nat.add_comm 1 k]

/-- A byte of a line made of bytes. -/
theorem lineByte_lineBytes (f : Nat → Byte) {k : Nat} (h : k < 128) : lineByte (lineBytes f) k = f k := by
  apply BitVec.eq_of_toNat_eq
  have := lineNumber_byte f 128 0 k h
  rw [← List.range_eq_range', Nat.zero_add] at this
  simp only [lineByte, lineBytes, BitVec.extractLsb'_toNat, BitVec.toNat_ofNat, Nat.shiftRight_eq_div_pow]
  have h8 : (2 : Nat) ^ (8 * k) = 256 ^ k := by rw [pow_mul, show (2 : Nat) ^ 8 = 256 by rfl]
  have h9 : (2 : Nat) ^ 1024 = 256 ^ k * 256 ^ (128 - k) := by
    rw [← pow_add, show k + (128 - k) = 128 by omega, show (1024 : Nat) = 8 * 128 by rfl, pow_mul, show (2 : Nat) ^ 8 = 256 by rfl]
  rw [← this, h8, h9, Nat.mod_mul_right_div_self]
  exact Nat.mod_mod_of_dvd _ (dvd_pow_self 256 (by omega))

theorem State.lineByte_homeLine (s : State) (pa : Nat) : lineByte (s.homeLine (pa / 128)) (pa % 128) = s.byteAt pa := by
  have h := lineByte_lineBytes (fun k => Store.get s.mem.bytes (128 * (pa / 128) + k)) (k := pa % 128) (Nat.mod_lt _ (by omega))
  rwa [Nat.div_add_mod] at h

theorem putBytes_other (line : Nat) (mask : BitVec 128) (data : BitVec 1024) (pa : Nat) :
    ∀ (ks : List Nat) (m : Store 8), (∀ k ∈ ks, pa ≠ 128 * line + k) →
      Store.get (putBytes m line mask data ks) pa = Store.get m pa
  | [], _, _ => rfl
  | k :: ks, m, h => by
    rw [putBytes, putBytes_other line mask data pa ks _ fun j hj => h j (List.mem_cons_of_mem _ hj)]
    split
    · exact Store.get_set_other _ _ (h k List.mem_cons_self)
    · rfl

theorem putBytes_none (line : Nat) (data : BitVec 1024) : ∀ (ks : List Nat) (m : Store 8), putBytes m line 0 data ks = m
  | [], _ => rfl
  | k :: ks, m => by
    rw [putBytes, if_neg (by simp)]
    exact putBytes_none line data ks m

@[simp] theorem State.putHome_none (s : State) (line : Nat) (data : BitVec 1024) : s.putHome line 0 data = s := by
  have h : putBytes s.mem.bytes line 0#128 data (List.range 128) = s.mem.bytes := putBytes_none _ _ _ _
  simp only [State.putHome, BitVec.ofNat_eq_ofNat, h]

/-- Bytes of scratch after a write. -/
theorem Store.get_putScratch_other (a : Nat) : ∀ (n : Nat) (m : Store 8) (key x : Nat), ¬(key ≤ a ∧ a < key + n) →
    Store.get (putScratch m key x n) a = Store.get m a
  | 0, _, _, _, _ => rfl
  | n + 1, m, key, x, h => by
    rw [putScratch, Store.get_putScratch_other a n _ _ _ (by omega), Store.get_set_other _ _ (by omega)]

theorem byteOf_div (x k : Nat) : byteOf (x / 256) k = byteOf x (k + 1) := by
  rw [byteOf, byteOf, Nat.shiftRight_eq_div_pow, Nat.shiftRight_eq_div_pow, Nat.div_div_eq_div_mul,
    show 256 * 2 ^ (8 * k) = 2 ^ (8 * (k + 1)) by
      rw [show 8 * (k + 1) = 8 + 8 * k by omega, pow_add]; rfl]

theorem Store.get_putScratch (a : Nat) : ∀ (n : Nat) (m : Store 8) (key x : Nat), Store.wf m = true →
    Store.get (putScratch m key x n) a = storeBytes (Store.get m) key n x a
  | 0, m, key, x, _ => by rw [storeBytes, if_neg (by omega)]; rfl
  | n + 1, m, key, x, h => by
    rw [putScratch, Store.get_putScratch a n _ _ _ (Store.wf_set h _ _), storeBytes, storeBytes]
    by_cases h1 : key + 1 ≤ a ∧ a < key + 1 + n
    · rw [if_pos h1, if_pos (by omega), byteOf_div, show a - (key + 1) + 1 = a - key by omega]
    · rw [if_neg h1]
      by_cases h2 : a = key
      · subst h2
        rw [if_pos (by omega), Store.get_set h, if_pos rfl, Nat.sub_self]
        rfl
      · rw [if_neg (by omega), Store.get_set_other _ _ h2]

/-- With nothing before it an access is made. -/
theorem State.access_clear {s : State} {n : Nat} {k : Need} {more : Target → Bool} {sync atHome : Bool} {l : List DWord}
    (h : s.accessClear n k more sync atHome l) (perform : List (DWord × Target) → Out) :
    s.access n k more sync atHome l perform = perform (s.places k l) := by
  obtain ⟨-, h1, h2, h6, h5, h3, h7, h4⟩ := h
  have hn : (s.places k l).any (fun e => s.needsForced e.2 n k.writes) = false := by
    rw [List.any_eq_false]; intro e he; simp [(h3 e he).1]
  have hb : (s.places k l).findSome? (fun e => s.blocked e.2 n atHome) = none :=
    List.findSome?_eq_none_iff.mpr fun e he => (h3 e he).2.1
  have hd : (s.places k l).findSome? (fun e => s.dataFault n k e.1 e.2) = none :=
    List.findSome?_eq_none_iff.mpr fun e he => (h3 e he).2.2
  have ht : ∀ o, s.inTurn (sync || (s.places k l).any fun e => s.reachesOut e.2) o = o := by
    intro o
    rw [State.inTurn, if_neg]
    simp only [Bool.and_eq_true, Bool.not_eq_true']
    rintro ⟨⟨⟨a, b⟩, c⟩, d⟩
    obtain ⟨e, f⟩ := h2 a c d
    rw [e, Bool.false_or, List.any_eq_true] at b
    obtain ⟨x, hx, hy⟩ := b
    rw [f x hx] at hy
    simp at hy
  have hl : ∀ o, (if ((s.places k l).any fun e => s.reachesOut e.2) && !sync then s.afterLeader else id) o = o := by
    intro o
    split
    · next h =>
      simp only [Bool.and_eq_true, Bool.not_eq_true', List.any_eq_true] at h
      obtain ⟨⟨x, hx, hy⟩, hz⟩ := h
      rw [State.afterLeader, if_neg]
      simp only [Bool.and_eq_true, Bool.not_eq_true']
      rintro ⟨⟨a, b⟩, c⟩
      rw [h6 a b c hz x hx] at hy
      cases hy
    · rfl
  simp only [State.access, State.waits, h1, ht, hl, hn, h4, h5, h7, hb, hd, Bool.false_or, Bool.false_eq_true, if_false]

/-- What the results of a load are: k registers from d, in the lanes of a mask, each in flight. -/
theorem State.writeBlock_eq (u : State) (d : Nat) (m : Mask) (f : Nat → Nat) : ∀ k : Nat, 0 < k →
    ∃ r l, u.writeBlock d k m f = u.setGrp (u.grp.wrote r l) ∧
      (∀ n x, x < 32 → r.getV n x =
        if d ≤ n ∧ n < d + k ∧ m.has x = true then BitVec.ofNat 32 (f x >>> (32 * (n - d))) else u.regs.getV n x) ∧
      Regs.leaves (blockWrites d k m) u.regs r ∧ (∀ e ∈ l, ∃ i < k, u.InFlight e (.v (d + i)) none) ∧
      ∀ i < k, ∃ e ∈ l, u.InFlight e (.v (d + i)) none
  | 0, h => absurd h (Nat.lt_irrefl 0)
  | k + 1, _ => by
    have step : u.writeBlock d (k + 1) m f =
        (u.writeBlock d k m f).wrV (d + k) m (fun l => BitVec.ofNat 32 (f l >>> (32 * k))) latVar := by
      rw [State.writeBlock, List.range_succ, List.foldl_append]; rfl
    have base : ∃ r l, (u.writeBlock d k m f = u ∧ k = 0 ∧ r = u.regs ∧ l = [] ∨ u.writeBlock d k m f = u.setGrp (u.grp.wrote r l)) ∧
        (∀ n x, x < 32 → r.getV n x =
          if d ≤ n ∧ n < d + k ∧ m.has x = true then BitVec.ofNat 32 (f x >>> (32 * (n - d))) else u.regs.getV n x) ∧
        Regs.leaves (blockWrites d k m) u.regs r ∧ (∀ e ∈ l, ∃ i < k, u.InFlight e (.v (d + i)) none) ∧
        ∀ i < k, ∃ e ∈ l, u.InFlight e (.v (d + i)) none := by
      rcases Nat.eq_zero_or_pos k with rfl | hk
      · exact ⟨u.regs, [], .inl ⟨rfl, rfl, rfl, rfl⟩, fun n x _ => by rw [if_neg (by omega)], by simp [Regs.leaves], by simp, by simp⟩
      · obtain ⟨r, l, h1, h2, h3, h4, h5⟩ := State.writeBlock_eq u d m f k hk
        exact ⟨r, l, .inr h1, h2, h3, h4, h5⟩
    obtain ⟨r, l, h1, h2, h3, h4, h5⟩ := base
    obtain ⟨r', hr'⟩ : ∃ r' : Regs, r.setLanes (d + k) m (fun l => BitVec.ofNat 32 (f l >>> (32 * k))) = r' := ⟨_, rfl⟩
    have hw : ∃ e : Inflight, u.InFlight e (.v (d + k)) none ∧ u.writeBlock d (k + 1) m f = u.setGrp (u.grp.wrote r' (e :: l)) := by
      rw [step, State.wrV]
      rcases h1 with ⟨h1, rfl, rfl, rfl⟩ | h1
      · rw [h1, hr']
        exact u.mark_eq _ _ _ _
      · rw [h1]
        obtain ⟨e, he, h6⟩ := (u.setGrp (u.grp.wrote r l)).mark_eq (.v (d + k)) m latVar
          ((u.setGrp (u.grp.wrote r l)).regs.setLanes (d + k) m fun l => BitVec.ofNat 32 (f l >>> (32 * k)))
        refine ⟨e, ?_, ?_⟩
        · have ht : r.tseq = u.grp.ctx.regs.tseq := h3.2.2.2.2.2.2.2.2.2.1
          simpa [State.InFlight, State.tseq, State.spl, State.splitAt, Group.wrote, State.regs, latVar, ht] using he
        · rw [h6]
          simp only [State.setGrp_regs, State.setGrp_grp, State.setGrp_setGrp]
          simp [Group.wrote, hr']
    obtain ⟨e, he, hw⟩ := hw
    refine ⟨r', e :: l, hw, fun n x hx => ?_, ?_, ?_, ?_⟩
    · rw [← hr', Regs.getV_setLanes _ _ _ _ hx, h2 n x hx]
      by_cases hn : n = d + k
      · subst hn
        by_cases hm : m.has x = true
        · rw [if_pos ⟨rfl, hm⟩, if_pos ⟨by omega, by omega, hm⟩, Nat.add_sub_cancel_left]
        · rw [if_neg (by tauto), if_neg (by tauto), if_neg (by tauto)]
      · rw [if_neg (by tauto)]
        by_cases hc : d ≤ n ∧ n < d + k ∧ m.has x = true
        · rw [if_pos hc, if_pos ⟨hc.1, by omega, hc.2.2⟩]
        · rw [if_neg hc, if_neg fun h => hc ⟨h.1, by omega, h.2.2⟩]
    · refine Regs.leaves_trans (b := r) ?_ ?_
      · obtain ⟨a, rest⟩ := h3
        refine ⟨fun n x hx hn => a n x hx ?_, rest⟩
        simp only [blockWrites, Bool.and_eq_false_iff, decide_eq_false_iff_not] at hn ⊢
        rcases hn with (h | h) | h
        · exact .inl (.inl h)
        · exact .inl (.inr (by omega))
        · exact .inr h
      · rw [← hr']
        exact Regs.setLanes_leaves _ _ _ _ _ fun x hx => by simp [blockWrites, hx]
    · intro a ha
      rcases List.mem_cons.mp ha with rfl | ha
      · exact ⟨k, by omega, he⟩
      · obtain ⟨i, hi, h⟩ := h4 a ha
        exact ⟨i, by omega, h⟩
    · intro i hi
      by_cases hik : i = k
      · subst hik; exact ⟨e, List.mem_cons_self, he⟩
      · obtain ⟨a, ha, h⟩ := h5 i (by omega)
        exact ⟨a, List.mem_cons_of_mem _ ha, h⟩

theorem mask_any {m : Mask} (h : m ≠ 0) : (lanes.any fun x => m.has x) = true := by
  rw [List.any_eq_true]
  by_contra hc
  push Not at hc
  refine h (BitVec.eq_of_getLsbD_eq fun k hk => ?_)
  have := hc k (by simpa [lanes] using hk)
  simpa [Mask.has] using this

/-- The end of a load: its results, and nothing else. -/
theorem State.writeBlock_done (u : State) (d k : Nat) (m : Mask) (f : Nat → Nat) (hk : 0 < k) (hm : m ≠ 0) :
    ∃ t, (u.writeBlock d k m f).done = .next t ∧
      (∀ x, m.has x = true → ∀ i < k, t.regs.getV (d + i) x = BitVec.ofNat 32 (f x >>> (32 * i))) ∧
      (∀ i < k, u.pends t (.v (d + i)) none) ∧ u.completes t u.nextSplit (blockWrites d k m) false := by
  obtain ⟨r, l, h1, h2, h3, h4, h5⟩ := State.writeBlock_eq u d m f k hk
  rw [h1]
  refine ⟨_, rfl, fun x hx i hi => ?_, fun i hi => ?_, u.completes_wrote _ _ _ ?_ (Regs.leaves_clock h3)⟩
  · rw [State.wrote_regs, Regs.getV_tick, h2 _ _ (Mask.lt_of_has hx), if_pos ⟨by omega, by omega, hx⟩, Nat.add_sub_cancel_left]
  · obtain ⟨e, he, h⟩ := h5 i hi
    exact u.pends_wrote _ e _ he h
  · intro e he
    obtain ⟨i, hi, h⟩ := h4 e he
    rw [h.1, Writes.names]
    have := mask_any hm
    rw [List.any_eq_true] at this ⊢
    obtain ⟨x, hx, hy⟩ := this
    exact ⟨x, hx, by simp [blockWrites, hi, hy]⟩

end Sys2Proof.Machine
end

