-- ==== Sys2Proof/Laws/Control.lean ====
section
/-! SUPPORT. What control flow does to the executing split, and what taking a trap does. -/

namespace Sys2Proof.Machine

/-- The split after a retirement that goes on at an address. -/
theorem State.retireTo_eq (s : State) (pc : Addr) : s.retireTo pc = s.setGrp { s.grp with ctx := { s.grp.ctx with
    splits := AMap.set s.grp.ctx.splits s.slot (s.spl.retired pc (!s.handlerMode)), regs := s.regs.tick } } := by
  simp only [State.retireTo, Split.retired, State.regs, Regs.tick]
  cases s.handlerMode <;> rfl

/-- A change of the executing split, with its retirement. -/
theorem State.setSpl_retireTo (s : State) (x : Split) (pc : Addr) : (s.setSpl x).retireTo pc =
    s.setGrp { s.grp with ctx := { s.grp.ctx with
      splits := AMap.set s.grp.ctx.splits s.slot (x.retired pc (!s.handlerMode)), regs := s.regs.tick } } := by
  rw [State.retireTo_eq]
  simp [State.setSpl, State.setSplitAt, State.spl, State.splitAt, State.handlerMode, State.regs]

theorem State.completes_ctx (s : State) (y : Split) : s.completes
    (s.setGrp { s.grp with ctx := { s.grp.ctx with splits := AMap.set s.grp.ctx.splits s.slot y, regs := s.regs.tick } }) y {} false := by
  refine ⟨by simp, s.sameBytes_setGrp _, by simp [State.spl, State.splitAt], fun k hk => ?_, ?_, ?_⟩
  · simp [State.splitAt, AMap.get_set_other _ _ _ hk]
  · rw [State.setGrp_regs]; exact Regs.keeps_clock _ _
  · simp [Group.keeps]

/-- An instruction that changes its split alone. -/
theorem State.completes_setSpl (s : State) (x : Split) (pc : Addr) :
    s.completes ((s.setSpl x).retireTo pc) (x.retired pc (!s.handlerMode)) {} false := by
  rw [State.setSpl_retireTo]; exact s.completes_ctx _

theorem State.completes_retireTo (s : State) (pc : Addr) :
    s.completes (s.retireTo pc) (s.spl.retired pc (!s.handlerMode)) {} false := by
  rw [State.retireTo_eq]; exact s.completes_ctx _

end Sys2Proof.Machine
end

