-- ==== Sys2Proof/Tests/Slice0.lean ====
section
/-! SUPPORT. Small tests of the model, and witnesses for the hypotheses of the statements. -/

namespace Sys2Proof.Tests
open Sys2Proof.Machine

set_option Elab.async false

/-! The words that the checks of `Instr.wf` refuse: one ill-formed term for each check. -/

theorem test_wf_allZero : (Instr.vadd 0 0 0 0).wf = false := rfl
theorem test_wf_pairs : (Instr.vtwosum 0 127 0 0).wf = false ∧ (Instr.vunpk 0 127 0).wf = false := ⟨rfl, rfl⟩
theorem test_wf_aligned : (Instr.ldB64 0 1 0 0).wf = false ∧ (Instr.ldB128 0 2 0 0).wf = false ∧ (Instr.ldPollB64 0 3 0 0).wf = false ∧
    (Instr.stB64 0 1 0 0).wf = false ∧ (Instr.stB128 0 126 0 0).wf = false ∧ (Instr.ldSys 0 5 0 0).wf = false ∧
    (Instr.stSys 0 7 0 0).wf = false := ⟨rfl, rfl, rfl, rfl, rfl, rfl, rfl⟩
theorem test_wf_atomics : (Instr.atomAdd 0 0 7 2 0 0).wf = false ∧ (Instr.atomXor 0 1 0 3 0 0).wf = false ∧
    (Instr.atomCas 0 0 0 1 0 0).wf = false ∧ (Instr.atomCas 0 1 0 2 0 0).wf = false ∧ (Instr.cas128 0 0 4 0 0).wf = false ∧
    (Instr.atomfFaddF32 0 7 0 0 0).wf = false ∧ (Instr.redAdd 0 0 1 0 0 0).wf = false ∧ (Instr.redMax 0 1 2 5 0 0).wf = false :=
  ⟨rfl, rfl, rfl, rfl, rfl, rfl, rfl, rfl⟩
theorem test_wf_blocks : (Instr.spmt 0 0 0 63).wf = false ∧ (Instr.shdr 0 61 0).wf = false ∧ (Instr.pst 0 0 0 63).wf = false ∧
    (Instr.mdrain 0 4 0 0 0).wf = false ∧ (Instr.mdrain 0 8 0 0 63).wf = false ∧ (Instr.mdrs 0 61 0 0).wf = false ∧
    (Instr.cpy 0 0 0 62).wf = false ∧ (Instr.cpyt 0 0 0 61).wf = false ∧ (Instr.csred 0 0 63 0).wf = false :=
  ⟨rfl, rfl, rfl, rfl, rfl, rfl, rfl, rfl, rfl⟩
theorem test_wf_drainType : (Instr.mdrain 0 8 6 0 0).wf = false ∧ (Instr.mdrs 0 0 9 0).wf = false := ⟨rfl, rfl⟩
theorem test_wf_branches : (Instr.brq 0 0 0).wf = false ∧ (Instr.brd 0 0 0).wf = false := ⟨rfl, rfl⟩
theorem test_wf_fence : (Instr.fence 0 0 0).wf = false ∧ (Instr.fence 0 1 6).wf = false := ⟨rfl, rfl⟩
theorem test_wf_barriers : (Instr.bar 0 0 1).wf = false ∧ (Instr.bara 0 2 8).wf = false ∧ (Instr.barw 0 3 4).wf = false := ⟨rfl, rfl, rfl⟩
theorem test_wf_special : (Instr.rdsp 0 0 0x0E).wf = false ∧ (Instr.rdsp 0 64 2).wf = false ∧ (Instr.wrsp 0 0 0x16).wf = false :=
  ⟨rfl, rfl, rfl⟩

/-- Words of major 0x00, written out from the fields that the spec gives them (R79 to R104). -/
theorem test_decode_major_00 :
  decode 0b001_00000_000_0010000_0001100_0010010#32 = .ok (.vadd 1 16 12 18) ∧
  decode 0b010_00000_001_0011000_0001101_0010011#32 = .ok (.vsub 2 24 13 19) ∧
  decode 0b011_00000_010_0100000_0001110_0010100#32 = .ok (.vmul 3 32 14 20) ∧
  decode 0b100_00000_011_0101000_0001111_0010101#32 = .ok (.vmulh 4 40 15 21) ∧
  decode 0b101_00000_100_0110000_0001011_0010110#32 = .ok (.vfma 5 48 11 22) ∧
  decode 0b110_00000_101_0001000_0001100_0010111#32 = .ok (.vfms 6 8 12 23) ∧
  decode 0b111_00000_110_0010000_0001101_0011000#32 = .ok (.vfnma 7 16 13 24) ∧
  decode 0b000_00000_111_0011000_0001110_0011001#32 = .ok (.vdiv 0 24 14 25) := by
  refine ⟨rfl, rfl, rfl, rfl, rfl, rfl, rfl, rfl⟩

/-- Words of major 0x01, written out from the fields that the spec gives them (R79 to R104). -/
theorem test_decode_major_01 :
  decode 0b001_00001_000_0100000_0001111_0011010#32 = .ok (.vmin 1 32 15 26) ∧
  decode 0b010_00001_001_0101000_0001011_0011011#32 = .ok (.vmax 2 40 11 27) ∧
  decode 0b011_00001_010_0110000_0001100_0000000#32 = .ok (.vabs 3 48 12) ∧
  decode 0b100_00001_011_0001000_0001101_0000000#32 = .ok (.vneg 4 8 13) ∧
  decode 0b101_00001_100_0010000_0001110_0000000#32 = .ok (.vrcp 5 16 14) ∧
  decode 0b110_00001_101_0011000_0001111_0000000#32 = .ok (.vsqrt 6 24 15) ∧
  decode 0b111_00001_110_0100000_0001011_0000000#32 = .ok (.vrsq 7 32 11) ∧
  decode 0b000_00001_111_0101000_0001100_0100001#32 = .ok (.vtwosum 0 40 12 33) := by
  refine ⟨rfl, rfl, rfl, rfl, rfl, rfl, rfl, rfl⟩

/-- Words of major 0x02, written out from the fields that the spec gives them (R79 to R104). -/
theorem test_decode_major_02 :
  decode 0b001_00010_000_0110000_0001101_0000000#32 = .ok (.vexp2 1 48 13) ∧
  decode 0b010_00010_001_0001000_0001110_0000000#32 = .ok (.vlog2 2 8 14) ∧
  decode 0b011_00010_010_0010000_0001111_0100100#32 = .ok (.vmix 3 16 15 36) ∧
  decode 0b100_00010_011_0011000_0000111_0100101#32 = .ok (.vsel 4 24 7 37) ∧
  decode 0b101_00010_100_0100000_0001100_0000000#32 = .ok (.vmov 5 32 12) ∧
  decode 0b110_00010_101_0101000_0001101_0000000#32 = .ok (.vbc 6 40 13) ∧
  decode 0b111_00010_101_0110000_0001110_0000001#32 = .ok (.vbcHi 7 48 14) ∧
  decode 0b000_00010_110_0001000_0001111_0101001#32 = .ok (.vlane 0 8 15 41) := by
  refine ⟨rfl, rfl, rfl, rfl, rfl, rfl, rfl, rfl⟩

/-- Words of major 0x03, written out from the fields that the spec gives them (R79 to R104). -/
theorem test_decode_major_03 :
  decode 0b001_00011_000_0010000_0001011_0101010#32 = .ok (.vand 1 16 11 42) ∧
  decode 0b010_00011_001_0011000_0001100_0101011#32 = .ok (.vor 2 24 12 43) ∧
  decode 0b011_00011_010_0100000_0001101_0101100#32 = .ok (.vxor 3 32 13 44) ∧
  decode 0b100_00011_011_0101000_0001110_0000000#32 = .ok (.vnot 4 40 14) ∧
  decode 0b101_00011_100_0110000_0001111_0101110#32 = .ok (.vshl 5 48 15 46) ∧
  decode 0b110_00011_101_0001000_0001011_0101111#32 = .ok (.vshr 6 8 11 47) ∧
  decode 0b111_00011_110_0010000_0001100_0010001#32 = .ok (.vsar 7 16 12 17) ∧
  decode 0b000_00011_111_0011000_0001101_0000000#32 = .ok (.vclz 0 24 13) := by
  refine ⟨rfl, rfl, rfl, rfl, rfl, rfl, rfl, rfl⟩

/-- Words of major 0x04, written out from the fields that the spec gives them (R79 to R104). -/
theorem test_decode_major_04 :
  decode 0b001_00100_000_0100000_0001110_0000000#32 = .ok (.vpop 1 32 14) ∧
  decode 0b010_00100_001_0000010_0001111_0010100#32 = .ok (.vcmpEq 2 2 15 20) ∧
  decode 0b011_00100_010_0000110_0001011_0010101#32 = .ok (.vcmpNe 3 6 11 21) ∧
  decode 0b100_00100_011_0000110_0001100_0010110#32 = .ok (.vcmpLt 4 6 12 22) ∧
  decode 0b101_00100_100_0000011_0001101_0010111#32 = .ok (.vcmpLe 5 3 13 23) ∧
  decode 0b110_00100_101_0000111_0001110_0011000#32 = .ok (.vcmpGt 6 7 14 24) ∧
  decode 0b111_00100_110_0000100_0001111_0011001#32 = .ok (.vcmpGe 7 4 15 25) ∧
  decode 0b000_00100_111_0000001_0001011_0011010#32 = .ok (.vcmpUn 0 1 11 26) := by
  refine ⟨rfl, rfl, rfl, rfl, rfl, rfl, rfl, rfl⟩

/-- Words of major 0x05, written out from the fields that the spec gives them (R79 to R104). -/
theorem test_decode_major_05 :
  decode 0b001_00101_000_0110000_0001100_0000000#32 = .ok (.vcvtF32 1 48 12) ∧
  decode 0b010_00101_001_0001000_0001101_0000000#32 = .ok (.vcvtBf16 2 8 13) ∧
  decode 0b011_00101_010_0010000_0001110_0000000#32 = .ok (.vcvtF16 3 16 14) ∧
  decode 0b100_00101_011_0011000_0001111_0000000#32 = .ok (.vcvtE4m3 4 24 15) ∧
  decode 0b101_00101_100_0100000_0001011_0000000#32 = .ok (.vcvtE5m2 5 32 11) ∧
  decode 0b110_00101_101_0101000_0001100_0000000#32 = .ok (.vcvtI8 6 40 12) ∧
  decode 0b111_00101_110_0110000_0001101_0000000#32 = .ok (.vcvtN8 7 48 13) ∧
  decode 0b000_00101_111_0001000_0001110_0000000#32 = .ok (.vcvtI32 0 8 14) := by
  refine ⟨rfl, rfl, rfl, rfl, rfl, rfl, rfl, rfl⟩

/-- Words of major 0x06, written out from the fields that the spec gives them (R79 to R104). -/
theorem test_decode_major_06 :
  decode 0b001_00110_000_0010000_0001111_0000000#32 = .ok (.vcvtN32 1 16 15) ∧
  decode 0b010_00110_001_0011000_0001011_0000000#32 = .ok (.vcvtI16 2 24 11) ∧
  decode 0b011_00110_010_0100000_0001100_0000000#32 = .ok (.vcvtN16 3 32 12) ∧
  decode 0b100_00110_011_0101000_0001101_0100110#32 = .ok (.vpack 4 40 13 38) ∧
  decode 0b101_00110_100_0110000_0001110_0000000#32 = .ok (.vunpk 5 48 14) := by
  refine ⟨rfl, rfl, rfl, rfl, rfl⟩

/-- Words of major 0x08, written out from the fields that the spec gives them (R79 to R104). -/
theorem test_decode_major_08 :
  decode 0b110_01000_000_0001000_0001111_0101000#32 = .ok (.vperm 6 8 15 40) ∧
  decode 0b111_01000_001_0010000_0001011_0101001#32 = .ok (.vbfly 7 16 11 41) ∧
  decode 0b000_01000_010_0011000_0001100_0101010#32 = .ok (.vrot 0 24 12 42) ∧
  decode 0b001_01000_011_0100000_0001101_0101011#32 = .ok (.vbcl 1 32 13 43) ∧
  decode 0b010_01000_100_0101000_0001110_0000000#32 = .ok (.vredAdd 2 40 14) ∧
  decode 0b011_01000_101_0110000_0001111_0000000#32 = .ok (.vredMin 3 48 15) ∧
  decode 0b100_01000_110_0001000_0001011_0000000#32 = .ok (.vredMax 4 8 11) := by
  refine ⟨rfl, rfl, rfl, rfl, rfl, rfl, rfl⟩

/-- Words of major 0x09, written out from the fields that the spec gives them (R79 to R104). -/
theorem test_decode_major_09 :
  decode 0b101_01001_000_0000110_0000010_0000011#32 = .ok (.pand 5 6 2 3) ∧
  decode 0b110_01001_001_0000011_0000110_0000101#32 = .ok (.por 6 3 6 5) ∧
  decode 0b111_01001_010_0000111_0000011_0000010#32 = .ok (.pxor 7 7 3 2) ∧
  decode 0b000_01001_011_0000100_0000111_0000000#32 = .ok (.pnot 0 4 7) ∧
  decode 0b001_01001_100_0000001_0000011_0000000#32 = .ok (.qany 1 1 3) ∧
  decode 0b010_01001_101_0000001_0000111_0000000#32 = .ok (.qall 2 1 7) ∧
  decode 0b011_01001_110_0010000_0000100_0000000#32 = .ok (.pballot 3 16 4) ∧
  decode 0b100_01001_111_0000010_0001110_0000000#32 = .ok (.pmask 4 2 14) := by
  refine ⟨rfl, rfl, rfl, rfl, rfl, rfl, rfl, rfl⟩

/-- Words of major 0x0A, written out from the fields that the spec gives them (R79 to R104). -/
theorem test_decode_major_0A :
  decode 0b101_01010_000_0100000_0001111_0011000#32 = .ok (.ldB8 5 32 15 24) ∧
  decode 0b110_01010_001_0101000_0001011_0011001#32 = .ok (.ldB16 6 40 11 25) ∧
  decode 0b111_01010_010_0110000_0001100_0011010#32 = .ok (.ldB32 7 48 12 26) ∧
  decode 0b000_01010_011_0001000_0001101_0011011#32 = .ok (.ldB64 0 8 13 27) ∧
  decode 0b001_01010_100_0010000_0001110_0011100#32 = .ok (.ldB128 1 16 14 28) ∧
  decode 0b010_01010_101_0011000_0001111_0011101#32 = .ok (.ldPollB32 2 24 15 29) ∧
  decode 0b011_01010_110_0100000_0001011_0011110#32 = .ok (.ldPollB64 3 32 11 30) ∧
  decode 0b100_01010_111_0101000_0001100_0011111#32 = .ok (.gld 4 40 12 31) := by
  refine ⟨rfl, rfl, rfl, rfl, rfl, rfl, rfl, rfl⟩

/-- Words of major 0x0B, written out from the fields that the spec gives them (R79 to R104). -/
theorem test_decode_major_0B :
  decode 0b101_01011_000_0110000_0001101_0100000#32 = .ok (.stB8 5 48 13 32) ∧
  decode 0b110_01011_001_0001000_0001110_0100001#32 = .ok (.stB16 6 8 14 33) ∧
  decode 0b111_01011_010_0010000_0001111_0100010#32 = .ok (.stB32 7 16 15 34) ∧
  decode 0b000_01011_011_0011000_0001011_0100011#32 = .ok (.stB64 0 24 11 35) ∧
  decode 0b001_01011_100_0100000_0001100_0100100#32 = .ok (.stB128 1 32 12 36) ∧
  decode 0b010_01011_101_0101000_0001101_0100101#32 = .ok (.gst 2 40 13 37) ∧
  decode 0b011_01011_110_0110000_0001110_0100110#32 = .ok (.ldSys 3 48 14 38) ∧
  decode 0b100_01011_111_0001000_0001111_0100111#32 = .ok (.stSys 4 8 15 39) := by
  refine ⟨rfl, rfl, rfl, rfl, rfl, rfl, rfl, rfl⟩

/-- Words of major 0x0C, written out from the fields that the spec gives them (R79 to R104). -/
theorem test_decode_major_0C_a :
  decode 0b101_01100_0000_1_0_100_1000_1011_0101000#32 = .ok (.atomAdd 5 1 4 8 11 40) ∧
  decode 0b110_01100_0001_0_0_110_1000_1100_0101001#32 = .ok (.atomSub 6 0 6 8 12 41) ∧
  decode 0b111_01100_0010_1_0_000_1000_1101_0101010#32 = .ok (.atomMin 7 1 0 8 13 42) ∧
  decode 0b000_01100_0011_0_0_010_1000_1110_0101011#32 = .ok (.atomMax 0 0 2 8 14 43) ∧
  decode 0b001_01100_0100_1_0_100_1000_1111_0101100#32 = .ok (.atomMinn 1 1 4 8 15 44) ∧
  decode 0b010_01100_0101_0_0_110_1000_1011_0101101#32 = .ok (.atomMaxn 2 0 6 8 11 45) ∧
  decode 0b011_01100_0110_1_0_000_1000_1100_0101110#32 = .ok (.atomAnd 3 1 0 8 12 46) ∧
  decode 0b100_01100_0111_0_0_010_1000_1101_0101111#32 = .ok (.atomOr 4 0 2 8 13 47) ∧
  decode 0b101_01100_1000_1_0_100_1000_1110_0010001#32 = .ok (.atomXor 5 1 4 8 14 17) ∧
  decode 0b110_01100_1001_0_0_110_1000_1111_0010010#32 = .ok (.atomExch 6 0 6 8 15 18) ∧
  decode 0b111_01100_1010_1_0_000_1000_1011_0010011#32 = .ok (.atomCas 7 1 0 8 11 19) ∧
  decode 0b000_01100_101100_010_1000_1100_0010100#32 = .ok (.atomfFaddF32 0 2 8 12 20) := by
  refine ⟨rfl, rfl, rfl, rfl, rfl, rfl, rfl, rfl, rfl, rfl, rfl, rfl⟩

/-- Words of major 0x0C, written out from the fields that the spec gives them (R79 to R104). -/
theorem test_decode_major_0C_b :
  decode 0b001_01100_110000_100_1000_1101_0010101#32 = .ok (.atomfFaddBf16x2 1 4 8 13 21) ∧
  decode 0b010_01100_110100_110_1000_1110_0010110#32 = .ok (.atomfFminF32 2 6 8 14 22) ∧
  decode 0b011_01100_111000_000_1000_1111_0010111#32 = .ok (.atomfFmaxF32 3 0 8 15 23) ∧
  decode 0b100_01100_111100_010_1000_1011_0011000#32 = .ok (.cas128 4 2 8 11 24) ∧
  decode 0b101_01100_0000_1_1_100_1000_1100_0011001#32 = .ok (.redAdd 5 1 4 8 12 25) ∧
  decode 0b110_01100_0001_0_1_110_1000_1101_0011010#32 = .ok (.redSub 6 0 6 8 13 26) ∧
  decode 0b111_01100_0010_1_1_000_1000_1110_0011011#32 = .ok (.redMin 7 1 0 8 14 27) ∧
  decode 0b000_01100_0011_0_1_010_1000_1111_0011100#32 = .ok (.redMax 0 0 2 8 15 28) ∧
  decode 0b001_01100_0100_1_1_100_1000_1011_0011101#32 = .ok (.redMinn 1 1 4 8 11 29) ∧
  decode 0b010_01100_0101_0_1_110_1000_1100_0011110#32 = .ok (.redMaxn 2 0 6 8 12 30) ∧
  decode 0b011_01100_0110_1_1_000_1000_1101_0011111#32 = .ok (.redAnd 3 1 0 8 13 31) ∧
  decode 0b100_01100_0111_0_1_010_1000_1110_0100000#32 = .ok (.redOr 4 0 2 8 14 32) := by
  refine ⟨rfl, rfl, rfl, rfl, rfl, rfl, rfl, rfl, rfl, rfl, rfl, rfl⟩

/-- Words of major 0x0C, written out from the fields that the spec gives them (R79 to R104). -/
theorem test_decode_major_0C_c :
  decode 0b101_01100_1000_1_1_100_1000_1111_0100001#32 = .ok (.redXor 5 1 4 8 15 33) ∧
  decode 0b110_01100_101101_110_1000_1011_0100010#32 = .ok (.redFaddF32 6 6 8 11 34) ∧
  decode 0b111_01100_110001_000_1000_1100_0100011#32 = .ok (.redFaddBf16x2 7 0 8 12 35) ∧
  decode 0b000_01100_110101_010_1000_1101_0100100#32 = .ok (.redFminF32 0 2 8 13 36) ∧
  decode 0b001_01100_111001_100_1000_1110_0100101#32 = .ok (.redFmaxF32 1 4 8 14 37) := by
  refine ⟨rfl, rfl, rfl, rfl, rfl⟩

/-- Words of major 0x0D, written out from the fields that the spec gives them (R79 to R104). -/
theorem test_decode_major_0D :
  decode 0b010_01101_000_0001000_0001111_0100110#32 = .ok (.sfil 2 8 15 38) ∧
  decode 0b011_01101_001_0010000_0001011_0100111#32 = .ok (.sscl 3 16 11 39) ∧
  decode 0b100_01101_010_0011000_0001100_0101000#32 = .ok (.soff 4 24 12 40) ∧
  decode 0b101_01101_011_0100000_0001101_0101001#32 = .ok (.sclp 5 32 13 41) ∧
  decode 0b110_01101_100_0101000_0001110_0101010#32 = .ok (.spmt 6 40 14 42) ∧
  decode 0b111_01101_101_0110000_0001111_0000000#32 = .ok (.smat 7 48 15) ∧
  decode 0b000_01101_110_0001000_0001011_0000000#32 = .ok (.shdr 0 8 11) ∧
  decode 0b001_01101_111_0010000_0001100_0101101#32 = .ok (.pst 1 16 12 45) := by
  refine ⟨rfl, rfl, rfl, rfl, rfl, rfl, rfl, rfl⟩

/-- Words of major 0x0E, written out from the fields that the spec gives them (R79 to R104). -/
theorem test_decode_major_0E :
  decode 0b010_01110_000_100_1111_0001101_0101110#32 = .ok (.mma 2 4 15 13 46) ∧
  decode 0b011_01110_0010000_101_0001110_0000000#32 = .ok (.mscale 3 5 14) ∧
  decode 0b100_01110_0100000_110_00000000000000#32 = .ok (.mzero 4 6) ∧
  decode 0b101_01110_0100000_111_00000000000001#32 = .ok (.mzeroOpen 5 7) ∧
  decode 0b110_01110_011_0001000_0011_001_0010011#32 = .ok (.mdrain 6 8 3 1 19) ∧
  decode 0b111_01110_100_0010000_0011_010_0000000#32 = .ok (.mdrs 7 16 3 2) ∧
  decode 0b000_01110_101_0011000_0000_011_0000000#32 = .ok (.mdrp 0 24 3) ∧
  decode 0b001_01110_11000000_01_0001111_0010110#32 = .ok (.mcbk 1 1 15 22) := by
  refine ⟨rfl, rfl, rfl, rfl, rfl, rfl, rfl, rfl⟩

/-- Words of major 0x10, written out from the fields that the spec gives them (R79 to R104). -/
theorem test_decode_major_10 :
  decode 0b010_10000_000_0101000_0001011_0000000#32 = .ok (.gmov 2 40 11) ∧
  decode 0b011_10000_001_0110000_0001100_0011000#32 = .ok (.gadd 3 48 12 24) ∧
  decode 0b100_10000_010_0001000_0001101_0011001#32 = .ok (.gsub 4 8 13 25) ∧
  decode 0b101_10000_011_0010000_0001110_0011010#32 = .ok (.gmul 5 16 14 26) ∧
  decode 0b110_10000_100_0011000_0001111_0011011#32 = .ok (.gmulh 6 24 15 27) ∧
  decode 0b111_10000_101_0100000_0001011_0011100#32 = .ok (.gand 7 32 11 28) ∧
  decode 0b000_10000_110_0101000_0001100_0011101#32 = .ok (.gor 0 40 12 29) ∧
  decode 0b001_10000_111_0110000_0001101_0011110#32 = .ok (.gxor 1 48 13 30) := by
  refine ⟨rfl, rfl, rfl, rfl, rfl, rfl, rfl, rfl⟩

/-- Words of major 0x11, written out from the fields that the spec gives them (R79 to R104). -/
theorem test_decode_major_11 :
  decode 0b010_10001_000_0001000_0001110_0011111#32 = .ok (.gshl 2 8 14 31) ∧
  decode 0b011_10001_001_0010000_0001111_0100000#32 = .ok (.gshr 3 16 15 32) ∧
  decode 0b100_10001_010_0011000_0001011_0100001#32 = .ok (.gsar 4 24 11 33) ∧
  decode 0b101_10001_011_0100000_0001100_0100010#32 = .ok (.gmin 5 32 12 34) ∧
  decode 0b110_10001_100_0101000_0001101_0100011#32 = .ok (.gmax 6 40 13 35) ∧
  decode 0b111_10001_101_0110000_0001110_0100100#32 = .ok (.gminn 7 48 14 36) ∧
  decode 0b000_10001_110_0001000_0001111_0100101#32 = .ok (.gmaxn 0 8 15 37) ∧
  decode 0b001_10001_111_0010000_0000110_0100110#32 = .ok (.gsel 1 16 6 38) := by
  refine ⟨rfl, rfl, rfl, rfl, rfl, rfl, rfl, rfl⟩

/-- Words of major 0x12, written out from the fields that the spec gives them (R79 to R104). -/
theorem test_decode_major_12 :
  decode 0b010_10010_000_0011000_0001100_0000000#32 = .ok (.gclz 2 24 12) ∧
  decode 0b011_10010_001_0100000_0001101_0000000#32 = .ok (.gpop 3 32 13) ∧
  decode 0b100_10010_010_0000100_0001110_0101001#32 = .ok (.gcmpEq 4 4 14 41) ∧
  decode 0b101_10010_011_0000001_0001111_0101010#32 = .ok (.gcmpNe 5 1 15 42) ∧
  decode 0b110_10010_100_0000001_0001011_0101011#32 = .ok (.gcmpLt 6 1 11 43) ∧
  decode 0b111_10010_101_0000101_0001100_0101100#32 = .ok (.gcmpLe 7 5 12 44) ∧
  decode 0b000_10010_110_0000010_0001101_0101101#32 = .ok (.gcmpLtn 0 2 13 45) ∧
  decode 0b001_10010_111_0000110_0001110_0101110#32 = .ok (.gcmpLen 1 6 14 46) := by
  refine ⟨rfl, rfl, rfl, rfl, rfl, rfl, rfl, rfl⟩

/-- Words of major 0x13, written out from the fields that the spec gives them (R79 to R104). -/
theorem test_decode_major_13 :
  decode 0b010_10011_000_0000011_0000110_0000101#32 = .ok (.qand 2 3 6 5) ∧
  decode 0b011_10011_001_0000111_0000010_0000111#32 = .ok (.qor 3 7 2 7) ∧
  decode 0b100_10011_010_0000111_0000110_0000100#32 = .ok (.qxor 4 7 6 4) ∧
  decode 0b101_10011_011_0000100_0000011_0000000#32 = .ok (.qnot 5 4 3) ∧
  decode 0b110_10011_1000000000_0001110_0000000#32 = .ok (.smode 6 14) ∧
  decode 0b111_10011_101_0100000_00000000000000#32 = .ok (.gmode 7 32) := by
  refine ⟨rfl, rfl, rfl, rfl, rfl, rfl⟩

/-- Words of major 0x14. -/
theorem test_decode_major_14 :
  decode 0b000_10100_0101000_00001001011010100#32 = .ok (.gldi 0 40 4820) := rfl

/-- Words of major 0x15. -/
theorem test_decode_major_15 :
  decode 0b001_10101_0110000_0_0001001011010101#32 = .ok (.gldh 1 48 4821) := rfl

/-- Words of major 0x16. -/
theorem test_decode_major_16 :
  decode 0b010_10110_0001000_11111111111111101#32 = .ok (.gaddi 2 8 131069) := rfl

/-- Words of major 0x17. -/
theorem test_decode_major_17 :
  decode 0b011_10111_0010000_1_0_001001011010111#32 = .ok (.smodi 3 16 1 4823) := rfl

/-- Words of major 0x18, written out from the fields that the spec gives them (R79 to R104). -/
theorem test_decode_major_18 :
  decode 0b100_11000_000_111111111111111111101#32 = .ok (.br 4 2097149) ∧
  decode 0b101_11000_101_001011010011001001010#32 = .ok (.brq 5 5 370250) := by
  refine ⟨rfl, rfl⟩

/-- Words of major 0x19, written out from the fields that the spec gives them (R79 to R104). -/
theorem test_decode_major_19 :
  decode 0b110_11001_0000_11111111111111111101#32 = .ok (.call 6 1048573) ∧
  decode 0b111_11001_0001_01011010011001001100#32 = .ok (.rcv 7 370252) ∧
  decode 0b000_11001_001_001011010011001001101#32 = .ok (.brd 0 1 370253) := by
  refine ⟨rfl, rfl, rfl⟩

/-- Words of major 0x1A, written out from the fields that the spec gives them (R79 to R104). -/
theorem test_decode_major_1A :
  decode 0b001_11010_00000_010_0_011000_000000000#32 = .ok (.cpy 1 2 0 24) ∧
  decode 0b010_11010_00001_011_1_011001_000000000#32 = .ok (.cpyt 2 3 1 25) ∧
  decode 0b011_11010_00010_100_0_011010_0001000_00#32 = .ok (.cpyx 3 4 0 26 8) ∧
  decode 0b100_11010_00011_101_1_011011_000000000#32 = .ok (.cpym 4 5 1 27) ∧
  decode 0b101_11010_00100_110_0_011100_000000000#32 = .ok (.cpyr 5 6 0 28) ∧
  decode 0b110_11010_001010000_011101_10_0000000#32 = .ok (.tlr 6 29 2) ∧
  decode 0b111_11010_001100000_011110_11_0000000#32 = .ok (.tlw 7 30 3) ∧
  decode 0b000_11010_00111_010_0_011111_000000000#32 = .ok (.collAr 0 2 31) ∧
  decode 0b001_11010_01000_011_0_100000_000000000#32 = .ok (.collRs 1 3 32) ∧
  decode 0b010_11010_01001_100_0_100001_000000000#32 = .ok (.collAg 2 4 33) ∧
  decode 0b011_11010_01010_101_0_100010_0001000_00#32 = .ok (.csred 3 5 34 8) ∧
  decode 0b100_11010_01011_100011_0000000000000#32 = .ok (.cprio 4 35) := by
  refine ⟨rfl, rfl, rfl, rfl, rfl, rfl, rfl, rfl, rfl, rfl, rfl, rfl⟩

/-- Words of major 0x1B, written out from the fields that the spec gives them (R79 to R104). -/
theorem test_decode_major_1B_a :
  decode 0b101_11011_00000_10_010_00000000000000#32 = .ok (.fence 5 2 2) ∧
  decode 0b110_11011_00001_011000_001101_101100_0#32 = .ok (.ldaGrp 6 24 13 44) ∧
  decode 0b111_11011_00010_100000_001110_101101_0#32 = .ok (.ldaTeam 7 32 14 45) ∧
  decode 0b000_11011_00011_101000_001111_101110_0#32 = .ok (.ldaClu 0 40 15 46) ∧
  decode 0b001_11011_00100_110000_001011_101111_0#32 = .ok (.ldaDie 1 48 11 47) ∧
  decode 0b010_11011_00101_001000_001100_010001_0#32 = .ok (.ldaDev 2 8 12 17) ∧
  decode 0b011_11011_00110_010000_001101_010010_0#32 = .ok (.ldaSys 3 16 13 18) ∧
  decode 0b100_11011_01000_101011_000111_0000000#32 = .ok (.acqr 4 43 7) ∧
  decode 0b101_11011_01001_100000_001111_010100_0#32 = .ok (.stlGrp 5 32 15 20) ∧
  decode 0b110_11011_01010_101000_001011_010101_0#32 = .ok (.stlTeam 6 40 11 21) ∧
  decode 0b111_11011_01011_110000_001100_010110_0#32 = .ok (.stlClu 7 48 12 22) ∧
  decode 0b000_11011_01100_001000_001101_010111_0#32 = .ok (.stlDie 0 8 13 23) := by
  refine ⟨rfl, rfl, rfl, rfl, rfl, rfl, rfl, rfl, rfl, rfl, rfl, rfl⟩

/-- Words of major 0x1B, written out from the fields that the spec gives them (R79 to R104). -/
theorem test_decode_major_1B_b :
  decode 0b001_11011_01101_010000_001110_011000_0#32 = .ok (.stlDev 1 16 14 24) ∧
  decode 0b010_11011_01110_011000_001111_011001_0#32 = .ok (.stlSys 2 24 15 25) ∧
  decode 0b011_11011_10000_01_0001_0000000000000#32 = .ok (.bar 3 1 1) ∧
  decode 0b100_11011_10001_01_0010_0000000000000#32 = .ok (.bara 4 1 2) ∧
  decode 0b101_11011_10010_01_0011_0000000000000#32 = .ok (.barw 5 1 3) ∧
  decode 0b110_11011_1001101_0001_010100_0000000#32 = .ok (.barc 6 1 20) ∧
  decode 0b111_11011_10100_010101_0000000000000#32 = .ok (.trdy 7 21) ∧
  decode 0b000_11011_10101_010110_0000000000000#32 = .ok (.twt 0 22) ∧
  decode 0b001_11011_10110_010111_0000000000000#32 = .ok (.snuff 1 23) ∧
  decode 0b010_11011_10111_011000_0000000000000#32 = .ok (.dclk 2 24) ∧
  decode 0b011_11011_110000000000000000000000#32 = .ok (.dsync 3) ∧
  decode 0b100_11011_11001_011010_0000000000000#32 = .ok (.rsig 4 26) := by
  refine ⟨rfl, rfl, rfl, rfl, rfl, rfl, rfl, rfl, rfl, rfl, rfl, rfl⟩

/-- Words of major 0x1B. -/
theorem test_decode_major_1B_c :
  decode 0b101_11011_110100000000000000000000#32 = .ok (.rchk 5) := rfl

/-- Words of major 0x1C, written out from the fields that the spec gives them (R79 to R104). -/
theorem test_decode_major_1C_a :
  decode 0b110_11100_000000000000000000000000#32 = .ok (.nop 6) ∧
  decode 0b111_11100_000010000000000000000000#32 = .ok (.exit 7) ∧
  decode 0b000_11100_000100000000000000000000#32 = .ok (.ret 0) ∧
  decode 0b001_11100_00011_011111_0000000000000#32 = .ok (.jmpg 1 31) ∧
  decode 0b010_11100_001000000000000000000000#32 = .ok (.pdem 2) ∧
  decode 0b011_11100_00101_101010111100_0000000#32 = .ok (.safe 3 2748) ∧
  decode 0b100_11100_00110_00000011_00000000000#32 = .ok (.trap 4 3) ∧
  decode 0b101_11100_001110000000000000000000#32 = .ok (.tret 5) ∧
  decode 0b110_11100_01000_0101000_000101_000000#32 = .ok (.rdsp 6 40 5) ∧
  decode 0b111_11100_01001_0110000_000101_000000#32 = .ok (.wrsp 7 48 5) ∧
  decode 0b000_11100_01010_1100_010011001111101#32 = .ok (.spawn 0 12 9853) ∧
  decode 0b001_11100_010110000000000000000000#32 = .ok (.bflush 1) := by
  refine ⟨rfl, rfl, rfl, rfl, rfl, rfl, rfl, rfl, rfl, rfl, rfl, rfl⟩

/-- Words of major 0x1C, written out from the fields that the spec gives them (R79 to R104). -/
theorem test_decode_major_1C_b :
  decode 0b010_11100_01100_101000_0000000000000#32 = .ok (.launch 2 40) ∧
  decode 0b011_11100_01101_00_00000000000000000#32 = .ok (.role 3 0) := by
  refine ⟨rfl, rfl⟩
/-! Small states. -/

/-- One group of 32 threads on core 0, its text the page at address 0x10000. -/
def prog : State := State.reset.placeProgram.at_ 0 0
/-- It with other registers, with another split, with another grid. -/
def regsOf (s : State) (f : Regs → Regs) : State := s.setRegs (f s.regs)
def splOf (s : State) (f : Split → Split) : State := s.setSpl (f s.spl)
def gridOf (s : State) (f : Grid → Grid) : State := s.setGrid (f s.grid)
def launchOf (s : State) (f : Launch → Launch) : State := gridOf s fun g => { g with launch := f g.launch }
/-- With GMODE's type, with no lane, with only the lowest lane. -/
def typed (n : Word) : State := regsOf prog fun r => { r with gmode := n }
def dark : State := splOf prog fun x => { x with mask := 0 }
def single : State := splOf prog fun x => { x with mask := 1 }
/-- The values of the group registers from 1 on, and of one vector register. -/
def withG (s : State) (l : List DWord) : State := regsOf s fun r => (l.zipIdx 1).foldl (fun r e => r.setG e.2 e.1) r
def withV (s : State) (n : Nat) (f : Nat → Word) : State := regsOf s fun r => r.setLanes n 0xFFFFFFFF f
/-- Two data pages: at 0x20000 plain, at physical 0x100000; at 0x30000 of tiles of 32 KiB, at physical 0x200000, with their
headers at physical 0x300000. -/
def leaves : AMap Leaf := [(1, codeLeaf), (2, { valid := true, rd := true, wr := true, pa := 0x100000 }),
  (3, { valid := true, rd := true, wr := true, pa := 0x200000, tiled := true, tcls := 10, hframe := 0x300000 })]
/-- A lease's translations in the TLB group of a core (R215). -/
def translated (s : State) (core : Nat) : State :=
  s.putTlb (tlbGroup core) (leaves.map fun e => { grid := 0, page := e.1, leaf := e.2 })
def data : State := translated (gridOf prog fun g => { g with
  ranges := [{ base := 0x20000, len := 0x20000, rights := 3 }], trans := leaves }) 0
/-- A replicated group, a deterministic one, a follower's place. -/
def repl : State := launchOf data fun l => { l with replicas := 1 }
def det : State := launchOf data fun l => { l with det := true }
/-- Does an outcome lead to a state with a property? -/
def goesTo (o : Out) (p : State → Bool) : Bool :=
  match o with
  | .next t => p t
  | _ => false
/-- In a handler entered at this stack depth. -/
def handling (s : State) : State := s.setGrp { s.grp with handler := some (s.slot, s.spl.stack.length) }
/-- With a handler of every class. -/
def handled (s : State) : State := gridOf s fun g => { g with kernel := { g.kernel with handlers := List.replicate 16 0x100 } }

/-! Witnesses: for each statement with hypotheses, states and operands that meet them, clause by clause. -/

theorem witness_RoundTrip : (Instr.barw 0 3 3).coded = true ∧ (Instr.barw 0 3 3).wf = true ∧
    decode (encode (.barw 0 3 3)) = .ok (.barw 0 3 3) := ⟨rfl, rfl, rfl⟩

/-- A word fetched: `gldi g1, 5`; the same issued late, with a result in flight, a word that is none, and a pc past the text. -/
def placed (w : Word) : State := prog.placeFor 0 0 0 w
def fiveWord : Word := 0b000_10100_0000001_00000000000000101
theorem witness_StepRunsDecoded_plain :
    let s := placed fiveWord
    s.events = [] ∧ s.nextIssue (s.groups.length + 1) s.time.turn = some (0, 0, 0) ∧ s.spl.word = some fiveWord ∧
    decodeBytes (wordBytes fiveWord) = .ok (.gldi 0 1 5, []) ∧ inRegs (.gldi 0 1 5) s.grid.kernel.regs = true := by decide +kernel
/-- The word has not been fetched; memory holds it. -/
def unfetched (w : Word) : State := prog.placeWord 0 w
theorem witness_StepRunsDecoded_fetch : (unfetched fiveWord).spl.live = true ∧ (unfetched fiveWord).spl.word = none ∧
    (unfetched fiveWord).spl.wait = none ∧ (unfetched fiveWord).grid.codePage 0x10000 = true ∧
    (unfetched fiveWord).spl.pc.toNat = 0x10000 ∧ (unfetched fiveWord).leafOf 0x10000 = some codeLeaf ∧ codeLeaf.rd = true ∧
    codeLeaf.phys 0x10000 = 0 ∧ (unfetched fiveWord).poisoned 0 = false ∧
    wordBytes fiveWord = (List.range 4).map fun j => (unfetched fiveWord).coherentByte j := by decide +kernel
/-- The state in which the instruction is executed, as `StepRunsDecoded` names it. -/
def begun (s : State) (w : Word) : State :=
  let grown := (s.skipSlots fun j => decide (s.time.turn ≤ j) && decide (j < 0)).grow 0 0 (0, 0)
  ((({ grown with time := { grown.time with turn := 1 } } : State).at_ 0 0).beginIssue 0).noteSolid w
theorem witness_StepRunsDecoded_effect : (begun (placed fiveWord) fiveWord).early (.gldi 0 1 5) = false ∧
    (begun (placed fiveWord) fiveWord).compareDue = false ∧ (begun (placed fiveWord) fiveWord).blockFits (.gldi 0 1 5) = true ∧
    goesTo (step (placed fiveWord)) (fun t => t.regs.getG 1 == 5) = true := by decide +kernel
/-- A `cpym` whose two destinations would reach past g63. -/
theorem witness_StepRunsDecoded_block :
    (regsOf prog fun r => r.setG 61 0x0200000000000000).blockFits (.cpym 0 0 0 60) = false ∧
    (regsOf prog fun r => r.setG 61 0x0100000000000000).blockFits (.cpym 0 0 0 60) = true := by decide +kernel
theorem witness_StepRunsDecoded_late : 4096 ≤ (begun (splOf (placed fiveWord) fun x => { x with dist := 4096 }) fiveWord).spl.dist ∧
    (begun (splOf (placed fiveWord) fun x => { x with dist := 4096 }) fiveWord).handlerMode = false ∧
    isSafe (.gldi 0 1 5) = false ∧
    (begun (splOf (placed fiveWord) fun x => { x with dist := 4096 }) fiveWord).compareDue = false := by decide +kernel
/-- `gaddi g1, 5` under CHK, with g1 readable in the seventh cycle. -/
def addWord : Word := 0b000_10110_0000001_00000000000000101
def early : State := (regsOf (placed addWord) fun r => { r with gmode := 0x2000 }).setGrp
  { (regsOf (placed addWord) fun r => { r with gmode := 0x2000 }).grp with
    inflight := [{ reg := .g 1, slot := 0, tseq := 0, ready := some 7, old := 0, lanes := 0 }] }
theorem witness_StepRunsDecoded_early : (begun early addWord).early (.gaddi 0 1 5) = true ∧
    (begun early addWord).compareDue = false := by decide +kernel
/-- A replica whose L1 is full of its unverified lines (R375). -/
def filledUp : State := (repl.placeFor 0 0 0 fiveWord).setCore { repl.core with full := some (0, 0) }
theorem witness_StepRunsDecoded_full :
    filledUp.nextIssue (filledUp.groups.length + 1) 0 = some (0, 0, 0) ∧ (begun filledUp fiveWord).compareDue = true ∧
    goesTo (step filledUp) (fun t => t.spl.wait == some .compare && t.grp.repl.forced && t.regs.getG 1 == 0) = true := by
  decide +kernel
/-- The oldest unverified line decides (R375). -/
theorem test_oldestOwner : oldestOwner [(1, { owner := some 5, since := 9 }), (2, {}), (3, { owner := some 6, since := 4 }),
    (4, { owner := some 7, since := 4 })] = some (6, 4) := by decide
theorem witness_StepRunsDecoded_illegal : (∃ r, decodeBytes (wordBytes 0) = .error r) ∧
    (placed 0).nextIssue ((placed 0).groups.length + 1) 0 = some (0, 0, 0) ∧ (placed 0).spl.word = some 0 := by
  refine ⟨⟨_, rfl⟩, ?_⟩
  decide +kernel
theorem witness_StepRunsDecoded_outside : (splOf prog fun x => { x with pc := 0x20000 }).grid.codePage 0x20000 = false ∧
    (splOf prog fun x => { x with pc := 0x20000 }).nextIssue 2 0 = some (0, 0, 0) := by decide +kernel

theorem witness_StepRunsEvent : ({ State.reset with events := [.reset] } : State).events = [.reset] ∧
    State.reset.events = [] ∧ State.reset.nextIssue 1 0 = none := by decide +kernel
theorem witness_ResetState : (List.replicate 16 (7 : DWord)).length ≤ 16 := by decide
theorem witness_StepKeepsMemory : (placed fiveWord).memoryWf = true ∧
    goesTo (step (placed fiveWord)) State.memoryWf = true := by decide +kernel
theorem witness_CodedNeverStops : (Instr.pst 7 127 63 62).coded = true := rfl
/-- The whole opcode-table word is fetched where `withFetchWord` puts it. -/
theorem test_fetchWord : decodeTableWord 32 (fiveWord.toNat) = some (.gldi 0 1 5) ∧
    goesTo (step (State.reset.withFetchWord 32 fiveWord.toNat))
      (fun t => (AMap.get {} t.groups 0).ctx.regs.getG 1 == 5) = true := ⟨rfl, by decide +kernel⟩

theorem witness_VectorBits : (1 : BitVec 7) ≠ 0 := by decide
theorem witness_VectorMoves : 2 ≤ (2 : BitVec 7).toNat ∧ ((withG prog [31]).rdG 1).toNat < 32 ∧ 32 ≤ ((withG prog [32]).rdG 1).toNat := by
  decide +kernel
/-- Types 0 f32, 1 bf16, 5 i8; 7 is no element type of R186. -/
theorem witness_VectorArithmetic : dark.active = 0 ∧ (typed 5).active ≠ 0 ∧
    modeType (typed 5).regs.gmode ∈ [0, 1, 2, 3, 4, 5, 6, 8, 9, 10, 11] ∧ tyOf (modeType (typed 5).regs.gmode) = some (.int ⟨8, true⟩) ∧
    tyOf (modeType (typed 11).regs.gmode) = some (.int ⟨16, false⟩) ∧ tyOf (modeType prog.regs.gmode) = some (.float .f32) ∧
    (typed 8).active ≠ 0 ∧ tyOf (modeType (typed 8).regs.gmode) = some (.int ⟨32, true⟩) := by decide +kernel
theorem witness_VectorFunctions : dark.active = 0 ∧ (typed 2).active ≠ 0 ∧ tyOf (modeType (typed 2).regs.gmode) = some (.float .f16) ∧
    16 ≤ Fmt.f16.width ∧ 16 ≤ Fmt.f32.width := by decide +kernel
theorem witness_RoundingNeighbour : Fmt.e4m3 ∈ [Fmt.f32, Fmt.bf16, Fmt.f16, Fmt.e4m3, Fmt.e5m2] ∧ (1 : Nat) ≠ 0 := by decide
/-- R164: 1/3 in f32 to nearest and upwards. -/
theorem test_third : Fmt.f32.div { rnd := 0 } (.fin false 1 0) (.fin false 3 0) = 0x3EAAAAAB ∧
    Fmt.f32.div { rnd := 1 } (.fin false 1 0) (.fin false 3 0) = 0x3EAAAAAA := by decide +kernel
theorem witness_FunctionSpecials : (1 : Nat) ≠ 0 := by decide
theorem witness_VectorTwoSum : dark.active = 0 ∧ (typed 1).active ≠ 0 ∧ modeType (typed 1).regs.gmode ≠ 0 ∧ prog.active ≠ 0 ∧
    modeType prog.regs.gmode = 0 ∧ prog.active.has 31 = true := by decide +kernel
theorem witness_TypeRefused : modeType (typed 7).regs.gmode ∉ [0, 1, 2, 3, 4, 5, 6, 8, 9, 10, 11] ∧ (typed 7).active ≠ 0 ∧
    modeType (typed 0).regs.gmode ∉ [5, 6, 8, 9, 10, 11] ∧ modeType (typed 3).regs.gmode ∉ [0, 1, 2] ∧
    modeType (typed 2).regs.gmode ∉ [0] := by decide +kernel
theorem witness_VectorConvert : dark.active = 0 ∧ (typed 3).active ≠ 0 ∧
    modeType (typed 3).regs.gmode ∈ [0, 1, 2, 3, 4, 5, 6, 8, 9, 10, 11] ∧ tyOf (modeType (typed 3).regs.gmode) = some (.float .e4m3) := by
  decide +kernel
theorem witness_VectorCompare : dark.active = 0 ∧ (typed 4).active ≠ 0 ∧ tyOf (modeType (typed 4).regs.gmode) = some (.float .e5m2) ∧
    tyOf (modeType (typed 9).regs.gmode) = some (.int ⟨32, false⟩) := by decide +kernel
theorem witness_CrossLaneMoves : prog.active.has 31 = true ∧
    -- no index beyond 63; one beyond it in lane 31
    (∀ l, l < 32 → prog.active.has l = true → (prog.rdV 3 l).extractLsb' 6 26 = 0) ∧
    ((withV prog 3 fun l => if l = 31 then 64 else 63).rdV 3 31).extractLsb' 6 26 ≠ 0 ∧
    ((withG prog [31]).rdG 1).toNat < 32 ∧ 32 ≤ ((withG prog [32]).rdG 1).toNat ∧ (withG prog [32]).active ≠ 0 ∧ dark.active = 0 := by
  decide +kernel
/-- The nodes of a reduction exist: every level is a function of the one below it. -/
def treeOf (f : Nat → Nat → Nat → Nat → Nat → Nat) (x0 : Nat → Nat → Nat) (e : Nat) : Nat → Nat → Nat
  | 0, i => x0 e i
  | lev + 1, i => f e lev i (treeOf f x0 e lev (2 * i)) (treeOf f x0 e lev (2 * i + 1))
theorem witness_VectorReduce (f : Nat → Nat → Nat → Nat → Nat → Nat) (x0 : Nat → Nat → Nat) :
    (∃ x : Nat → Nat → Nat → Nat, (∀ e i, x e 0 i = x0 e i) ∧
      ∀ e lev i, x e (lev + 1) i = f e lev i (x e lev (2 * i)) (x e lev (2 * i + 1))) ∧
    (typed 6).active ≠ 0 ∧ modeType (typed 6).regs.gmode ∈ [0, 1, 2, 3, 4, 5, 6, 8, 9, 10, 11] ∧
    tyOf (modeType (typed 6).regs.gmode) = some (.int ⟨8, false⟩) ∧ dark.active = 0 :=
  ⟨⟨treeOf f x0, fun _ _ => rfl, fun _ _ _ => rfl⟩, by decide +kernel⟩
theorem witness_LanePredicates : (3 : BitVec 3).toNat < 4 ∧ 8 ≤ (8 : BitVec 7).toNat ∧ (1 : BitVec 7) ≠ 0 := by decide
theorem witness_LanesAndGroup : 4 ≤ (6 : BitVec 3).toNat ∧ 64 ≤ (64 : BitVec 7).toNat ∧ (1 : BitVec 7) ≠ 0 := by decide
theorem witness_GroupImmediates : (0x10000 : BitVec 17).getLsbD 16 = true := by decide
/-- What GMODE accepts, as `ModeRegister` says it. -/
abbrev lawfulMode (m : Word) : Prop :=
  m.extractLsb' 24 8 = 0 ∧ m.getLsbD 15 = false ∧ (m.extractLsb' 4 3).toNat < 6 ∧ (m.extractLsb' 0 4).toNat < 0xC
theorem witness_ModeRegister : ((withG prog [0x00FF7F5B]).rdG 1).extractLsb' 32 32 = 0 ∧
    -- BSEL all ones, every flag, RND 5, TYPE 0xB; then TYPE 0xC, RND 6, bit 15, bit 24, a high word
    lawfulMode 0x00FF7F5B ∧ ¬lawfulMode 0x0000000C ∧ ¬lawfulMode 0x00000060 ∧ ¬lawfulMode 0x00008000 ∧
    ¬lawfulMode 0x01000000 ∧ ((withG prog [0x100000000]).rdG 1).extractLsb' 32 32 ≠ 0 := by decide +kernel

/-- Fields just past the registers they name, for the words that the statements reject. -/
theorem witness_fields : 8 ≤ (8 : BitVec 7).toNat ∧ 64 ≤ (64 : BitVec 7).toNat ∧ (1 : BitVec 7) ≠ 0 ∧ (1 : BitVec 3) ≠ 0 ∧
    2 ≤ (2 : BitVec 3).toNat ∧ (1 : BitVec 3).toNat < 2 ∧ (if (7 : BitVec 3) = 7 then 8 else 64) ≤ (8 : BitVec 7).toNat ∧
    (0x8000 : BitVec 17).getLsbD 15 = true := by decide

theorem witness_UniformBranches : (7 : BitVec 3) ≠ 0 := by decide
/-- A stack of n entries, with this mark innermost. -/
def stacked (n : Nat) (stop : Addr) : State :=
  splOf prog fun x => { x with stack := List.replicate n { pc := 0x10010, mask := 0xFF, stop := stop } }
theorem witness_CallsAndJumps : (stacked 31 1).spl.stack.length < 32 ∧ 32 ≤ (stacked 32 1).spl.stack.length ∧
    (stacked 1 1).spl.stack = [{ pc := 0x10010, mask := 0xFF, stop := 1 }] ∧
    (∀ e rest, (stacked 1 0x10020).spl.stack = e :: rest → e.stop ≠ 1) ∧
    ((withG prog [0x00FFFFFFFFFFFFFC]).rdG 1).extractLsb' 0 2 = 0 ∧ ((withG prog [0x00FFFFFFFFFFFFFC]).rdG 1).extractLsb' 56 8 = 0 ∧
    ((withG prog [0x10002]).rdG 1).extractLsb' 0 2 ≠ 0 ∧ ((withG prog [0x0100000000000000]).rdG 1).extractLsb' 56 8 ≠ 0 := by
  refine ⟨by decide +kernel, by decide +kernel, by decide +kernel, ?_, by decide +kernel⟩
  intro e rest h
  have : (stacked 1 0x10020).spl.stack = [{ pc := 0x10010, mask := 0xFF, stop := 0x10020 }] := by decide +kernel
  rw [this] at h
  cases h
  decide
/-- p1 holds the low 16 lanes; with and without a reconvergence point, and all or no slots in use. -/
def forked (rpc : Option Addr) (mask : Mask) : State :=
  splOf (regsOf prog fun r => r.setP 1 0xFFFFFFFF 0xFFFF) fun x => { x with rpc := rpc, mask := mask }
def full (s : State) : State := [1, 2, 3].foldl (fun s k => s.setSplitAt k { live := true, mask := 1 }) s
def forkDivides (s : State) (k : Nat) : Prop := s.replicated = false ∧ s.deterministic = false ∧ s.handlerMode = false ∧
  s.spl.stack = [] ∧ s.spl.chain.length < 4 ∧ k < 4 ∧ (s.splitAt k).live = false ∧ ∀ j, j < k → (s.splitAt j).live = true
theorem witness_DivergentBranch_one :
    (forked none 0xFF0000).spl.mask &&& (forked none 0xFF0000).rdP 1 = 0 ∧
    (forked none 0xFF).spl.mask &&& (forked none 0xFF).rdP 1 ≠ 0 ∧ (forked none 0xFF).spl.mask &&& ~~~((forked none 0xFF).rdP 1) = 0 ∧
    (forked none 0xFFFFFF).spl.mask &&& (forked none 0xFFFFFF).rdP 1 ≠ 0 ∧
    (forked none 0xFFFFFF).spl.mask &&& ~~~((forked none 0xFFFFFF).rdP 1) ≠ 0 ∧ (forked none 0xFFFFFF).spl.rpc = none := by decide +kernel
theorem witness_DivergentBranch_divides : let s := forked (some 0x10040) 0xFFFFFF
    s.spl.mask &&& s.rdP 1 ≠ 0 ∧ s.spl.mask &&& ~~~(s.rdP 1) ≠ 0 ∧ s.spl.rpc = some 0x10040 ∧ forkDivides s 1 ∧ 1 ≠ s.slot := by
  unfold forkDivides
  decide +kernel
theorem witness_DivergentBranch_serial : let s := full (forked (some 0x10040) 0xFFFFFF)
    s.spl.mask &&& s.rdP 1 ≠ 0 ∧ s.spl.mask &&& ~~~(s.rdP 1) ≠ 0 ∧ (∀ k, ¬forkDivides s k) ∧ s.spl.stack.length + 2 ≤ 32 ∧
    32 < (splOf s fun x => { x with stack := (stacked 31 1).spl.stack }).spl.stack.length + 2 := by
  refine ⟨by decide +kernel, by decide +kernel, ?_, by decide +kernel, by decide +kernel⟩
  intro k h
  obtain ⟨-, -, -, -, -, h4, hl, -⟩ := h
  have : ∀ k, k < 4 → ((full (forked (some 0x10040) 0xFFFFFF)).splitAt k).live = true := by decide +kernel
  exact Bool.noConfusion ((this k h4).symm.trans hl)
/-- The team's only group, with threads in a bin; the innermost stack entry keeps its lanes. -/
def binned : State := prog.setBin prog.coreId 3 { team := prog.teamId, entry := 0x10040, threads := [0xA, 0xB] }
def leaving : State := splOf (stacked 2 1) fun x => { x with mask := 0xF }
abbrev keeps (s : State) : List StackEntry :=
  (s.spl.stack.map fun e => { e with mask := e.mask &&& ~~~s.spl.mask }).filter fun e => e.mask != 0
theorem witness_EndOfLanes : prog.slot < 4 ∧ prog.replicated = false ∧ prog.grp.handler = none ∧ keeps leaving ≠ [] ∧
    keeps (stacked 2 1) = [] ∧
    (∃ k, k < 4 ∧ k ≠ (Tests.full prog).slot ∧ ((Tests.full prog).splitAt k).live = true) ∧
    prog.holdsThreads prog.coreId prog.teamId = false ∧
    (∀ k, k < 4 → k ≠ prog.slot → (prog.splitAt k).live = false) := by
  refine ⟨by decide +kernel, by decide +kernel, by decide +kernel, by decide +kernel, by decide +kernel, ⟨3, ?_⟩, by decide +kernel,
    by decide +kernel⟩
  decide +kernel
theorem witness_EndOfLanes_bin : let s := binned
    keeps s = [] ∧ s.replicated = false ∧ s.grp.handler = none ∧ (∀ k, k < 4 → k ≠ s.slot → (s.splitAt k).live = false) ∧
    s.groupsOf s.teamId = [s.gid] ∧ s.grp.live = true ∧ s.cluster.act = .active ∧ s.activeGroups s.coreId ≤ 32 ∧
    (s.bin s.coreId 3).threads = [0xA, 0xB] ∧ (s.bin s.coreId 3).team = s.teamId ∧ s.core.matrix = [] ∧
    (∀ j, j < 8 → j ≠ 3 → (s.bin s.coreId j).team = s.teamId → (s.bin s.coreId j).threads = []) := by decide +kernel
def others (s : State) (cls slot : Nat) : State := s.setGrp { s.grp with pending :=
  [{ slot := slot, cls := cls, detail := 0, pc := 0x10000, mask := 1, tseq := 0, adda := 0, addb := 0 }] }
theorem firstOf (s : State) (f : PendingFault) (h : s.grp.pending = [f]) (h7 : f.cls ≠ 7) : s.waitsFirst f :=
  ⟨by simp [h], h7, fun g hg hne => absurd (by simpa [h] using hg) hne⟩
theorem witness_EndOfLanes_handler : (handling leaving).grp.live = true ∧ (handling leaving).grp.handler = some (0, 2) ∧
    (handling leaving).replicated = false ∧ (handling leaving).grp.pending = [] ∧ keeps (handling leaving) ≠ [] ∧
    keeps (handling (Tests.full prog)) = [] ∧ ((handling (Tests.full prog)).splitAt 3).live = true ∧
    (handling (Tests.full prog)).grp.handler = some (0, 0) ∧
    (∃ f, (others (handled (handling leaving)) 5 1).waitsFirst f ∧ f.slot ≠ (handling leaving).slot ∧
      (handled (handling leaving)).handlerFor f.cls = some 0x10100) ∧ keeps (others (handled (handling leaving)) 5 1) ≠ [] := by
  refine ⟨by decide +kernel, by decide +kernel, by decide +kernel, by decide +kernel, by decide +kernel, by decide +kernel,
    by decide +kernel, by decide +kernel, ⟨_, firstOf _ _ rfl (by decide), by decide +kernel, by decide +kernel⟩, by decide +kernel⟩
/-- A replica with an open command, before its compare, and behind it. -/
def posting (s : State) : State := s.setTeam { s.team with ctxs := [(2, { queue := [{ num := 7, op := .nop 0, gid := s.gid, slot := 0 }] })] }
def compared : State := splOf repl fun x => { x with token := true, mask := 0xF, stack := [{ pc := 0x10010, mask := 0xFF, stop := 1 }] }
theorem witness_EndOfLanes_replica : repl.replicated = true ∧ (posting repl).openCommand = some (2, 7) ∧ repl.openCommand = none ∧
    repl.core.matrix = [] ∧ repl.spl.token = false ∧ repl.grp.repl.skip = false ∧ compared.replicated = true ∧
    compared.openCommand = none ∧ compared.spl.token = true ∧ compared.grp.handler = none ∧ keeps compared ≠ [] := by decide +kernel
/-- A live-mask table of one entry. -/
def masked (s : State) : State := gridOf s fun g => { g with kernel := { g.kernel with masks := [(BitVec.allOnes 128, 0xFF)] } }
theorem witness_SafePoint : (masked prog).grid.kernel.masks.length ≤ (1 : BitVec 12).toNat ∧
    (0 : BitVec 12).toNat < (masked prog).grid.kernel.masks.length ∧ (masked prog).replicated = false ∧
    (masked repl).replicated = true ∧ (0 : BitVec 12).toNat < (masked repl).grid.kernel.masks.length ∧
    (!(masked repl).handlerMode && ((masked repl).cluster.stop.isSome || (masked repl).grid.ending.snuffed)) = false := by decide +kernel
theorem witness_SoftwareTrap : (handled prog).grp.handler = none ∧ (handled prog).handlerFor 0x0E = some 0x10100 ∧
    prog.grp.handler = none ∧ prog.handlerFor 0x0E = none ∧ prog.grid.ending.failed = false ∧ prog.grid.ending.snuffed = false ∧
    (handling prog).grp.handler = some ((handling prog).slot, 0) ∧ (handling prog).grid.ending.failed = false ∧
    (handling prog).grid.ending.snuffed = false := by decide +kernel
def faultAt (slot cls : Nat) : PendingFault :=
  { slot := slot, cls := cls, detail := 0, pc := 0x10000, mask := 1, tseq := 0, adda := 0, addb := 0 }
theorem witness_FaultDelivery : (faultAt 0 5).cls ≠ 7 ∧ (handled prog).grp.handler = none ∧ (handled prog).handlerFor 5 = some 0x10100 ∧
    (handled prog).handlerFor 0x0A = some 0x10100 ∧
    (handling prog).grp.handler = some (0, 0) ∧ 0 ≠ (faultAt 1 5).slot ∧ (faultAt 0 7).cls = 7 ∧
    prog.grid.ending.failed = false ∧ prog.grid.ending.snuffed = false := by decide +kernel
theorem witness_TrapReturn : (handling prog).grp.handler = some ((handling prog).slot, (handling prog).spl.stack.length) ∧
    (handling prog).grp.pending = [] ∧ prog.grp.handler = none ∧
    (handling (stacked 1 1)).grp.handler = some (0, 1) ∧
    (splOf (handling (stacked 1 1)) fun x => { x with stack := [] }).grp.handler = some (0, 1) ∧
    1 ≠ (splOf (handling (stacked 1 1)) fun x => { x with stack := [] }).spl.stack.length := by decide +kernel
theorem witness_TrapReturn_pending : ∃ f, (others (handled (handling prog)) 5 1).waitsFirst f ∧ f.slot ≠ prog.slot ∧
    (others (handling prog) 5 1).waitsFirst f ∧ (handled (handling prog)).handlerFor f.cls = some 0x10100 ∧
    (handling prog).handlerFor f.cls = none ∧
    (others (handling prog) 5 1).grp.handler = some (prog.slot, prog.spl.stack.length) ∧
    (handling prog).grid.ending.failed = false ∧ (handling prog).grid.ending.snuffed = false := by
  refine ⟨_, firstOf _ _ rfl (by decide), by decide +kernel, firstOf _ _ rfl (by decide), by decide +kernel, by decide +kernel,
    by decide +kernel, by decide +kernel, by decide +kernel⟩
theorem witness_SpecialRegisters : prog.spl.mask ≠ 0 ∧ prog.leaderOf = prog.gid ∧ prog.grid.launch.det = false ∧
    (handling prog).handlerMode = true ∧ ((withG (handling prog) [0x10004]).rdG 1).extractLsb' 0 2 = 0 ∧
    ((withG (handling prog) [0x10004]).rdG 1).extractLsb' 56 8 = 0 ∧ ((withG (handling prog) [0x10001]).rdG 1).extractLsb' 0 2 ≠ 0 ∧
    prog.handlerMode = false ∧ 0x10 ≤ (0x10 : BitVec 6).toNat ∧ (0x12 : BitVec 6) ≠ 0x11 := by decide +kernel

/-- g1 points at a place, the lanes' offsets step by n bytes from it, and the lowest, second and highest lane are active. -/
def at_ (s : State) (place : DWord) (n : Nat) : State :=
  splOf (withV (withG s [place]) 3 fun l => BitVec.ofNat 32 (n * l)) fun x => { x with mask := 0x80000003 }
def lanesAt (s : State) : List DWord := s.activeLanes.map (s.laneAddr 1 3)
theorem witness_AddressFaults :
    -- lane 1 is the first unaligned for 8 bytes; the last page of data ends before 0x40000; past the group's scratch
    (at_ data 0x20000 4).active ≠ 0 ∧ ((at_ data 0x20000 4).laneAddr 1 3 1).toNat % 8 ≠ 0 ∧
    ((at_ data 0x20000 4).laneAddr 1 3 0).toNat % 8 = 0 ∧
    (∀ l ∈ (at_ data 0x40000 8).activeLanes, ((at_ data 0x40000 8).laneAddr 1 3 l).toNat % 8 = 0 ∧ (at_ data 0x40000 8).aperture ((at_ data 0x40000 8).laneAddr 1 3 l) ≠ .outside) ∧
    (at_ data 0x40000 8).aperture ((at_ data 0x40000 8).laneAddr 1 3 0) = .translated 0x40000 ∧
    (at_ data 0x40000 8).leased 0x40000 .read = none ∧
    (at_ data 0x00FFFFF000010000 8).aperture ((at_ data 0x00FFFFF000010000 8).laneAddr 1 3 0) = .outside ∧
    (at_ data 0x0100000000000000 8).aperture ((at_ data 0x0100000000000000 8).laneAddr 1 3 0) = .nothing := by decide +kernel
/-- A page of host memory that the die does not cache, for AtomicOps alone. -/
def hostLeaf : Leaf := { valid := true, rd := true, wr := true, pa := 2 ^ 50, sa := true }
def hosting : State := (gridOf prog fun g => { g with
  ranges := [{ base := 0x20000, len := 0x20000, rights := 3 }], trans := [(1, codeLeaf), (2, hostLeaf)] }).putTlb (tlbGroup 0)
  [{ grid := 0, page := 2, leaf := hostLeaf }]
theorem witness_AddressFaults_lease : let s := withG (at_ data 0x40000 8) [0x40000, 0]
    s.activeLanes.map (s.laneAddr 1 3) = [] ++ s.laneAddr 1 3 0 :: [s.laneAddr 1 3 1, s.laneAddr 1 3 31] ∧
    s.leased 0x40000 .both = none ∧ s.aperture (s.groupAddr 1 2) = .translated 0x40000 ∧ s.leased 0x40000 .write = none ∧
    (let t := at_ hosting 0x20000 8
     t.target (t.laneAddr 1 3 0) .both = .ok (.memory hostLeaf 0x20000 (2 ^ 50)) ∧ t.uncached (2 ^ 50) = true ∧ hostLeaf.sa = true) := by
  decide +kernel
theorem witness_Loads : dark.active = 0 ∧
    (at_ data 0x2FF80 4).active ≠ 0 ∧ (at_ data 0x2FF80 4).accessClear 4 .read anyTarget false false (lanesAt (at_ data 0x2FF80 4)) ∧
    (at_ data 0x00FFFFF000000000 16).active ≠ 0 ∧
    (at_ data 0x00FFFFF000000000 16).accessClear 16 .read anyTarget false false (lanesAt (at_ data 0x00FFFFF000000000 16)) ∧
    (withG data [0x20000, 0xFFF8]).accessClear 8 .read anyTarget false false [(withG data [0x20000, 0xFFF8]).groupAddr 1 2] := by
  unfold State.accessClear
  and_intros <;> decide +kernel
/-- What `State.loads` speaks of: scratch, a line at rest that the L1 does not have, an access past the L1. -/
def farLoads : State := at_ data 0x2FF80 4
def scratchLoads : State := at_ data 0x00FFFFF000000000 16
theorem witness_Loads_values :
    (lanesAt farLoads).all (fun a => farLoads.viaL1 (farLoads.placeOf .read a) &&
      (List.range 4).all fun j => ((farLoads.placeOf .read a).phys + j) / 128 == 0x10FF80 / 128) = true ∧
    farLoads.atRest (0x10FF80 / 128) = true ∧ farLoads.quiet (0x10FF80 / 128) = true ∧
    AMap.has farLoads.core.l1 (0x10FF80 / 128) = false ∧ farLoads.core.held < l1Lines ∧ farLoads.setFull (0x10FF80 / 128) = false ∧
    farLoads.core.roomFor (farLoads.lineKeep 4 (farLoads.places .read (lanesAt farLoads))) = true ∧
    (at_ data 0x2FF80 4).throughL1 0x10FF80 = true ∧ (at_ det 0x2FF80 4).throughL1 0x10FF80 = false ∧
    (lanesAt scratchLoads).all (fun a => (scratchLoads.placeOf .read a).isScratch) = true := by decide +kernel
/-- A plain place, and the whole of what a statement asks of one that is at rest or quiet. -/
def plainLeaf : Leaf := { valid := true, rd := true, wr := true, pa := 0x100000 }
theorem settled_plain {s : State} {k : Need} {a : DWord} {n va pa : Nat} {still : Nat → Bool}
    (h : s.placeOf k a = .memory plainLeaf va pa)
    (h' : still (pa / 128) = true ∧ ∀ j, j < n → (pa + j) / 128 = pa / 128 ∧ s.ownByte (pa + j) = none) :
    s.settledAt n (s.placeOf k a) still := by
  rw [h]
  exact ⟨rfl, h'⟩
theorem witness_HomeReads : dark.active = 0 ∧
    (let s := at_ data 0x20000 8; s.active ≠ 0 ∧ s.replicated = false ∧ s.accessClear 8 .read anyTarget true true (lanesAt s) ∧
      s.accessClear 8 .read anyTarget false false (lanesAt s)) ∧
    (let s := at_ data 0x00FFFFF000000000 8; s.accessClear 8 .read anyTarget true true (lanesAt s) ∧
      (s.placeOf .read (s.laneAddr 1 3 31)).isScratch = true) := by
  unfold State.accessClear
  and_intros <;> decide +kernel
theorem witness_HomeReads_place : let s := at_ data 0x20000 8
    s.settledAt 8 (s.placeOf .read (s.laneAddr 1 3 31)) s.quiet :=
  settled_plain (va := 0x200F8) (pa := 0x1000F8) (by decide +kernel) (by decide +kernel)
def storing : State := at_ data 0x20000 4
def buffering : State := at_ det 0x20000 8
def places (s : State) : List Target := s.activeLanes.map fun x => s.placeOf .write (s.laneAddr 1 3 x)
theorem witness_Stores : dark.active = 0 ∧ storing.activeLanes ≠ [] ∧ storing.spl.rel = none ∧
    storing.accessClear 4 .write anyTarget false false (lanesAt storing) ∧ storing.replicated = false ∧
    storing.core.roomFor (placeLines (storing.places .write (lanesAt storing))) = true ∧
    (places storing).all (fun e => storing.viaL1 e && (e.phys / 128 == 0x2000) && match e with
      | .memory _ x _ => x / 128 == 0x400
      | .scratch _ _ => false) = true ∧
    (∀ c ∈ storing.cores, AMap.has c.2.l1 0x2000 = true → (AMap.get {} c.2.l1 0x2000).virt = (storing.grid.asid, 0x400)) ∧
    AMap.has storing.core.l1 0x2000 = false ∧ storing.core.held < l1Lines ∧ Memory.wf storing.mem.scratch = true := by
  unfold State.accessClear
  and_intros <;> decide +kernel
theorem witness_Stores_buffered : buffering.accessClear 8 .write anyTarget false false (lanesAt buffering) ∧
    buffering.replicated = false ∧
    (places buffering).all (fun e => !e.isScratch && buffering.served (e.phys / 128) == .buffered) = true := by
  unfold State.accessClear
  and_intros <;> decide +kernel
def releasing : State := splOf (at_ data 0x20000 8) fun x => { x with rel := some 2 }
def releasePlaces : List (DWord × Target) := releasing.places .write (lanesAt releasing)
theorem witness_HomeStores : releasing.replicated = false ∧ releasing.deterministic = false ∧ releasing.active ≠ 0 ∧
    releasing.spl.rel = some 2 ∧
    releasing.accessClear 8 .write anyTarget true true (lanesAt releasing) ∧
    releasing.accessClear 8 .write anyTarget true false (lanesAt releasing) ∧ releasing.releaseClear true releasePlaces ∧
    releasing.core.roomFor [] = true ∧ releasing.flushed = true ∧
    Memory.wf releasing.mem.scratch = true ∧ Memory.wf releasing.mem.bytes = true ∧ releasing.atRest 0x2000 = true := by
  unfold State.accessClear State.releaseClear
  and_intros <;> decide +kernel
theorem witness_HomeStores_places : releasing.writesOnly releasing.spl.rel releasePlaces ∧
    releasing.settledAt 8 (releasing.placeOf .write (releasing.laneAddr 1 3 31)) :=
  ⟨.inl (by decide +kernel), settled_plain (va := 0x200F8) (pa := 0x1000F8) (by decide +kernel) (by decide +kernel)⟩
def atomic : State := at_ data 0x2FF00 8
theorem witness_Atomics : dark.active = 0 ∧ dark.replicated = false ∧
    atomic.active ≠ 0 ∧ atomic.replicated = false ∧ atomic.deterministic = false ∧ (∀ e ∈ atomic.grp.inflight, e.tseq ≠ atomic.tseq) ∧
    (∀ e ∈ atomic.activeLanes, atomic.byAtomicOp (atomic.placeOf .both (atomic.laneAddr 1 3 e)) = false) ∧
    atomic.accessClear 8 .both (atomic.atomicAllowed 15) true true (lanesAt atomic) ∧ Memory.wf atomic.mem.bytes = true ∧
    atomic.releaseClear (atomic.releaseScope (ordRelease 2)).isSome (atomic.places .both (lanesAt atomic)) ∧
    (∀ e ∈ atomic.activeLanes, atomic.releasedBy 8 (atomic.placeOf .both (atomic.laneAddr 1 3 e)) = none) ∧
    (let s := at_ data 0x00FFFFF000000000 4
     s.accessClear 4 .both (s.atomicAllowed 0) true true (lanesAt s) ∧
       (s.activeLanes.map fun x => s.placeOf .both (s.laneAddr 1 3 x)).all (fun e => e.isScratch) = true) := by
  unfold State.accessClear State.releaseClear
  and_intros <;> decide +kernel
theorem witness_Atomics_places :
    atomic.writesOnly (atomic.releaseScope (ordRelease 2)) (atomic.places .both (lanesAt atomic)) ∧
    atomic.settledAt 8 (atomic.placeOf .both (atomic.laneAddr 1 3 31)) :=
  ⟨.inl (by decide +kernel), settled_plain (va := 0x2FFF8) (pa := 0x10FFF8) (by decide +kernel) (by decide +kernel)⟩
/-- n bytes of a number at a physical address. -/
def put (s : State) (pa n x : Nat) : State :=
  { s with mem := { s.mem with bytes := (List.range n).foldl (fun m k => Store.set m (pa + k) (BitVec.ofNat 8 (x >>> (8 * k)))) s.mem.bytes } }
/-- Two tiles of the tiled page, of type i8 with identity shades. -/
def plainHeader : Header := (Header.ofBits (5 <<< 130)).toIdentity
def tiles : State := put (put data 0x300000 32 plainHeader.bits) 0x300020 32 plainHeader.bits
def tileLeaf : Leaf := { valid := true, rd := true, wr := true, pa := 0x200000, tiled := true, tcls := 10, hframe := 0x300000 }
def tileA : TileRef := { header := 0x300000, base := 0x200000, cls := 10, va := 0x30000 }
def tileB : TileRef := { header := 0x300020, base := 0x208000, cls := 10, va := 0x38000 }
theorem witness_shdr : let s := withG tiles [0x30040]
    s.target 0x30040 .read = .ok (.memory tileLeaf 0x30040 0x200040) ∧ tileLeaf.tile 0x30040 = some tileA ∧
    inScratchAperture 0x30040 = false ∧ s.atomicsOpen s.gid false = false ∧ (s.header 0x300000).lock = false ∧ s.poisoned (0x300000 / 128) = false ∧
    ((put s 0x300010 1 0x94).header 0x300000).lock = true := by decide +kernel
/-- Rows of block A are 8 bytes apart, those of block B 16. -/
def pairing : State := withG tiles [0x30000, 0x38000, 0x00100008]
theorem witness_pst_dark : dark.active = 0 := by decide +kernel
theorem pairing_clear : pairing.pairs 0 1 2 0x200000 0x208000 tileA tileB where
  active := by decide +kernel
  plain := by decide +kernel
  control := by decide +kernel
  aligned := by decide +kernel
  outside := by decide +kernel
  first := ⟨tileLeaf, 0x30000, by decide +kernel⟩
  second := ⟨tileLeaf, 0x38000, by decide +kernel⟩
  tiles := by decide +kernel
  clear := by decide +kernel
theorem witness_pst_bytes : pairing.flushed = true ∧ Memory.wf pairing.mem.bytes = true ∧ (pairing.header 0x300000).identity = true ∧
    (pairing.header 0x300020).identity = true ∧ pairing.atRest (0x300000 / 128) = true ∧ pairing.atRest (0x207FFF / 128) = true ∧
    pairing.atRest (0x20FFFF / 128) = true ∧ (0x300020 + 31) / 128 ≥ (0x208000 + 2 ^ 15 - 1) / 128 := by decide +kernel

/-- Two replicas, on dies 0 and 2; the second follows. -/
def replicas : State :=
  let s := (launchOf data fun l => { l with replicas := 1 }).setClusterAt 1 { live := true, grid := 0, replica := 1, die := 2, origin := 144 }
  let s := translated (s.setTeamAt 12 { live := true, groups := 1, bytes := 65536, core := 144 }) 144
  { s with groups := AMap.set s.groups 384 (newGroup 144 0x10000 0xFFFFFFFF [] []) }
def follower : State := replicas.at_ 384 0
def forwarded : State := follower.setGrp { follower.grp with repl := { follower.grp.repl with forwarded := [(0, 7)] } }
theorem witness_FencesAndScopes_fence : prog.deterministic = false ∧ follower.follows = true ∧ det.myTurn = true ∧
    prog.atomicsOpen prog.gid true = false ∧ prog.grp.heard = false ∧ det.grp.heard = false ∧
    (∀ w ∈ prog.core.wickRec, prog.demandWaits w.2 = false) ∧
    prog.grp.heardOf = [] ∧ prog.replicated = false ∧ repl.replicated = true ∧ (splOf repl fun x => { x with token := true }).spl.token = true ∧
    prog.team.wbuf = [] ∧ (3 : BitVec 2) = 3 ∧ 2 ≤ (2 : BitVec 3).toNat ∧ prog.follows = false ∧ prog.core.l1.Pairwise (fun x y => x.1 < y.1) := by
  decide +kernel
def acquiring : State := withG data [0x20000, 0xFFF8]
def acquiredAt : Nat := 0x10FFF8
theorem witness_FencesAndScopes_lda : acquiring.accessClear 8 .read anyTarget true true [acquiring.groupAddr 1 2] ∧
    acquiring.heldAcquire 8 (acquiring.placeOf .read (acquiring.groupAddr 1 2)) = false ∧
    acquiring.releasedBy 8 (acquiring.placeOf .read (acquiring.groupAddr 1 2)) = none ∧ acquiring.replicated = false ∧
    (∀ w ∈ acquiring.wicksOf (placeLines (acquiring.places .read [acquiring.groupAddr 1 2])), acquiring.demandWaits w = false) ∧
    (acquiring.wick (acquiredAt / 128)).v = false ∧ forwarded.grp.repl.forwarded = [(forwarded.grp.place_, 7)] ∧ follower.grp.repl.forwarded = [] ∧
    follower.leaderPassed = false := by
  unfold State.accessClear
  and_intros <;> decide +kernel
theorem witness_FencesAndScopes_place : acquiring.settledAt 8 (acquiring.placeOf .read (acquiring.groupAddr 1 2)) acquiring.quiet :=
  settled_plain (va := 0x2FFF8) (pa := acquiredAt) (by decide +kernel) (by decide +kernel)
theorem witness_FencesAndScopes_follows : let s := withG follower [0x20000, 0xFFF8]
    s.accessClear 8 .read anyTarget true true [s.groupAddr 1 2] := by
  unfold State.accessClear
  and_intros <;> decide +kernel
theorem witness_FencesAndScopes_stl : acquiring.replicated = false ∧ acquiring.deterministic = false ∧
    acquiring.accessClear 8 .write anyTarget true true [acquiring.groupAddr 1 2] ∧
    acquiring.accessClear 8 .write anyTarget true false [acquiring.groupAddr 1 2] ∧ acquiring.spl.rel = none ∧
    acquiring.releaseClear true (acquiring.places .write [acquiring.groupAddr 1 2]) ∧ acquiring.flushed = true ∧
    acquiring.core.roomFor [] = true ∧ acquiring.core.roomFor (placeLines (acquiring.places .write [acquiring.groupAddr 1 2])) = true ∧
    Memory.wf acquiring.mem.scratch = true ∧ Memory.wf acquiring.mem.bytes = true ∧
    acquiring.viaL1 (acquiring.placeOf .write (acquiring.groupAddr 1 2)) = true := by
  unfold State.accessClear State.releaseClear
  and_intros <;> decide +kernel
/-- The operand of `acqr`: core 71 of die 3; core 72, and a bit above the die. -/
theorem witness_FencesAndScopes_acqr : (0x1C7 : DWord).extractLsb' 9 55 = 0 ∧ ((0x1C7 : DWord).extractLsb' 0 7).toNat < 72 ∧
    prog.inService ((0x1C7 : DWord).extractLsb' 7 2).toNat = true ∧ ¬((0x1C8 : DWord).extractLsb' 0 7).toNat < 72 ∧
    (0x200 : DWord).extractLsb' 9 55 ≠ 0 ∧ prog.deterministic = false ∧ prog.replicated = false := by decide +kernel

/-- With a second group in the team, with a team barrier. -/
def twoGroups : State :=
  { prog.setTeam { prog.team with groups := 2 } with groups := AMap.set prog.groups 1 (newGroup 0 0x10000 0xFFFFFFFF [] []) }
def withBarrier (s : State) (b : Barrier) : State := s.setBarrier 1 0 b
theorem witness_BarrierArrivals_refused : prog.grid.launch.coresident = false ∧ (handling prog).handlerMode = true ∧
    (let b := (withBarrier prog { count := true, expected := 0x100 }).barrier 1 0
     b.count = true ∧ counter b.expected 0 = 0 ∧ ∀ x, b.pending = some x → x.getLsbD 63 = false ∧ counter x 0 = 0) := by
  refine ⟨by decide +kernel, by decide +kernel, by decide +kernel, by decide +kernel, ?_⟩
  intro x h
  have : ((withBarrier prog { count := true, expected := 0x100 }).barrier 1 0).pending = none := by decide +kernel
  rw [this] at h
  cases h
theorem witness_BarrierArrivals_counts : prog.deterministic = false ∧ prog.replicated = false ∧ prog.members 1 = [0] ∧ prog.atomicsOpen prog.gid true = false ∧
    (prog.barrier 1 0).count = false ∧ 0 ∉ (prog.barrier 1 0).arrived ∧ 0 ∉ (prog.barrier 1 0).joining ∧
    -- it ends the phase of one group, not that of two; the fifth arrival of five of a count barrier ends it
    (∀ x ∈ prog.members 1, x ∉ (prog.barrier 1 0).joining → x ∈ (prog.barrier 1 0).arrived ∨ x = 0) ∧
    (prog.barrier 1 0).next = [] ∧ (prog.barrier 1 0).pending = none ∧
    twoGroups.members 1 = [0, 1] ∧ ¬(∀ x ∈ twoGroups.members 1, x ∉ (twoGroups.barrier 1 0).joining → x ∈ (twoGroups.barrier 1 0).arrived ∨ x = 0) ∧
    (let b := (withBarrier prog { count := true, expected := 5, counted := 4 }).barrier 1 0
     counter b.counted 0 < counter b.expected 0 ∧ ∀ j, j < 5 → counter b.expected j ≤ counter b.counted j + (if j = 0 then 1 else 0)) := by
  and_intros <;> decide +kernel
theorem witness_BarrierArrivals_held : 0 ∈ ((withBarrier twoGroups { arrived := [0] }).barrier 1 0).arrived ∧
    ((withBarrier twoGroups { arrived := [0] }).barrier 1 0).complete ((withBarrier twoGroups { arrived := [0] }).members 1) = false := by
  decide +kernel
/-- Waiting for phase 0 of the team barrier, before and after it has ended, for its own target or for the phase. -/
def atBarrier (phase : Word) (own : Bool) : State :=
  splOf (withBarrier prog { phase := phase, targets := [(0, 0)] }) fun x => { x with wait := some (.barrier 1 0 0 own) }
theorem witness_BarrierWaits_waiting : (atBarrier 1 true).spl.wait = some (.barrier 1 0 0 true) ∧ (atBarrier 1 true).replicated = false ∧
    AMap.has ((atBarrier 1 true).barrier 1 0).targets 0 = true ∧ (atBarrier 1 true).heldPhase 1 0 0 = false ∧
    (atBarrier 1 false).spl.wait = some (.barrier 1 0 0 false) ∧ (atBarrier 1 false).heldPhase 1 0 0 = false ∧
    (((atBarrier 1 true).barrier 1 0).phase - 0 - 1).toNat < 2 ^ 31 ∧ (((atBarrier 0x80000000 true).barrier 1 0).phase - 0 - 1).toNat < 2 ^ 31 ∧
    2 ^ 31 ≤ (((atBarrier 0 true).barrier 1 0).phase - 0 - 1).toNat := by decide +kernel
/-- A cluster barrier's phase 0 has ended; another team has arrived for it in this period of a deterministic grid. -/
def atCluster : State := gridOf (splOf (det.setBarrier 2 0 { phase := 1 }) fun x => { x with wait := some (.barrier 2 0 0 false) })
  fun g => { g with det := { g.det with arrived := [{ level := 2, place := (det.arrivalPlace 2), num := 0, phase := 0, team := 5 }] } }
theorem witness_BarrierWaits_held : atCluster.spl.wait = some (.barrier 2 0 0 false) ∧ atCluster.heldPhase 2 0 0 = true ∧
    atCluster.replicated = false ∧ ((atCluster.barrier 2 0).phase - 0 - 1).toNat < 2 ^ 31 := by decide +kernel
theorem witness_BarrierWaits_fresh : prog.spl.wait = none ∧ prog.deterministic = false ∧ prog.replicated = false ∧
    -- nothing to wait for; a target; an arrival alone, and of two
    AMap.has (prog.barrier 1 0).targets 0 = false ∧ (prog.barrier 1 0).count = false ∧
    AMap.has ((withBarrier prog { phase := 1, targets := [(0, 0)] }).barrier 1 0).targets 0 = true ∧
    (∀ x ∈ prog.members 1, x ∉ (prog.barrier 1 0).joining → x ∈ (prog.barrier 1 0).arrived ∨ x = 0) ∧
    (∃ x ∈ twoGroups.members 1, x ∉ (twoGroups.barrier 1 0).joining ∧ x ∉ (twoGroups.barrier 1 0).arrived ∧ x ≠ 0) := by
  decide +kernel
/-- Settings: 32 arrivals of role 0, back to membership, none at all, 33. -/
abbrev lawfulSetting (x : DWord) : Prop := x.extractLsb' 48 15 = 0 ∧ (∀ k, k < 4 → counter x k ≤ 32) ∧
  (if x.getLsbD 63 then x.extractLsb' 0 48 = 0 else x.extractLsb' 0 48 ≠ 0)
theorem witness_BarrierWaits_settings : lawfulSetting 32 ∧ lawfulSetting 0x8000000000000000 ∧ lawfulSetting 0xFFFF00000000 ∧
    ¬lawfulSetting 0 ∧ ¬lawfulSetting 33 ∧ ¬lawfulSetting 0x8000000000000001 := by decide +kernel

theorem witness_TileMarks : let s := withG tiles [0x30000]
    (0x0100000000030000 : DWord) &&& 0x7F00000000000000 ≠ 0 ∧ (0x8000000000030000 : DWord) &&& 0x7F00000000000000 = 0 ∧
    (0x8000000000030000 : DWord) &&& 0xFF00000000000000 ≠ 0 ∧ inScratchAperture 0x00FFFFF000000000 = true ∧
    tileLeaf.tile 0x30000 = some tileA ∧ (s.header 0x300000).kind ≠ 3 ∧ s.poisoned (0x300000 / 128) = false ∧
    s.deterministic = false ∧ s.replicated = false ∧ s.atomicsOpen s.gid true = false ∧ s.target 0x30000 .write = .ok (.memory tileLeaf 0x30000 0x200000) ∧
    s.target 0x30000 .read = .ok (.memory tileLeaf 0x30000 0x200000) ∧ (s.header 0x300000).lock = false ∧
    s.releasedBy 32 (markPlace tileA) = none ∧ (s.header 0x300000).ready = false ∧ ((put s 0x300010 1 0x54).header 0x300000).ready = true ∧
    ((put s 0x300010 1 0x94).header 0x300000).lock = true ∧
    (∀ l ∈ s.core.tileLines tileA, s.foreign s.coreId l = false) ∧ Memory.wf s.mem.bytes = true ∧ s.atRest (0x300000 / 128) = true := by
  decide +kernel
/-- Two replicas of a deterministic grid: the leader's group, and the follower's. -/
def both : State := launchOf replicas fun l => { l with det := true }
def bothFollower : State := both.at_ 384 0
theorem witness_ClocksAndTokens_both : both.deterministic = true ∧ both.replicated = true ∧ both.follows = false ∧ both.hasTurn = true ∧
    bothFollower.deterministic = true ∧ bothFollower.replicated = true ∧ bothFollower.follows = true ∧
    bothFollower.leaderPassed = false ∧ bothFollower.grp.repl.forwarded = [] ∧
    (bothFollower.setGrp { bothFollower.grp with repl := { bothFollower.grp.repl with forwarded := [(0, 7)] } }).grp.repl.forwarded =
      [(bothFollower.grp.place_, 7)] ∧
    ({ both with groups := AMap.set both.groups 0 { both.grp with ctx := { both.grp.ctx with regs := { both.regs with clock := 1 } } } }.at_ 384 0).leaderPassed = true := by
  decide +kernel
theorem witness_ClocksAndTokens : (0x100000000 : DWord).extractLsb' 32 32 ≠ 0 ∧ (0xFFFFFFFF : DWord).extractLsb' 32 32 = 0 ∧
    (0xFFFFFFFF : DWord).extractLsb' 0 32 ≠ 0 ∧ prog.deterministic = false ∧ prog.replicated = false ∧ det.deterministic = true ∧
    det.spl.wait = none ∧ det.follows = false ∧ det.hasTurn = true ∧ det.myTurn = true ∧ (splOf det fun x => { x with wait := some (.period 1) }).spl.wait = some (.period 1) ∧
    ((gridOf det fun g => { g with det := { g.det with period := 1 } }).grid.det.period - 1).toNat < 2 ^ 31 ∧
    repl.replicated = true ∧ repl.spl.token = false ∧ repl.grp.repl.skip = false ∧
    (splOf repl fun x => { x with token := true }).spl.token = true := by decide +kernel

/-- Control words that the engine commands accept: 64 bytes in units of 4, with a notification; a collective of f32 sums; three
destinations; a bf16 maximum of 6 bytes; and one that no command accepts. -/
abbrev spare (x : DWord) (op reg dcnt wlog len : Bool) : Prop :=
  (op = false → ctlOp x = 0) ∧ (reg = false → ctlReg x = false) ∧ (dcnt = false → ctlDcnt x = 0) ∧ (wlog = false → ctlWlog x = 0) ∧
    (len = false → ctlLen x = 0) ∧ ctlWlog x ≤ 4 ∧ (op = true → ctlOp x ≤ 4)
theorem witness_EngineCommands_control :
    spare 0x000A000000000040 false false false true true ∧ ctlLen 0x000A000000000040 % 2 ^ ctlWlog 0x000A000000000040 = 0 ∧
    spare 0x0058000000000000 false false false false false ∧ spare 0x0202000000000040 false false true true true ∧
    spare 0x0202000000000040 true false true true true ∧ ctlOp 0x0202000000000040 = 0 ∧ ctlWlog 0x0202000000000040 = 2 :=
  by and_intros <;> decide +kernel
theorem witness_EngineCommands_reductions :
    spare 0x1001000000000006 true false false true true ∧ ctlOp 0x1001000000000006 = 1 ∧ ctlWlog 0x1001000000000006 = 1 ∧
    ctlLen 0x1001000000000006 % 2 = 0 ∧ spare 0x0800000000000010 false true false false true ∧ ctlReg 0x0800000000000010 = true := by
  decide +kernel
theorem witness_EngineCommands_refused :
    ¬spare 0x0005000000000000 true true true true true ∧ ¬spare 0x5000000000000000 true true true true true ∧
    ¬spare 0x1000000000000000 false true true true true := by decide +kernel
theorem witness_EngineCommands : (62 : BitVec 6).toNat + (3 + 0) > 64 ∧ (61 : BitVec 6).toNat + (3 + 0) ≤ 64 ∧ prog.replicated = false ∧
    prog.mayGo ∧ (det.mayGo) ∧ (0 : BitVec 7).toNat + 1 < prog.grid.kernel.regs ∧ ¬(127 : BitVec 7).toNat + 1 < prog.grid.kernel.regs := by
  unfold State.mayGo
  and_intros <;> decide +kernel
/-- A replica that holds only what its engines have written: the edit of shade command 1 of context 1. -/
def editing : State := repl.setRepl { repl.grp.repl with writes := [{ parts := [], engine := true, num := 1, shade := some (.smat 0 0 0, []) }] }
theorem witness_EngineCommands_edit : editing.replicated = true ∧ ∀ w ∈ editing.grp.repl.writes, w.engine = true := by decide +kernel
/-- Operand tests: an unaligned place, one past the team's scratch, memory where scratch must lie, and one that passes. -/
theorem witness_EngineCommands_tests : ¬(0x20001 : DWord).toNat % 2 = 0 ∧ prog.aperture 0x00FFFFF000010000 = .outside ∧
    prog.aperture 0x20000 = .translated 0x20000 ∧ (match prog.aperture 0x00FFFFF00000FF80 with
      | .scratch _ _ => true
      | _ => false) = true := by decide +kernel
/-- Shade operands: GMODE-free control words, words of finite and infinite numbers, an ordered clip, a permutation of nibbles. -/
theorem witness_EngineCommands_shades :
    (0x1B01000000 : DWord).extractLsb' 37 27 = 0 ∧ (0x1B01000000 : DWord).getLsbD 36 = true ∧
    ((0x1B01000000 : DWord).extractLsb' 32 4).toNat ≤ 11 ∧ ((0x1B01000000 : DWord).extractLsb' 0 32).toNat ≤ 2 ^ 24 ∧
    ((0x1C00000000 : DWord).extractLsb' 32 4).toNat > 11 ∧ (0x7F7FFFFF : DWord).extractLsb' 32 32 = 0 ∧
    ((0x7F7FFFFF : DWord).extractLsb' 0 32).extractLsb' 23 8 ≠ 255 ∧ ((0x7F800000 : DWord).extractLsb' 0 32).extractLsb' 23 8 = 255 ∧
    Fmt.f32.value 0x3F800000 ≠ .nan ∧ Fl.lt (Fmt.f32.value 0x40000000) (Fmt.f32.value 0x3F800000) = false ∧
    Fl.lt (Fmt.f32.value 0x3F800000) (Fmt.f32.value 0x40000000) = true ∧ Fmt.f32.value 0x7FC00000 = .nan ∧
    (0x00DCBA9876543210 : DWord).extractLsb' 56 8 = 0 ∧
    (∀ k, k < 14 → ((0x00DCBA9876543210 : DWord).extractLsb' (4 * k) 4).toNat < 14) ∧
    (0x3FFF : DWord).extractLsb' 14 50 = 0 ∧ (0x4000 : DWord).extractLsb' 14 50 ≠ 0 := by decide +kernel

/-- Context 0 has performed commands 1 and 2 of 3. -/
def timed : State := withG (prog.setCtx 0 { counter := 2, issued := 3 }) [3, 4, 2, 0, 0xFFFF, 0x10000]
theorem witness_TimelinesAndPriority : (timed.ctx 0).issued.toNat < (timed.rdG 2).toNat ∧ (timed.rdG 1).toNat ≤ (timed.ctx 0).issued.toNat ∧
    (timed.ctx 0).counter.toNat < (timed.rdG 1).toNat ∧ timed.rdG 3 ≠ 0 ∧ (timed.rdG 3).toNat ≤ (timed.ctx 0).counter.toNat ∧
    timed.mayGo ∧ timed.holdsEdit 0 (timed.rdG 3).toNat = false ∧ timed.rdG 4 = 0 ∧ timed.deterministic = false ∧ (timed.rdG 5).extractLsb' 16 48 = 0 ∧ (timed.rdG 6).extractLsb' 16 48 ≠ 0 := by
  unfold State.mayGo
  decide +kernel
def waitingEdit : State := withG (editing.setCtx 1 { counter := 2, issued := 3 }) [2]
theorem witness_TimelinesAndPriority_edit : waitingEdit.rdG 1 ≠ 0 ∧ (waitingEdit.rdG 1).toNat ≤ (waitingEdit.ctx 1).counter.toNat ∧
    (waitingEdit.rdG 1).toNat ≤ (waitingEdit.ctx 1).issued.toNat ∧ waitingEdit.holdsEdit 1 (waitingEdit.rdG 1).toNat = true ∧
    waitingEdit.mayGo := by
  unfold State.mayGo
  decide +kernel

/-- Format words in v4: the low nibbles name the types of A and B. -/
def formats (f : Nat → Word) : State := withV prog 4 f
theorem witness_MatrixIssue_mma : dark.active = 0 ∧ (formats fun _ => 0x11).active ≠ 0 ∧
    (formatLegal 0x11 && (formats fun _ => 0x11).formatOffered 0x11 && blocksLegal 0x11 8 120 128 &&
      (formats fun _ => 0x11).bookLegal 0x11) = true ∧
    (lanes.map fun l => (formats fun _ => 0x11).rdV 4 l) = List.replicate 32 0x11 ∧
    -- a pairing that is none; blocks past the registers; a codebook that nobody has loaded; two words in one split
    formatLegal 0x01 = false ∧ blocksLegal 0x11 8 124 126 = false ∧ prog.bookLegal 0x1073 = false ∧
    formatLegal 0x12 = true ∧ (formats fun l => if l = 31 then 0x12 else 0x11).rdV 4 31 ≠ (formats fun l => if l = 31 then 0x12 else 0x11).rdV 4 0 := by
  decide +kernel
/-- Scale 1 and clip 6 of a drain; bits above the words; a clip below zero, and one that is no number. -/
abbrev lawfulDrain (x y : DWord) : Prop :=
  x.extractLsb' 32 32 = 0 ∧ y.extractLsb' 32 32 = 0 ∧ y.getLsbD 31 = false ∧ Fmt.f32.value (y.extractLsb' 0 32).toNat ≠ .nan
theorem witness_MatrixIssue_drains : lawfulDrain 0x3F800000 0x40C00000 ∧ lawfulDrain 0xFFFFFFFF 0x7F800000 ∧
    ¬lawfulDrain 0x100000000 0 ∧ ¬lawfulDrain 0 0x80000000 ∧ ¬lawfulDrain 0 0x7FC00000 ∧
    -- a strip of two rows' length of f32, its control word
    ctlOp 0x0000000000000040 = 0 ∧ ctlReg 0x40 = false ∧ ctlDcnt 0x40 = 0 ∧ ctlWlog 0x40 = 0 ∧ 8 * tyBytes 0 ≤ ctlLen 0x40 ∧
    ctlLen 0x40 % (8 * tyBytes 0) = 0 ∧ (0x00FFFFF000000020 : DWord).toNat % (8 * tyBytes 0) = 0 ∧
    prog.aperture 0x00FFFFF000000020 ≠ .outside ∧
    -- the target of mdrp: cluster 0 and team 0, and a cluster that the grid does not have
    (0 : DWord).extractLsb' 46 18 = 0 ∧ ((0 : DWord).extractLsb' 0 32).toNat < prog.grid.launch.clusters ∧
    ((0 : DWord).extractLsb' 32 4).toNat < prog.grid.launch.width * prog.grid.launch.height ∧
    ¬((1 : DWord).extractLsb' 0 32).toNat < prog.grid.launch.clusters ∧ prog.deterministic = false := by
  decide +kernel
def booking : State := withG data [0x20000]
theorem witness_MatrixIssue_room : booking.core.roomFor (booking.lineKeep 128 (booking.places .read
    ((List.range 8).map fun k => booking.groupAddr 1 2 + BitVec.ofNat 64 (128 * k)))) = true := by decide +kernel
theorem witness_MatrixIssue_mcbk : booking.accessClear 128 .read anyTarget false false
    ((List.range 8).map fun k => booking.groupAddr 1 2 + BitVec.ofNat 64 (128 * k)) := by
  unfold State.accessClear
  and_intros <;> decide +kernel
/-- A command at the head of core 0's queue. -/
def queued (x : MatrixCmd) : State := prog.setCoreAt 0 { prog.coreAt 0 with matrix := [x] }
def cmdOf (i : Instr) : MatrixCmd := { op := i, gid := 0, slot := 0, mask := 0xFFFFFFFF, gmode := 0 }
theorem witness_MatrixAccept : ((queued (cmdOf (.mma 0 1 4 8 16))).coreAt 0).matrix = [cmdOf (.mma 0 1 4 8 16)] ∧
    (AMap.get {} (queued (cmdOf (.mma 0 1 4 8 16))).groups 0).place.core = 0 ∧
    (cmdOf (.mscale 0 1 4)).op = .mscale 0 1 4 ∧ (cmdOf (.mzero 0 7)).op = .mzero 0 7 ∧ (cmdOf (.mzeroOpen 0 7)).op = .mzeroOpen 0 7 ∧
    (cmdOf (.mdrain 0 120 0 7 62)).op = .mdrain 0 120 0 7 62 ∧ (cmdOf (.mcbk 0 3 1 2)).op = .mcbk 0 3 1 2 := by decide +kernel

/-- Spawns from one lane and from three; a bin of the team with n threads; bins of another team. -/
def binOf (s : State) (k n team : Nat) : State :=
  s.setBin 0 k { team := team, entry := 0x10040, threads := List.replicate n 0, timer := 9 }
def triple : State := splOf prog fun x => { x with mask := 0x80000003 }
/-- As many groups as a core takes, those of another team. -/
def crowd : State := let s := binOf triple 7 29 0
  { s with groups := (List.range 31).foldl (fun m k => AMap.set m (32 * 1 + k) (newGroup 0 0x10000 1 [] [])) s.groups }
theorem witness_SpawnAndLaunch_spawn : dark.active = 0 ∧ single.active ≠ 0 ∧ single.activeLanes = [0] ∧ single.mayGo ∧ single.atomicsOpen single.gid true = false ∧
    single.replicated = false ∧ (splOf repl fun x => { x with token := true }).spl.token = true ∧
    (single.grid.kernel.entry ≤ (0x10040 : Addr).toNat ∧ (0x1FFFC : Addr).toNat < single.grid.kernel.limit) ∧
    ¬(single.grid.kernel.entry ≤ (0xFFFC : Addr).toNat) ∧ ¬((0x20000 : Addr).toNat < single.grid.kernel.limit) ∧
    single.spl.pc + (16 : BitVec 15).signExtend 56 * 4 = 0x10040 ∧
    (((binOf single 7 30 0).bin 0 7).threads ≠ [] ∧ ((binOf single 7 30 0).bin 0 7).team = single.teamId ∧
      ((binOf single 7 30 0).bin 0 7).entry = 0x10040 ∧ ((binOf single 7 30 0).bin 0 7).threads.length < 31) ∧
    (∀ m, m < 7 → ((binOf single 7 30 0).bin 0 m).threads = []) ∧ ((binOf single 0 3 5).bin 0 0).team ≠ single.teamId ∧
    (∀ j, j < 8 → (single.bin 0 j).threads = []) := by
  unfold State.mayGo
  and_intros <;> decide +kernel
/-- Three lanes fill a bin of 29, whose group can start, and cannot; and they open a bin, behind one of another team. -/
theorem witness_SpawnAndLaunch_full : triple.activeLanes.length = 3 ∧ ((binOf triple 7 29 0).bin 0 7).threads.length + 3 = 32 ∧
    (binOf triple 7 29 0).canStart 0 { (binOf triple 7 29 0).bin 0 7 with threads := List.replicate 32 0 } = true ∧
    (binOf triple 7 29 0).grp.live = true ∧ crowd.canStart 0 { crowd.bin 0 7 with threads := List.replicate 32 0 } = false ∧
    crowd.grp.live = true ∧ (crowd.bin 0 7).threads.length + 3 = 32 ∧ triple.mayGo ∧
    (∀ m, m < 1 → ((binOf triple 0 3 5).bin 0 m).threads ≠ []) ∧ ((binOf triple 0 3 5).bin 0 1).threads = [] ∧
    (∀ m, m < 8 → ((binOf triple 0 3 5).bin 0 m).team ≠ triple.teamId ∨ ((binOf triple 0 3 5).bin 0 m).threads = []) := by
  unfold State.mayGo
  and_intros <;> decide +kernel
def launching : State := withG data [0x20000, 0x20040]
def launchLines : List DWord := [0x20000, 0x20080, 0x20100]
theorem witness_SpawnAndLaunch_launch : (launching.rdG 1).toNat % 128 = 0 ∧ (launching.rdG 2).toNat % 128 ≠ 0 ∧
    (launchLines.all fun y => match launching.target y .read with
      | .ok (.memory _ _ _) => true
      | _ => false) = true ∧
    (∀ e ∈ launching.places .read launchLines, launching.needsForced e.2 128 false = false ∧
      launching.blocked e.2 128 true = none ∧ launching.dataFault 128 .read e.1 e.2 = none) ∧ launching.atomicsOpen launching.gid true = false ∧ launching.deterministic = false ∧
    launching.replicated = false ∧ qctlEn (launching.queue 0).ctl = false ∧
    qctlEn ((launching.setQueue 0 { ctl := 0x9 }).queue 0).ctl = true ∧ ¬Config.deviceStore ≤ launching.cp.stored := by decide +kernel
/-- Queues: 0 disabled, 1 enabled with a ring of 16, at full service. -/
def serving : State := { (State.reset.setQueue 1 { ctl := 0x00010009, base := 0x30000 }) with host := { State.reset.host with svc := 0xF002 } }
/-- The bits of a QCTL value that an enabled queue keeps, and its ring. -/
abbrev ringOf (v : Word) : Nat := ((v &&& 0xFFFF00FF).extractLsb' 1 4).toNat
theorem witness_QueueRegisters : (1 : Nat) < 64 ∧ (63 : Nat) < 64 ∧ (serving.queue 1).ctl.getLsbD 0 = true ∧
    (serving.queue 0).ctl.getLsbD 0 = false ∧
    -- the same ring and address space with another PCAP, another address space, rings of 2^4, 2^12, 2^3 and 2^13
    (0x00010069 : Word).extractLsb' 16 16 = (serving.queue 1).ctl.extractLsb' 16 16 ∧
    (0x00010069 : Word).extractLsb' 1 4 = (serving.queue 1).ctl.extractLsb' 1 4 ∧
    (0x00020009 : Word).extractLsb' 16 16 ≠ (serving.queue 1).ctl.extractLsb' 16 16 ∧ ringOf 0x9 = 4 ∧ ringOf 0x19 = 12 ∧ ringOf 0x7 = 3 ∧
    ringOf 0x1B = 13 ∧ (0x30000 : DWord) &&& 0x00FFFFFFFFFF0000 = (serving.queue 1).base ∧
    (0x40000 : DWord) &&& 0x00FFFFFFFFFF0000 ≠ (serving.queue 1).base ∧ State.reset.level = 0 ∧ serving.level ≠ 0 ∧
    2 ^ ((serving.queue 1).ctl.extractLsb' 1 4).toNat ≤ ((16 : Word).extractLsb' 0 12).toNat ∧
    ((15 : Word).extractLsb' 0 12).toNat < 2 ^ ((serving.queue 1).ctl.extractLsb' 1 4).toNat := by decide +kernel
theorem witness_QueueRegisters_other : (0x0FF : Nat) < 0x10000 ∧ 0x11000 ≤ 2 ^ 24 - 1 ∧ (0x10004 : Nat) % 64 ∉ [0x00, 0x08, 0x0C, 0x20] := by
  decide

/-- Page tables of address space 1: pages 2 and 3 at physical 0x100000; queue 1 has its ring in page 3, queue 2 nowhere. -/
def tables : State :=
  let s : State := { serving with host := { serving.host with asidtab := 0x400000, leasecap := 0x40000 } }
  let s := (s.setQueue 1 { s.queue 1 with tail := 1 }).setQueue 2 { ctl := 0x00010009, base := 0x50000 }
  put (put (put (put (put (put (put s 0x400008 8 0x401001) 0x401000 8 0x402001) 0x402000 8 0x403001) 0x403000 8 0x404001)
    0x404000 8 0x405001) 0x405020 16 0x10000F) 0x405030 16 0x11000F
/-- An image at 0x20000: 16 bytes of text at 0x30000, one kernel of 32 vector registers. -/
def imaged : State :=
  put (put (put (put (put tables 0x100000 8 0x00000001494B5847) 0x100008 8 0x0000001000010000) 0x100010 8 0x0000000100000040)
    0x100044 1 32) 0x110000 4 0
theorem witness_LaunchEvents_image : tables.readImage 1 0x20000 0x20000 = none ∧ (imaged.readImage 1 0x20000 0x20000).isSome = true ∧
    (imaged.readImage 1 0x20000 0x20000).map (fun i => (i.text, i.size, i.kernels.map fun k => (k.entry, k.limit, k.regs))) =
      some (0x30000, 16, [(0, 16, 32)]) := by decide +kernel
theorem witness_LaunchEvents_record : tables.queueOrder.find? tables.hasRecord = some 1 ∧ tables.rootOf (qctlAsid (tables.queue 1).ctl) = some 0x401000 ∧
    tables.readVirt 0x401000 ((tables.queue 1).base.toNat + 384 * (tables.queue 1).head.toNat) 384 ≠ none ∧
    (let s := tables.setQueue 2 { tables.queue 2 with tail := 1 }
     let s : State := { s with cp := { s.cp with lastQueue := 1 } }
     s.queueOrder.find? s.hasRecord = some 2 ∧
       s.readVirt 0x401000 ((s.queue 2).base.toNat + 384 * (s.queue 2).head.toNat) 384 = none) := by decide +kernel
/-- The record that `launch` reads at 0x20000: the kernel at 0x10000, one cluster of one team of one group, its completion record at
0x20200; the queue takes it. -/
def launchable : State :=
  let s := withG (gridOf data fun g => { g with asid := 1 }) [0x20000]
  let k : KernelEntry := { entry := 0, limit := 16, regs := 32, replicas := 0, det := false, rights := [], bytes := 0, period := 0, handlers := [] }
  let i : Image := { asid := 1, va := 0x20000, text := 0x10000, size := 16, kernels := [k], masks := [] }
  let s := { s with mem := { s.mem with bytes := tables.mem.bytes }, host := tables.host, cp := { s.cp with images := [i] } }
  put (put (put (put (s.setQueue 0 { ctl := 0x9 }) 0x100000 8 0x10000) 0x10000A 2 0x0111) 0x100010 8 0x0020000100010001) 0x100020 8 0x20200
def launchedRecord : Nat :=
  numberOf 384 fun j => launchable.byteAt ((launchable.placeOf .read (0x20000 + BitVec.ofNat 64 (j / 128 * 128))).phys + j % 128)
theorem launchable_quiet (j : Nat) : launchable.quiet j = true := by
  have hm : launchable.mem.msgs = [] := by decide +kernel
  have hs : launchable.mem.stalled = [] := by decide +kernel
  have hd : launchable.mem.dir = [] := by decide +kernel
  have hc : ∀ c ∈ launchable.cores, c.2.l1 = [] := by decide +kernel
  have he : launchable.dirEntry j = {} := by
    unfold State.dirEntry
    rw [hd]
    rfl
  unfold State.quiet
  rw [hm, hs, hd, he]
  simp only [List.all_nil, Bool.true_and, Bool.and_eq_true, List.all_eq_true]
  exact ⟨by decide, fun c h => by simp [CoreState.idle, hc c h]⟩
theorem witness_SpawnAndLaunch_record : qctlEn (launchable.queue launchable.grid.sub.queue).ctl = true ∧
    launchable.rdG 1 = 0x20000 ∧ launchable.atomicsOpen launchable.gid true = false ∧
    (launchable.places .read launchLines).all (fun e => match e.2 with
      | .memory leaf _ _ => !leaf.tiled
      | _ => false) = true ∧
    (∀ e ∈ launchable.places .read launchLines, launchable.needsForced e.2 128 false = false ∧
      launchable.blocked e.2 128 true = none ∧ launchable.dataFault 128 .read e.1 e.2 = none) ∧
    launchable.completionOf launchable.grid.asid launchedRecord ≠ none ∧
    (match launchable.kernelAt launchable.grid.asid (field launchedRecord 0 8) with
      | some (_, k) => (launchable.recordFaults launchedRecord true k).all fun e => !e.2
      | none => false) = true := by
  and_intros <;> decide +kernel
/-- One launch that waits, of address space 1, and one of none. -/
def waitingGrid (f : Grid → Grid) : State := tables.setGridAt 5 (f { live := true, asid := 1, kernel := { entry := 0x30000, base := 0x30000, size := 16 } })
theorem witness_LaunchEvents_order : let s := waitingGrid id
    (∀ e ∈ s.noteMet.grids.filter (fun e => e.2.ready), e.2.age < 64) ∧
    (firstLaunch (s.noteMet.grids.filter fun e => e.2.ready)).map Prod.fst = some 5 ∧ s.noteMet.blockedBy (s.gridAt 5) = false ∧
    ((waitingGrid fun g => { g with age := 64 }).gridAt 5).ready = true ∧ 64 ≤ ((waitingGrid fun g => { g with age := 64 }).gridAt 5).age := by
  decide +kernel
theorem witness_LaunchEvents_lease : let s := waitingGrid id
    (s.gridAt 5).over = false ∧ (s.gridAt 5).leased = false ∧ (s.gridAt 5).next = 0 ∧ (s.gridAt 5).deps = [] ∧ s.level ≠ 0 ∧ s.noteMet.gridAt 5 = s.gridAt 5 ∧ s.rootOf (s.gridAt 5).asid = some 0x401000 ∧
    (match s.noteMet.checkLease 5 0x401000 with
      | .ok leaves gates => leaves.length == 1 && gates.isEmpty
      | _ => false) = true ∧
    (waitingGrid fun g => { g with asid := 2 }).rootOf 2 = none ∧
    (let t : State := { s with host := { s.host with leasecap := 0 } }
     (match t.noteMet.checkLease 5 0x401000 with
      | .reject code => code == 14
      | _ => false) = true) := by decide +kernel
/-- A launch at the head, on a device of four dies. -/
def heading : State := waitingGrid fun g => { g with phase := .taken, leased := true }
theorem witness_LaunchEvents_admit : heading.atHead (heading.gridAt 5) = true ∧ heading.blockedBy (heading.gridAt 5) = false ∧
    heading.cp.snuffs = [] ∧ (heading.gridAt 5).launch.coresident = false ∧ (heading.gridAt 5).launch.replicas = 0 ∧
    (heading.gridAt 5).launch.groups ≤ 32 ∧ (heading.permittedSets 0).contains [287 / 72] = true ∧
    heading.roomAt (heading.gridAt 5).launch 287 = some [287] := by decide +kernel
theorem witness_LaunchEvents_snuff : let s := waitingGrid fun g => { g with launch := { g.launch with snuff := 7 } }
    let s : State := { s with cp := { s.cp with snuffs := [7] } }
    (7 : Word) ∈ s.cp.snuffs ∧ (∀ e ∈ s.grids, s.gridAt e.1 = e.2 ∧ (e.2.launch.snuff = 7 → e.2.next = 0)) ∧
    (∃ e ∈ s.grids, (7 : Word) ≠ 0 ∧ e.2.launch.snuff = 7 ∧ e.2.over = false) := by decide +kernel
/-- The placed team has ended, or its grid has failed. -/
def endedTeam : State := prog.setTeam { prog.team with ended := true }
theorem witness_LaunchEvents_end : (endedTeam.clusterAt 0).live = true ∧ (endedTeam.clusterAt 0).act ≠ .ended ∧
    (∀ t ∈ endedTeam.teamsOf 0, (endedTeam.teamAt t).ended = true) ∧ (∀ t ∈ endedTeam.teamsOf 0, (endedTeam.teamAt t).drained = true) ∧
    (∀ o ∈ endedTeam.host.atomics, o.gid / 384 ≠ 0) ∧ (∀ e ∈ endedTeam.groups, e.1 / 384 = 0 → e.2.nft = none) ∧
    (let s := gridOf prog fun g => { g with ending := { g.ending with failed := true } }; (s.gridAt 0).ending.failed = true) ∧
    (let s := prog.setClusterAt 0 { prog.clusterAt 0 with act := .ended }
     (s.gridAt 0).live = true ∧ (s.gridAt 0).phase = .taken ∧ (∀ c ∈ s.clustersOf 0, (s.clusterAt c).act = .ended) ∧
       (s.gridAt 0).next = (s.gridAt 0).launch.clusters) := by decide +kernel

/-- The placed cluster is asked to stop, and its split, of a team with 128 bytes of scratch, stands behind a `safe`. -/
def stopping : State := prog.setClusterAt 0 { prog.clusterAt 0 with stop := some 0 }
def standing : State :=
  (splOf stopping fun x => { x with sched := { x.sched with stopped := some 0 } }).setTeam { prog.team with bytes := 128 }
/-- A launch of higher priority waits for room in the way of the placed one. -/
def crowded : State :=
  { (prog.setGridAt 5 { live := true, phase := .taken, leased := true, prio := 7, launch := { width := 9, height := 8, groups := 32 } })
    with host := { prog.host with svc := 0x1001 } }
theorem witness_StopsAndBins_request : (prog.clusterAt 0).live = true ∧ (prog.clusterAt 0).act = .active ∧ (prog.clusterAt 0).stop = none ∧
    (prog.gridAt 0).over = false ∧ crowded.mayPreempt (crowded.gridAt 0) = true ∧ stopping.clusterAt 0 = { prog.clusterAt 0 with stop := some 0 } ∧
    (let s : State := { stopping with time := { stopping.time with cycle := 2 ^ 20 } }
     0 + 2 ^ 20 ≤ s.time.cycle ∧ s.unitStands (s.unit 0) = false) := by decide +kernel
theorem witness_StopsAndBins_save : standing.unitQuiet (standing.unit 0) = true ∧ standing.areaLegal 0x100000 (standing.saveBytes [0]) = true ∧
    standing.areaLegal 0x100000 (standing.parkSize [0]) = true ∧ standing.unit 0 = [0] ∧
    standing.cores.all (fun e => e.2.locks.all fun f => !((standing.unit 0).flatMap standing.teamsOf).contains f.scratch) = true ∧
    (∀ t ∈ (standing.unit 0).flatMap standing.teamsOf, standing.parkedGroups (standing.teamAt t).core +
      ((((standing.unit 0).flatMap standing.teamsOf).filter fun u => (standing.teamAt u).core == (standing.teamAt t).core).flatMap
        standing.groupsOf).length ≤ 96) := by decide +kernel
def acting (a : Activity) : State := prog.setClusterAt 0 { prog.clusterAt 0 with act := a }
theorem witness_StopsAndBins_back : (acting .parked).unit 0 = [0] ∧ ((acting .parked).clusterAt 0).act = .parked ∧
    (acting .parked).fitsBack 0 = true ∧ ((acting .parked).teamsOf 0).Nodup ∧ (acting .saved).unit 0 = [0] ∧
    ((acting .saved).clusterAt 0).act = .saved ∧ ((acting .saved).gridAt 0).over = false ∧
    ((acting .saved).permittedSets ((acting .saved).gridAt 0).launch.replicas).contains [287 % 288 / 72] = true ∧
    (((acting .saved).resumeCluster 0 (287 % 288)).bind fun u => u.placeBins 0 ((acting .saved).clusterAt 0).bins).isSome = true := by
  decide +kernel
def dueBin (timer : Nat) (due : Bool) : State :=
  prog.setBin 0 3 { team := 0, entry := 0x10040, threads := [1], timer := timer, due := due }
theorem witness_StopsAndBins_bins : ((dueBin 0 false).bin 0 3).threads ≠ [] ∧ ((dueBin 0 false).bin 0 3).timer = 0 ∧
    ((dueBin 0 false).bin 0 3).due = false ∧ (dueBin 0 false).timersStopped ((dueBin 0 false).bin 0 3).team = false ∧
    (dueBin 0 false).canStart 0 ((dueBin 0 false).bin 0 3) = true ∧
    (let s := (dueBin 0 false).setClusterAt 0 { prog.clusterAt 0 with act := .parked }; s.canStart 0 (s.bin 0 3) = false) ∧
    ((dueBin 5 true).bin 0 3).due = true ∧ (dueBin 5 true).canStart 0 ((dueBin 5 true).bin 0 3) = true := by decide +kernel
def spawning : State := splOf prog fun x => { x with wait := some (.spawn [1, 2] 0x10040 [7]) }
theorem witness_StopsAndBins_spawn : spawning.spl.wait = some (.spawn [1, 2] 0x10040 [7]) ∧ spawning.groupRuns = true ∧
    spawning.canPlace 0x10040 = true := by decide +kernel

/-- Words, results and commands after their issue. -/
theorem witness_UnitEvents_words : (prog.accepted 0).isNone = true ∧ prog.spl.live = true ∧ prog.spl.word = none ∧ prog.spl.wait = none ∧
    (unfetched fiveWord).fetch (unfetched fiveWord).spl.pc = some fiveWord ∧
    (splOf prog fun x => { x with sched := { x.sched with age := 192 } }).spl.sched.age = 192 := by decide +kernel
def farSplit : State := splOf (placed fiveWord) fun x => { x with dist := 4096 }
theorem witness_UnitEvents_bound : farSplit.wordAt 0 = some fiveWord ∧ farSplit.accepted fiveWord = some (.gldi 0 1 5) ∧
    farSplit.standing 0 = .ready ∧ farSplit.spl.wait = none ∧ 4096 ≤ farSplit.spl.dist ∧ farSplit.handlerMode = false ∧
    isSafe (.gldi 0 1 5) = false := by decide +kernel
/-- A load of g1 has issued from the first split, which has gone on since. -/
def loading : State :=
  let s := splOf (handled prog) fun x => { x with pc := 0x10008, dist := 2 }
  s.setGrp { s.grp with inflight := [{ reg := .g 1, slot := 0, tseq := 7, ready := none, old := 0, lanes := 0,
                                       before := some { prog.spl with pc := 0x10004, dist := 1 } }] }
theorem witness_UnitEvents_results : (∃ e ∈ (AMap.get {} loading.groups 0).inflight, e.tseq = 7 ∧ e.ready = none) ∧
    loading.resultHeld 0 7 = false ∧ (loading.at_ 0 0).lostMiss 0 7 = none ∧
    (loading.grp.inflight.find? fun e => e.slot == 0 && e.tseq == 7 && e.ready.isNone && e.before.isSome).isSome = true ∧
    loading.spl.live = true ∧ loading.spl.solid = none ∧ loading.grp.inflight.length = 1 ∧
    loading.time.turn ≤ slotNumber 0 loading.grp ∧ (5 : Nat) ≤ 9 ∧ (9 : Nat) ≠ 7 := by
  and_intros <;> decide +kernel
def trapped : State := prog.setGrp { prog.grp with nft := some (0x10000, 3) }
theorem witness_UnitEvents_nonFinite : (AMap.get {} trapped.groups 0).nft = some (0x10000, 3) ∧ trapped.leads 0 = true ∧
    (trapped.at_ 0 0).grid.ending.snuffed = false ∧ (trapped.at_ 0 0).grid.ending.failed = false ∧
    (gridOf trapped fun g => { g with ending := { g.ending with snuffed := true } }).grid.ending.snuffed = true := by decide +kernel
def missing (l : List Miss) : CoreState := { misses := l }
def missOf (entry age : Nat) : Miss := { line := 1, gid := 0, tseq := 0, entry := entry, age := age }
theorem witness_UnitEvents_misses : (missing [missOf 0 0]).misses[0]? = some (missOf 0 0) ∧
    ((missing (missOf 0 0 :: List.replicate 251 (missOf 1 0))).misses.filter fun o => o.entry == 1).length < Config.mshrOrdinary ∧
    Config.mshrOrdinary ≤ ((missing (missOf 0 0 :: List.replicate 252 (missOf 1 0))).misses.filter fun o => o.entry == 1).length ∧
    64 ≤ (missOf 0 64).age ∧ ((missing [missOf 0 64, missOf 2 0, missOf 2 0, missOf 2 0]).misses.filter fun o => o.entry == 2).length < Config.mshrReserved ∧
    (∀ o ∈ (missing [missOf 0 64, missOf 0 64, missOf 1 70]).misses, o.entry ≠ 0 ∨ o.age ≤ 64) := by decide +kernel
/-- A command of context 0: 16 bytes from memory to scratch. -/
def copying : Cmd := { num := 1, op := .cpy 0 0 0 1, gid := 0, slot := 0, ops := [0x00FFFFF000000000, 0x20000, 0x0002000000000010] }
def commanding (c : Cmd) : State := data.setCtx 0 { issued := 1, queue := [c] }
theorem witness_UnitEvents_guards :
    (((commanding { copying with guard := .pending 2 }).ofTeam 0).ctx 0).queue.find? (fun d => !d.started) = some { copying with guard := .pending 2 } ∧
    ((commanding { copying with guard := .pending 2 }).ofTeam 0).guardReady { copying with guard := .pending 2 } = true ∧
    ((commanding copying).ofTeam 0).gridDone = false ∧ (∀ o ∈ (commanding copying).host.atomics, seqBefore o.tseq copying.tseq = false) ∧
    (((commanding { copying with guard := .discarded }).ofTeam 0).ctx 0).queue.find? (fun d => !d.started) = some { copying with guard := .discarded } ∧
    (((commanding copying).ofTeam 0).ctx 0).queue.find? (fun d => !d.started) = some copying ∧ copying.waits = false ∧
    (commanding copying).cluster.act = .active ∧ ((commanding copying).startCommand 0 copying).isSome = true ∧ copying.posted = false := by decide +kernel
/-- A collective that has posted nothing yet, in a grid that goes on. -/
theorem witness_UnitEvents_posted : ({ copying with op := .collAg 0 0 1 } : Cmd).posted = true ∧
    (commanding copying).grid.ending.snuffed = false ∧ (commanding copying).grid.ending.failed = false := by decide +kernel
def ran : Cmd := { copying with started := true }
theorem witness_UnitEvents_complete : (((commanding ran).ofTeam 0).ctx 0).queue = [ran] ∧ ran.num = 1 ∧ ran.started = true ∧ ran.done = false ∧
    ran.gid / 32 = 0 ∧ onceCommand ran.op = false ∧ isShade ran.op = false ∧ (commanding ran).performed ran = true ∧ (commanding ran).replicated = false ∧
    ran.pend = [] ∧ ctlNtf ran.control = false := by decide +kernel
def sending : Cmd := { num := 1, op := .collAg 0 0 1, gid := 0, slot := 0, started := true, result := some [1, 2, 3, 4], ops := [0x20000, 0, 0, 4] }
theorem witness_UnitEvents_chunks : firstTransfer ((data.setCtx 3 { issued := 1, queue := [sending] }).transfers 0) = some sending := by
  decide +kernel
def adding : State :=
  { (regsOf prog fun r => { r with openAcc := 0x80 }) with
    peers := [{ team := 0, num := 1, gid := 0, clock := 0, target := 0, block := 7, mask := 0x80000001, data := List.replicate 16 0x3F800000 }] }
theorem witness_UnitEvents_peers : adding.peers[0]?.isSome = true ∧ (adding.at_ 0 0).cluster.act = .active ∧
    (adding.at_ 0 0).grp.live = true ∧ (adding.at_ 0 0).peerBehind (adding.peers.getD 0 { team := 0, num := 0, gid := 0, clock := 0, target := 0, block := 0, mask := 0, data := [] }) = false ∧ (adding.at_ 0 0).regs.openAcc.getLsbD 7 = true := by decide +kernel

/-- A line of device memory on die 0, an entry of the directory, messages about the line; a device of full service. -/
def lineNo : Nat := 0x4000
def entered (e : DirEntry) : State := { serving with mem := { serving.mem with dir := [(lineNo, e)] } }
def linked (s : State) : State := { s with host := { s.host with link := 1, modnum := 0x80000000 } }
/-- Entries as READ, OWN and CLAIM_ACCESS may find them: one in service, one held in E, one shared, one in P. -/
def busyEntry : DirEntry := { ag := 0x02, st := 2, copies := [(1, {})], busy := true, serving := some (.read 2 0xF) }
def oneEntry (st : BitVec 3) (c : Copy) : DirEntry := { ag := 0x02, st := st, copies := [(1, c)] }
def twoEntry (st : BitVec 3) (c d : Copy) : DirEntry := { ag := 0x06, st := st, copies := [(1, c), (2, d)] }
def claimed : DirEntry := twoEntry 4 { claim := 0xF } { claim := 0xF0 }
def found (e : DirEntry) : DirEntry := (entered e).dirEntry lineNo
theorem witness_ProtocolEvents_agents : serving.agentOf 1 lineNo = true ∧ serving.agentOf 3 lineNo = true ∧ serving.agentOf 0 lineNo = false ∧
    (linked serving).agentOf 4 lineNo = true ∧ (linked serving).hostMay (128 * lineNo) = true ∧ (linked serving).tileOf (128 * lineNo) = none ∧
    serving.uncrowded = true ∧ (serving.dirEntry lineNo).ag.getLsbD 1 = false ∧ (0x1 : BitVec 128) ≠ 0 ∧
    (∀ e ∈ [busyEntry, claimed, twoEntry 1 {} {}, oneEntry 2 {}], (entered e).agentOf 3 lineNo = true ∧
      (found e).ag.getLsbD 3 = false ∧ (entered e).uncrowded = true) ∧
    (found busyEntry).busy = true ∧ (found claimed).st = 4 ∧ (found claimed).busy = false ∧
    (found (twoEntry 1 {} {})).exclusive = false ∧ (found (oneEntry 2 {})).exclusive = true ∧ (found (oneEntry 2 {})).holders.head? = some 1 ∧
    (found claimed).ag.getLsbD 1 = true ∧ (entered claimed).agentOf 1 lineNo = true ∧
    -- what bits 8 up add is nobody's, bits 4 up are the other's
    (0x100 : BitVec 128) &&& ~~~((found claimed).copy 1).claim ≠ 0 ∧
    (0x100 : BitVec 128) &&& ~~~((found claimed).copy 1).claim &&& (found claimed).otherClaims 1 = 0 ∧
    (0x10 : BitVec 128) &&& ~~~((found claimed).copy 1).claim &&& (found claimed).otherClaims 1 ≠ 0 := by decide +kernel
/-- An OWN finds nobody, itself, an owner, an owner after three changes of owner, a sharer, and P with and without its claim. -/
theorem witness_ProtocolEvents_owns : (found {}).holders = [] ∧ (found (oneEntry 1 {})).exclusive = false ∧ (found (oneEntry 1 {})).holders = [1] ∧
    privatises (found (oneEntry 3 { dirty := 1 })) lineNo 1 2 2 = false ∧
    privatises (found { oneEntry 3 { dirty := 1 } with cnt := 3 }) lineNo 1 2 2 = true ∧
    (∃ x ∈ (found (twoEntry 1 {} {})).holders, x ≠ 1) ∧ (found claimed).ag.getLsbD 3 = false ∧
    (0x100 : BitVec 128) &&& (found claimed).otherClaims 1 = 0 ∧ (0x10 : BitVec 128) &&& (found claimed).otherClaims 1 ≠ 0 := by decide +kernel
/-- Module 3 of a domain in which this is module 0 asks for the line (R366). -/
theorem witness_ProtocolEvents_modules : (linked serving).moduleAsks 3 lineNo = true ∧ (linked serving).uncrowded = true ∧
    (linked serving).dirEntry lineNo = {} ∧ ((linked serving).switchEntry lineNo).st = 0 ∧
    3 ∉ ((linked serving).switchEntry lineNo).modules ∧ (∀ x ∈ (linked serving).mem.msgs, x.line ≠ lineNo) ∧
    (linked serving).tileOf (128 * lineNo) = none := by decide +kernel
/-- Core 0, of the home die, holds dirty bytes of the line, with the tag of epoch 3; core 72, of die 1, other bytes. -/
def holding : State :=
  serving.setCoreAt 0 { epoch := 4, l1 := [(lineNo, { valid := 0xF, dirty := 0xF, tag := some 3, data := 0xAABBCCDD })] }
def awayHolding : State := serving.setCoreAt 72 { l1 := [(lineNo, { valid := 0xF, dirty := 0xF, data := 0x11223344 })] }
theorem witness_ProtocolEvents_writer : homeDie lineNo = some 0 ∧ holding.writerOf 0 lineNo 0xF 0xAABBCCDD = some 0 ∧
    awayHolding.agentOf 1 lineNo = true ∧ awayHolding.writerOf 1 lineNo 0xF 0x11223344 = some 72 ∧
    awayHolding.ownsBytes 1 lineNo 0xF = false ∧ awayHolding.uncrowded = true ∧ (awayHolding.l1 72 lineNo).tile = none ∧
    (awayHolding.l1 72 lineNo).dirty = 0xF := by decide +kernel
/-- A line of module 3, which this module does not hold, and one that it holds in E, or in S. -/
def peerLine : Nat := (2 ^ 51 + 3 * 2 ^ 40) / 128
def peering (st : BitVec 3) : State := linked { serving with mem := { serving.mem with peerLines := [(peerLine, st)] } }
theorem witness_ProtocolEvents_peers : kindOf (128 * peerLine) = 2 ∧ (linked serving).fabricOn = true ∧
    AMap.has (linked serving).mem.peerLines peerLine = false ∧ (linked serving).poisoned peerLine = false ∧
    (∀ m ∈ (peering 2).mem.msgs, m.line ≠ peerLine) ∧ AMap.has (peering 2).mem.peerLines peerLine = true ∧
    AMap.get 0 (peering 2).mem.peerLines peerLine = 2 ∧ AMap.get 0 (peering 1).mem.peerLines peerLine = 1 := by decide +kernel
def granted (c : Copy) : State := entered { ag := 0x02, st := 3, copies := [(1, c)] }
/-- One message about the line, and its entry. -/
def sentOne (e : DirEntry) (m : Msg) : State := { entered e with mem := { (entered e).mem with msgs := [m] } }
def arrives (e : DirEntry) (m : Msg) : Bool := (sentOne e m).mem.msgs == [m] && (sentOne e m).mayArrive m && m.line == lineNo &&
  (sentOne e m).uncrowded
def servingEntry (c : Copy) (r : Request) : DirEntry := { oneEntry 3 c with busy := true, serving := some r }
theorem witness_ProtocolEvents_messages :
    -- a forward to the holder, for a read, an Own and a write at the home
    (∀ r ∈ [Request.read 2 0xF, .own 2 1 5, .homeWrite 1 5], arrives (servingEntry { dirty := 1 } r) (.fwd lineNo 1) = true) ∧
    -- the copy comes with ownership, or to a reader whose copy is not there
    arrives { oneEntry 3 {} with busy := true, serving := some (.own 2 1 5) } (.fwdData lineNo 2 0 1 true) = true ∧
    arrives { oneEntry 2 {} with busy := true, serving := some (.read 2 0xF) } (.fwdData lineNo 2 0 0 false) = true ∧
    AMap.has (found { oneEntry 2 {} with busy := true, serving := some (.read 2 0xF) }).copies 2 = false ∧
    -- a write-back that answers a forward, and one that gives the line back
    arrives { oneEntry 2 {} with busy := true, serving := some (.read 2 0xF) } (.wbData lineNo 1 0 1 true) = true ∧
    arrives { ag := 0x02, st := 3 } (.wbData lineNo 1 0 1 false) = true ∧
    arrives (oneEntry 1 {}) (.inv lineNo 1) = true ∧ arrives (oneEntry 2 {}) (.binv lineNo 1) = true ∧
    AMap.has (found (oneEntry 1 {})).copies 1 = true ∧
    -- an acknowledgement: of a copy given back, and the last before an Own is granted
    arrives { ag := 0x02, st := 1 } (.invAck lineNo 1) = true ∧
    arrives { ag := 0x02, st := 1, busy := true, serving := some (.own 2 1 5) } (.invAck lineNo 1) = true ∧
    (∀ a ∈ (found { ag := 0x02, st := 1, busy := true, serving := some (.own 2 1 5) }).holders, a = 1 ∨ a = 2) ∧
    arrives (oneEntry 2 { here := false }) (.data lineNo 1) = true ∧ (found (oneEntry 2 { here := false })).ag ≠ 0 ∧
    AMap.has (found (oneEntry 2 { here := false })).copies 1 = true := by decide +kernel
theorem witness_ProtocolEvents_givesBack : (∀ m ∈ (granted {}).mem.msgs, m.line ≠ lineNo) ∧ ((granted {}).dirEntry lineNo).busy = false ∧
    ((granted {}).dirEntry lineNo).ag.getLsbD 1 = true ∧ AMap.has ((granted {}).dirEntry lineNo).copies 1 = true ∧
    (((granted {}).dirEntry lineNo).copy 1).here = true ∧ ((granted {}).dirEntry lineNo).holders = [1] ∧
    (((granted { dirty := 1 }).dirEntry lineNo).copy 1).dirty ≠ 0 ∧ (((granted {}).dirEntry lineNo).copy 1).dirty = 0 ∧
    (((granted {}).dirEntry lineNo).copy 1).claim = 0 ∧ (granted {}).uncrowded = true ∧ ((granted {}).dirEntry lineNo).st ≠ 4 := by decide +kernel
def wicked : State := { holding with mem := { holding.mem with wicks := [(lineNo, { v := true, epoch := 3 })] } }
def demanded : State := { wicked with mem := { wicked.mem with demands := [{ line := lineNo, die := 0, core := 0, epoch := 3 }] } }
theorem witness_ProtocolEvents_wicks : (wicked.wick lineNo).v = true ∧ (wicked.wick lineNo).dr = false ∧ (∀ d ∈ wicked.mem.demands, d.line ≠ lineNo) ∧ wicked.demandWaits (wicked.wick lineNo) = false ∧ demanded.ownPending 0 = false ∧
    (wicked.wick lineNo).coreId = 0 ∧ (wicked.coreAt 0).l1.Pairwise (fun a b => a.1 < b.1) ∧
    (demanded.mem.demands.find? fun d => d.line == lineNo) = some { line := lineNo, die := 0, core := 0, epoch := 3 } ∧
    (demanded.wick lineNo).die.toNat = 0 ∧ (demanded.wick lineNo).core.toNat = 0 ∧ (demanded.wick lineNo).epoch = 3 ∧
    (let s : State := { holding with mem := { holding.mem with epochDue := [0] } }; 0 ∈ s.mem.epochDue) := by decide +kernel
def tiledLine : State :=
  { serving.setCoreAt 0 { l1 := [(lineNo, { valid := 0xF, tile := some tileA })] } with
    time := { serving.time with cycle := 2 ^ 40 }, lamp := { serving.lamp with clocks := [3600, 3600, 3600, 3600] } }
theorem witness_ProtocolEvents_drop : AMap.has (tiledLine.coreAt 0).l1 lineNo = true ∧
    tiledLine.heldFor 0 (tiledLine.l1 0 lineNo) 65535 = true := by decide +kernel
theorem witness_ProtocolEvents_flip : tables.rootOf 1 = some 0x401000 ∧
    (tables.walk 0x401000 0x20000).map (fun f => (f.legal, (leafFields f.bits).valid, (leafFields f.bits).sa,
      tables.pageLeased ((leafFields f.bits).phys 0x20000))) = some (true, true, false, false) := by decide +kernel
/-- `pst v0, g1, g2` is the next word of the placed program, with the operands of `pairing`. -/
def pstWord : Word := 0b000_01101_111_0000000_0000001_0000010
def tearing : State :=
  pairing.placeFor 0 0 0 pstWord
def tornState : State := (tearing.beginIssue 0).noteSolid pstWord
theorem witness_ProtocolEvents_torn : tearing.pairSlot 0x30000 0x38000 = some 0 ∧ tearing.wordAt 0 = some pstWord ∧
    tearing.accepted pstWord = some (.pst 0 0 1 2) ∧ tornState.spl.dist < 4096 ∧ tornState.early (.pst 0 0 1 2) = false := by decide +kernel
theorem tearing_clear : tornState.pairs 0 1 2 0x200000 0x208000 tileA tileB where
  active := by decide +kernel
  plain := by decide +kernel
  control := by decide +kernel
  aligned := by decide +kernel
  outside := by decide +kernel
  first := ⟨tileLeaf, 0x30000, by decide +kernel⟩
  second := ⟨tileLeaf, 0x38000, by decide +kernel⟩
  tiles := by decide +kernel
  clear := by decide +kernel
theorem witness_ProtocolEvents_tornHeaders : tornState.flushed = true ∧ Memory.wf tearing.mem.bytes = true ∧ tileA.header % 32 = 0 ∧
    tileB.header % 32 = 0 ∧ tornState.atRest (tileA.header / 128) = true ∧ tornState.atRest (tileB.header / 128) = true := by
  decide +kernel
/-- A line of host memory that die 1 shares, under CXL. -/
def hostLine : Nat := 2 ^ 50 / 128
def shared : State := linked { serving with mem := { serving.mem with dir := [(hostLine, { ag := 0x02, st := 1, copies := [(1, {})] })] } }
def hostBase : Nat := 0x100000
theorem witness_ProtocolEvents_snoops : shared.snooped hostLine = true ∧ shared.atRest hostLine = true ∧ shared.calm = true ∧
    (∀ a ∈ (shared.dirEntry hostLine).holders, AMap.has (shared.dirEntry hostLine).copies a = true ∧
      ((shared.dirEntry hostLine).copy a).here = true) := by decide +kernel
theorem witness_ProtocolEvents_host : (linked serving).plainPcie = false ∧
    (linked serving).hostMay hostBase = true ∧ (linked serving).hostPoisoned (hostBase / 128) (BitVec.allOnes 128) = false ∧
    (let s := linked { serving with mem := { serving.mem with poison := [hostBase / 128] } }
     s.hostMay hostBase = true ∧ s.hostPoisoned (hostBase / 128) (BitVec.allOnes 128) = true) ∧
    (linked serving).atRest (hostBase / 128) = true ∧ (linked serving).uncrowded = true ∧
    (linked serving).tileOf (128 * (hostBase / 128)) = none ∧
    (homeDie (hostBase / 128)).any serving.lamp.failed.contains = false ∧ Memory.wf serving.mem.bytes = true ∧
    serving.plainPcie = true ∧ serving.hostMay 0x10007C = true ∧ 0x10007C % 128 + 4 ≤ 128 ∧ hostOperation 10 16 = true ∧
    hostOperation 0 4 = true ∧ hostOperation 9 8 = true ∧ 0x100070 % 16 = 0 ∧ (serving.wick (hostBase / 128)).v = false := by
  decide +kernel
def crossing : HostAtomic :=
  { gid := 0, slot := 0, tseq := 7, op := 10, bytes := 8, reg := 4, returns := true, pc := 0x10000, lanes := [(0, hostLine * 128, 5), (31, hostLine * 128 + 8, 6)] }
def crossed : State := { prog with host := { prog.host with atomics := [crossing] } }
theorem witness_ProtocolEvents_atomics : (crossed.host.atomics.find? fun o => o.gid == 0 && o.tseq == 7) = some crossing ∧
    (crossed.at_ 0 crossing.slot).grid.ending.failed = false ∧ Memory.wf crossed.mem.bytes = true ∧
    (crossing.lanes.map Prod.fst).Nodup ∧ (∀ z ∈ crossing.lanes, z.1 < 32 ∧ crossed.atRest (z.2.1 / 128) = true ∧
      ∀ k, k < crossing.bytes → (z.2.1 + k) / 128 = z.2.1 / 128) ∧ crossing.returns = true := by decide +kernel

/-- Two replicas at a compare, at a rendezvous, before a forwarded value. -/
def setRepl (s : State) (g : Nat) (f : Replica → Replica) : State := s.setReplAt g (f (s.groupAt g).repl)
def waitAt (s : State) (g : Nat) (w : Wait) : State := let t := s.at_ g 0; (t.setSpl { t.spl with wait := some w }).at_ s.gid s.slot
def comparing : State :=
  setRepl (setRepl replicas 0 fun r => { r with sent := some 9, forced := true }) 384 fun r => { r with sent := some 9, forced := true }
theorem witness_ReplicaAndDeviceEvents_compare : comparing.replicaSet 0 = [0, 384] ∧ 2 ≤ (comparing.replicaSet 0).length ∧
    comparing.allThere 0 = true ∧ (∀ g ∈ comparing.replicaSet 0, (AMap.get {} comparing.groups g).repl.sent = some 9 ∧ (AMap.get {} comparing.groups g).repl.forced = true) ∧
    (AMap.get {} comparing.groups (leadOf comparing (comparing.replicaSet 0))).repl.retries + 1 ≤ comparing.cp.retryLimit := by decide +kernel
def lateAt (s : State) : State := { s with time := { s.time with cycle := 2 ^ 24 } }
def alone : State := lateAt (waitAt (setRepl replicas 0 fun r => { r with sent := some 9 }) 0 .compare)
def meeting : LogEntry := { word := 0, mask := 1, number := 0, ops := [], result := 0, addrs := [], operands := [], results := [] }
def unanswered : State := lateAt (waitAt (setRepl replicas 0 fun r => { r with operands := some meeting }) 0 .rendezvous)
def unforwarded : State := lateAt (waitAt replicas 384 .rendezvous)
/-- The partner's bin group has not started. -/
def unstarted : State := { alone with groups := AMap.drop alone.groups 384 }
theorem witness_ReplicaAndDeviceEvents_late : unstarted.allThere 0 = false ∧ (unstarted.atReplica 0).spl.wait = some .compare ∧
    (alone.atReplica 0).grp.live = true ∧ (alone.atReplica 0).grp.repl.since + 2 ^ 24 ≤ alone.time.cycle ∧
    (alone.atReplica 0).spl.wait = some .compare ∧ (alone.atReplica 0).grp.repl.sent.isSome = true ∧
    alone.allThere 0 = true ∧ (∃ g ∈ alone.replicaSet 0, (AMap.get {} alone.groups g).repl.sent = none) ∧
    (unanswered.atReplica 0).spl.wait = some .rendezvous ∧ (unanswered.atReplica 0).grp.repl.operands.isSome = true ∧
    (∃ g ∈ unanswered.replicaSet 0, (AMap.get {} unanswered.groups g).repl.operands = none) ∧
    (unforwarded.atReplica 384).spl.wait = some .rendezvous ∧ (unforwarded.atReplica 384).grp.repl.operands = none ∧
    (unforwarded.atReplica 384).grp.repl.forwarded = [] := by
  and_intros <;> decide +kernel
def agreeing : State :=
  setRepl (setRepl replicas 0 fun r => { r with operands := some meeting }) 384 fun r => { r with operands := some meeting }
theorem witness_ReplicaAndDeviceEvents_agree : 384 ∈ agreeing.replicaSet 384 ∧ 2 ≤ (agreeing.replicaSet 384).length ∧
    agreeing.allThere 384 = true ∧ (∀ g ∈ agreeing.replicaSet 384, ((AMap.get {} agreeing.groups g).repl.operands).map LogEntry.sent = some meeting.sent ∧
      (AMap.get {} agreeing.groups g).repl.agreed = none) ∧
    (let s : State := { replicas with mem := { replicas.mem with notices := [(144, 7)] } }; (144, 7) ∈ s.mem.notices) ∧
    (AMap.get {} (setRepl replicas 384 fun r => { r with due := [.result meeting] }).groups 384).repl.due = [.result meeting] ∧
    (AMap.get {} (setRepl replicas 384 fun r => { r with due := [.value 0 5] }).groups 384).repl.due = [.value 0 5] := by decide +kernel
def periodic : State := regsOf det fun r => { r with clock := 4096 }
theorem witness_ReplicaAndDeviceEvents_period : (periodic.at_ 0 0).groupRuns = true ∧ (periodic.at_ 0 0).periodOver = true ∧
    (periodic.gridAt 0).live = true ∧ (periodic.gridAt 0).launch.det = true ∧ periodic.gridGroups 0 = [0] ∧
    (periodic.gridGroups 0).all periodic.rests = true ∧ (∀ t ∈ periodic.gridTeams 0, periodic.enginesDone t = true) ∧
    periodic.host.atomics = [] := by decide +kernel
def down (l : Lamp) : State := { serving with lamp := l }
theorem witness_ReplicaAndDeviceEvents_device : (3 : Nat) < 4 ∧ serving.inService 3 = true ∧ (1023 : Nat) < 1024 ∧ 1023 ∉ serving.lamp.unreachable ∧
    1023 ≠ serving.host.modnum.toNat % 1024 ∧ 0x10FFFF < Config.hbmBytes ∧ 0x10FFFF / 65536 * 65536 ∉ serving.lamp.retired ∧
    serving.level ≠ 0 ∧ (down { clocks := [1200, 1250, 2400, 1800] }).lamp.clocks.length = 4 := by decide +kernel
def pendingSlot : Lamp := { slotB := { version := 2, valid := true, pending := true } }
theorem witness_ReplicaAndDeviceEvents_reset : (let next := ((down {}).lamp.kept 0).slot (1 - (down {}).lamp.active)
      ¬(next.valid = true ∧ next.pending = true)) ∧
    (((down pendingSlot).lamp.kept 0).slot (1 - (down pendingSlot).lamp.active)).valid = true ∧
    (((down pendingSlot).lamp.kept 0).slot (1 - (down pendingSlot).lamp.active)).pending = true ∧
    State.reset.lamp.down = false ∧ State.reset.level = 0 ∧ (1 : BitVec 4).getLsbD 0 = true ∧ (14 : BitVec 4).getLsbD 0 = false ∧
    (let s : State := { serving with host := { serving.host with svc := 0x1001 } }; s.lamp.down = false ∧ s.level = 1) ∧
    (let s : State := { State.reset with lamp := { trial := true } }; s.lamp.trial = true ∧ s.level = 0) := by decide +kernel

/-! The spec's own examples: the words it prints, and results it states (05, 07, 09, 10, 11, 13). -/

theorem test_examples_control :
    decode 0x1607FFF8 = .ok (.gaddi 0 3 0x1FFF8) ∧ decode 0x13A18000 = .ok (.gmode 0 6) ∧ decode 0x0900C082 = .ok (.pand 0 3 1 2) ∧
    decode 0x1300C082 = .ok (.qand 0 3 1 2) ∧ decode 0x09C24080 = .ok (.pballot 0 9 1) ∧ decode 0x18400005 = .ok (.brq 0 2 5) ∧
    decode 0x19000010 = .ok (.call 0 16) ∧ decode 0x1C280180 = .ok (.safe 0 3) ∧ decode 0x1C510028 = .ok (.spawn 0 2 40) ∧
    decode 0x1C628000 = .ok (.launch 0 20) ∧ decode 0x1C6C0000 = .ok (.role 0 2) ∧ decode 0x1C308800 = .ok (.trap 0 17) :=
  ⟨rfl, rfl, rfl, rfl, rfl, rfl, rfl, rfl, rfl, rfl, rfl, rfl⟩
theorem test_examples_vector :
    decode 0x01E18103 = .ok (.vtwosum 0 6 2 3) ∧ decode 0x03E10100 = .ok (.vclz 0 4 2) ∧ decode 0x04604103 = .ok (.vcmpLt 0 1 2 3) ∧
    decode 0x0241C409 = .ok (.vmix 0 7 8 9) ∧ decode 0x06818200 = .ok (.vunpk 0 6 4) ∧ decode 0x08010286 = .ok (.vperm 0 4 5 6) ∧
    decode 0x0880C200 = .ok (.vredAdd 0 3 4) := ⟨rfl, rfl, rfl, rfl, rfl, rfl, rfl⟩
theorem test_examples_memory :
    decode 0x0A414202 = .ok (.ldB32 0 5 4 2) ∧ decode 0x0B414202 = .ok (.stB32 0 5 4 2) ∧ decode 0x0AA18181 = .ok (.ldPollB32 0 6 3 1) ∧
    decode 0x0BA50015 = .ok (.gst 0 20 0 21) ∧ decode 0x0BC10302 = .ok (.ldSys 0 4 6 2) ∧ decode 0x0C481087 = .ok (.atomMinn 0 1 0 2 1 7) ∧
    decode 0x0CA02103 = .ok (.atomCas 0 0 0 4 2 3) ∧ decode 0x0CB00A82 = .ok (.atomfFaddF32 0 0 1 5 2) ∧
    decode 0x0CF04103 = .ok (.cas128 0 0 8 2 3) ∧ decode 0x0C040000 = .ok (.redAdd 0 0 0 0 0 0) ∧ decode 0x0D810286 = .ok (.spmt 0 4 5 6) ∧
    decode 0x0DC20200 = .ok (.shdr 0 8 4) ∧ decode 0x0DE20206 = .ok (.pst 0 8 4 6) :=
  ⟨rfl, rfl, rfl, rfl, rfl, rfl, rfl, rfl, rfl, rfl, rfl, rfl, rfl⟩
theorem test_examples_engines :
    decode 0x0E094818 = .ok (.mma 0 2 5 16 24) ∧ decode 0x0E204600 = .ok (.mscale 0 1 12) ∧ decode 0x0E40C001 = .ok (.mzeroOpen 0 3) ∧
    decode 0x0E62048A = .ok (.mdrain 0 8 1 1 10) ∧ decode 0x0E810C00 = .ok (.mdrs 0 4 3 0) ∧ decode 0x0EA18100 = .ok (.mdrp 0 6 2) ∧
    decode 0x0EC04103 = .ok (.mcbk 0 1 2 3) ∧ decode 0x1A039000 = .ok (.cpy 0 3 1 8) ∧ decode 0x1A081800 = .ok (.cpyt 0 0 0 12) ∧
    decode 0x1A101010 = .ok (.cpyx 0 0 0 8 4) ∧ decode 0x1A202800 = .ok (.cpyr 0 0 0 20) ∧ decode 0x1A301200 = .ok (.tlw 0 9 0) ∧
    decode 0x1A381800 = .ok (.collAr 0 0 12) ∧ decode 0x1A501818 = .ok (.csred 0 0 12 6) ∧ decode 0x1A592000 = .ok (.cprio 0 9) :=
  ⟨rfl, rfl, rfl, rfl, rfl, rfl, rfl, rfl, rfl, rfl, rfl, rfl, rfl, rfl, rfl⟩
theorem test_examples_sync :
    decode 0x1B028000 = .ok (.fence 0 1 2) ∧ decode 0x1B408280 = .ok (.acqr 0 4 5) ∧ decode 0x1B826000 = .ok (.bar 0 1 3) ∧
    decode 0x1BA88000 = .ok (.twt 0 4) ∧ decode 0x1BB0E000 = .ok (.snuff 0 7) ∧ decode 0x1BC8A000 = .ok (.rsig 0 5) :=
  ⟨rfl, rfl, rfl, rfl, rfl, rfl⟩

/-- Run one instruction and look at the state it leads to. -/
def after (i : Instr) (s : State) (p : State → Bool) : Bool := goesTo (exec i s) p
theorem test_gmulh : after (.gmulh 0 4 2 3) (withG prog [0, 0xFFFFFFFFFFFFFFFE, 3]) (fun t => t.regs.getG 4 == 0xFFFFFFFFFFFFFFFF) = true := by
  decide +kernel
theorem test_gcmpLtn : after (.gcmpLtn 0 1 2 3) (withG prog [0, 0xFFFFFFFFFFFFFFFF, 1]) (fun t => t.regs.getQ 1 == false) = true := by
  decide +kernel
theorem test_gaddi : after (.gaddi 0 3 0x1FFF8) (withG prog [0, 0, 0x40]) (fun t => t.regs.getG 3 == 0x38) = true := by decide +kernel
theorem test_pballot : after (.pballot 0 9 1) (splOf (regsOf prog fun r => r.setP 1 0xFFFFFFFF 0xC) fun x => { x with mask := 0x3FF })
    (fun t => t.regs.getG 9 == 0xC) = true := by decide +kernel
theorem test_trap : after (.trap 0 17) (handled prog) (fun t => t.grp.trap.tcause == 0x110E) = true := by decide +kernel
theorem test_vmulh : after (.vmulh 0 4 1 2) (withV (withV (typed 8) 1 fun _ => 0x40000000) 2 fun _ => 4) (fun t => t.regs.getV 4 31 == 1) = true := by
  decide +kernel
theorem test_vexp2 : after (.vexp2 0 9 1) (withV single 1 fun _ => 0xBF800000) (fun t => t.regs.getV 9 0 == 0x3F000000) = true := by
  decide +kernel
theorem test_vtwosum : after (.vtwosum 0 6 2 3) (withV (withV single 2 fun _ => 0x4B800000) 3 fun _ => 0x3F800000)
    (fun t => t.regs.getV 6 0 == 0x4B800000 && t.regs.getV 7 0 == 0x3F800000) = true := by decide +kernel
theorem test_vclz : after (.vclz 0 4 2) (withV prog 2 fun _ => 0x8000) (fun t => t.regs.getV 4 5 == 16) = true := by decide +kernel
theorem test_vcmpLt : after (.vcmpLt 0 1 2 3) (withV prog 2 fun _ => 0x7FC00000) (fun t => (t.regs.getP 1).has 3 == false) = true := by
  decide +kernel
theorem test_vlane : after (.vlane 0 5 3 4) (withV (withG prog [0, 0, 0, 7]) 3 fun l => BitVec.ofNat 32 (100 + l))
    (fun t => t.regs.getG 5 == 107) = true := by decide +kernel
theorem test_vmix : after (.vmix 0 7 8 9) prog (fun t => t.regs.getV 7 31 == 0) = true := by decide +kernel
theorem test_vcvtBf16 : after (.vcvtBf16 0 2 1) (withV prog 1 fun _ => 0x3F804000) (fun t => t.regs.getV 2 0 == 0x00003F80) = true := by
  decide +kernel
theorem test_vunpk : after (.vunpk 0 6 4) (withV prog 4 fun _ => 0x40003F80) (fun t => t.regs.getV 6 9 == 0x3F80 && t.regs.getV 7 9 == 0x4000) = true := by
  decide +kernel
theorem test_vperm : after (.vperm 0 4 5 6) (withV (withV prog 5 fun l => BitVec.ofNat 32 l) 6 fun l => BitVec.ofNat 32 (31 - l))
    (fun t => lanes.all fun l => t.regs.getV 4 l == BitVec.ofNat 32 (31 - l)) = true := by decide +kernel
theorem test_vbcl : after (.vbcl 0 4 5 2) (withV prog 5 fun l => BitVec.ofNat 32 (9 + l)) (fun t => lanes.all fun l => t.regs.getV 4 l == 9) = true := by
  decide +kernel
/-- Lanes 0 and 1 of f32 3 and 4, the others 0: their sum is 7. -/
theorem test_vredAdd : after (.vredAdd 0 3 4) (withV prog 4 fun l => if l = 0 then 0x40400000 else if l = 1 then 0x40800000 else 0)
    (fun t => t.regs.getG 3 == 0x40E00000) = true := by decide +kernel
/-- A store and the load of the same word (R265, R266); an atomic addition returns the old word (R279). -/
theorem test_store_load : after (.stB32 0 5 1 3) (withV (at_ data 0x20000 4) 5 fun l => BitVec.ofNat 32 (7 + l))
    (fun t => after (.ldB32 0 6 1 3) t fun u => u.regs.getV 6 31 == 38 && u.byteAt 0x10007C == 0) = true := by decide +kernel
theorem test_atomAdd : after (.atomAdd 0 0 0 2 1 3) (withV (put (at_ data 0x20000 4) 0x10007C 4 40) 2 fun _ => 2)
    (fun t => t.regs.getV 2 31 == 40 && t.byteAt 0x10007C == 42) = true := by decide +kernel


end Sys2Proof.Tests
end

/-! PROOFS. The fields of a word of the forms of R80 and R82, and the words that a form of operands refuses (R8, R81). -/

namespace Sys2Proof

section Fields

variable (s n : BitVec 3) (m : BitVec 5) (d a b : BitVec 7) (k : BitVec 17)

open BitVec (extractLsb'_append_eq_of_le extractLsb'_append_eq_left extractLsb'_append_eq_right)

@[simp] theorem fld_rWord_stall : fld 29 3 (rWord s m n d a b) = s := by
  unfold fld rWord
  rw [extractLsb'_append_eq_of_le (by decide), extractLsb'_append_eq_of_le (by decide),
    extractLsb'_append_eq_of_le (by decide), extractLsb'_append_eq_of_le (by decide)]
  exact extractLsb'_append_eq_left
@[simp] theorem fld_rWord_major : fld 24 5 (rWord s m n d a b) = m := by
  unfold fld rWord
  rw [extractLsb'_append_eq_of_le (by decide), extractLsb'_append_eq_of_le (by decide),
    extractLsb'_append_eq_of_le (by decide), extractLsb'_append_eq_of_le (by decide)]
  exact extractLsb'_append_eq_right
@[simp] theorem fld_rWord_minor : fld 21 3 (rWord s m n d a b) = n := by
  unfold fld rWord
  rw [extractLsb'_append_eq_of_le (by decide), extractLsb'_append_eq_of_le (by decide),
    extractLsb'_append_eq_of_le (by decide)]
  exact extractLsb'_append_eq_right
@[simp] theorem fld_rWord_d : fld 14 7 (rWord s m n d a b) = d := by
  unfold fld rWord
  rw [extractLsb'_append_eq_of_le (by decide), extractLsb'_append_eq_of_le (by decide)]
  exact extractLsb'_append_eq_right
@[simp] theorem fld_rWord_a : fld 7 7 (rWord s m n d a b) = a := by
  unfold fld rWord
  rw [extractLsb'_append_eq_of_le (by decide)]
  exact extractLsb'_append_eq_right
@[simp] theorem fld_rWord_b : fld 0 7 (rWord s m n d a b) = b := extractLsb'_append_eq_right

@[simp] theorem fld_iWord_stall : fld 29 3 (iWord s m d k) = s := by
  unfold fld iWord
  rw [extractLsb'_append_eq_of_le (by decide), extractLsb'_append_eq_of_le (by decide)]
  exact extractLsb'_append_eq_left
@[simp] theorem fld_iWord_major : fld 24 5 (iWord s m d k) = m := by
  unfold fld iWord
  rw [extractLsb'_append_eq_of_le (by decide), extractLsb'_append_eq_of_le (by decide)]
  exact extractLsb'_append_eq_right
@[simp] theorem fld_iWord_d : fld 17 7 (iWord s m d k) = d := by
  unfold fld iWord
  rw [extractLsb'_append_eq_of_le (by decide)]
  exact extractLsb'_append_eq_right
@[simp] theorem fld_iWord_k : fld 0 17 (iWord s m d k) = k := extractLsb'_append_eq_right

theorem decode_rWord_major09 : decode (rWord s 0x09 n d a b) = major09 s n d a b := by simp [decode]
theorem decode_rWord_major10 : decode (rWord s 0x10 n d a b) = major10 s n d a b := by simp [decode]
theorem decode_rWord_major11 : decode (rWord s 0x11 n d a b) = major11 s n d a b := by simp [decode]
theorem decode_rWord_major12 : decode (rWord s 0x12 n d a b) = major12 s n d a b := by simp [decode]
theorem decode_rWord_major13 : decode (rWord s 0x13 n d a b) = major13 s n d a b := by simp [decode]
theorem decode_iWord_major17 : decode (iWord s 0x17 d k) = majorI 0x17 s d k := by simp [decode]
/-- M = 0x17 is `smodi` alone: bit 15 of its immediate is reserved (R135). -/
theorem majorI_smodi : majorI 0x17 s d k = need (isG d) .groupField (need (k.extractLsb' 15 1 == 0) .reservedBits
    (.ok (.smodi s (toG d) (k.extractLsb' 16 1) (k.extractLsb' 0 15)))) := rfl

end Fields

section Forms

@[simp] theorem isG_eq_false {x : BitVec 7} : isG x = false ↔ 64 ≤ x.toNat := by simp [isG]
@[simp] theorem isP_eq_false {x : BitVec 7} : isP x = false ↔ 8 ≤ x.toNat := by simp [isP]

@[simp] theorem need_rejects {c : Bool} {x : Reject} {k : Except Reject Instr} :
    (∃ r, need c x k = .error r) ↔ c = false ∨ ∃ r, k = .error r := by
  cases c <;> simp [need]

variable {d a b : BitVec 7}

theorem formPPP_rejects {mk : BitVec 3 → BitVec 3 → BitVec 3 → Instr} :
    (∃ r, formPPP mk d a b = .error r) ↔ 8 ≤ d.toNat ∨ 8 ≤ a.toNat ∨ 8 ≤ b.toNat := by
  simp [formPPP, -Bool.and_eq_false_imp, Bool.and_eq_false_iff, or_assoc]
theorem formPPZ_rejects {mk : BitVec 3 → BitVec 3 → Instr} :
    (∃ r, formPPZ mk d a b = .error r) ↔ b ≠ 0 ∨ 8 ≤ d.toNat ∨ 8 ≤ a.toNat := by
  simp [formPPZ, -Bool.and_eq_false_imp, Bool.and_eq_false_iff]
theorem formPGZ_rejects {mk : BitVec 3 → BitVec 6 → Instr} :
    (∃ r, formPGZ mk d a b = .error r) ↔ b ≠ 0 ∨ 8 ≤ d.toNat ∨ 64 ≤ a.toNat := by
  simp [formPGZ]
theorem formPGG_rejects {mk : BitVec 3 → BitVec 6 → BitVec 6 → Instr} :
    (∃ r, formPGG mk d a b = .error r) ↔ 8 ≤ d.toNat ∨ 64 ≤ a.toNat ∨ 64 ≤ b.toNat := by
  simp [formPGG, -Bool.and_eq_false_imp, Bool.and_eq_false_iff]
theorem formGPZ_rejects {mk : BitVec 6 → BitVec 3 → Instr} :
    (∃ r, formGPZ mk d a b = .error r) ↔ b ≠ 0 ∨ 64 ≤ d.toNat ∨ 8 ≤ a.toNat := by
  simp [formGPZ]
theorem formGPG_rejects {mk : BitVec 6 → BitVec 3 → BitVec 6 → Instr} :
    (∃ r, formGPG mk d a b = .error r) ↔ 64 ≤ d.toNat ∨ 64 ≤ b.toNat ∨ 8 ≤ a.toNat := by
  simp [formGPG, -Bool.and_eq_false_imp, Bool.and_eq_false_iff, or_assoc]
theorem formGGZ_rejects {mk : BitVec 6 → BitVec 6 → Instr} :
    (∃ r, formGGZ mk d a b = .error r) ↔ b ≠ 0 ∨ 64 ≤ d.toNat ∨ 64 ≤ a.toNat := by
  simp [formGGZ, -Bool.and_eq_false_imp, Bool.and_eq_false_iff]
theorem formGGG_rejects {mk : BitVec 6 → BitVec 6 → BitVec 6 → Instr} :
    (∃ r, formGGG mk d a b = .error r) ↔ 64 ≤ d.toNat ∨ 64 ≤ a.toNat ∨ 64 ≤ b.toNat := by
  simp [formGGG, -Bool.and_eq_false_imp, Bool.and_eq_false_iff, or_assoc]
theorem formZGZ_rejects {mk : BitVec 6 → Instr} :
    (∃ r, formZGZ mk d a b = .error r) ↔ d ≠ 0 ∨ b ≠ 0 ∨ 64 ≤ a.toNat := by
  simp [formZGZ, -Bool.and_eq_false_imp, Bool.and_eq_false_iff, or_assoc]
theorem formGZZ_rejects {mk : BitVec 6 → Instr} :
    (∃ r, formGZZ mk d a b = .error r) ↔ a ≠ 0 ∨ b ≠ 0 ∨ 64 ≤ d.toNat := by
  simp [formGZZ, -Bool.and_eq_false_imp, Bool.and_eq_false_iff, or_assoc]

end Forms

section Majors

variable (s : BitVec 3) (d a b : BitVec 7)

/-- Of M = 0x10 only the copy has no second source (R132). -/
theorem major10_formGGG {n : BitVec 3} (h : n ≠ 0) : ∃ mk, major10 s n d a b = formGGG mk d a b := by
  obtain rfl | rfl | rfl | rfl | rfl | rfl | rfl : n = 1 ∨ n = 2 ∨ n = 3 ∨ n = 4 ∨ n = 5 ∨ n = 6 ∨ n = 7 := by decide +revert
  all_goals exact ⟨_, rfl⟩
/-- Of M = 0x11 only the selection has a predicate among its sources (R132). -/
theorem major11_formGGG {n : BitVec 3} (h : n ≠ 7) : ∃ mk, major11 s n d a b = formGGG mk d a b := by
  obtain rfl | rfl | rfl | rfl | rfl | rfl | rfl : n = 0 ∨ n = 1 ∨ n = 2 ∨ n = 3 ∨ n = 4 ∨ n = 5 ∨ n = 6 := by decide +revert
  all_goals exact ⟨_, rfl⟩
theorem major12_formGGZ {n : BitVec 3} (h : n.toNat < 2) : ∃ mk, major12 s n d a b = formGGZ mk d a b := by
  obtain rfl | rfl : n = 0 ∨ n = 1 := by decide +revert
  all_goals exact ⟨_, rfl⟩
/-- The compares of M = 0x12 (R133). -/
theorem major12_formPGG {n : BitVec 3} (h : 2 ≤ n.toNat) : ∃ mk, major12 s n d a b = formPGG mk d a b := by
  obtain rfl | rfl | rfl | rfl | rfl | rfl : n = 2 ∨ n = 3 ∨ n = 4 ∨ n = 5 ∨ n = 6 ∨ n = 7 := by decide +revert
  all_goals exact ⟨_, rfl⟩
/-- The operations of M = 0x09 on two lane predicates (R137). -/
theorem major09_formPPP {n : BitVec 3} (h : n.toNat < 3) : ∃ mk, major09 s n d a b = formPPP mk d a b := by
  obtain rfl | rfl | rfl : n = 0 ∨ n = 1 ∨ n = 2 := by decide +revert
  all_goals exact ⟨_, rfl⟩

end Majors

/-! The words that the majors of the group registers, the predicates and GMODE refuse (R99, R105). -/

section Refusals

variable {s n : BitVec 3} {d a b : BitVec 7}

theorem major09_rejects_laneOp (hn : n.toNat < 4) (h : 8 ≤ d.toNat ∨ 8 ≤ a.toNat ∨ 8 ≤ b.toNat ∨ (n = 3 ∧ b ≠ 0)) :
    ∃ r, decode (rWord s 0x09 n d a b) = .error r := by
  rw [decode_rWord_major09]
  by_cases h3 : n = 3
  · subst h3
    have hb : 8 ≤ b.toNat → b ≠ 0 := by rintro hb rfl; simp at hb
    exact formPPZ_rejects.2 (by tauto)
  · obtain ⟨mk, hmk⟩ := major09_formPPP s d a b (n := n) (by bv_omega)
    rw [hmk]
    exact formPPP_rejects.2 (by tauto)

theorem major09_rejects_transfer (hn : 4 ≤ n.toNat)
    (h : b ≠ 0 ∨ (if n = 6 then 64 else 8) ≤ d.toNat ∨ (if n = 7 then 64 else 8) ≤ a.toNat) :
    ∃ r, decode (rWord s 0x09 n d a b) = .error r := by
  rw [decode_rWord_major09]
  obtain rfl | rfl | rfl | rfl : n = 4 ∨ n = 5 ∨ n = 6 ∨ n = 7 := by clear h; decide +revert
  · exact formPPZ_rejects.2 (by simpa using h)
  · exact formPPZ_rejects.2 (by simpa using h)
  · exact formGPZ_rejects.2 (by simpa using h)
  · exact formPGZ_rejects.2 (by simpa using h)

theorem major10_rejects (h : 64 ≤ d.toNat ∨ 64 ≤ a.toNat ∨ (if n = 0 then b ≠ 0 else 64 ≤ b.toNat)) :
    ∃ r, decode (rWord s 0x10 n d a b) = .error r := by
  rw [decode_rWord_major10]
  by_cases h0 : n = 0
  · subst h0
    rw [if_pos rfl] at h
    exact formGGZ_rejects.2 (by tauto)
  · obtain ⟨mk, hmk⟩ := major10_formGGG s d a b h0
    rw [hmk]
    exact formGGG_rejects.2 (by rwa [if_neg h0] at h)

theorem major11_rejects (h : 64 ≤ d.toNat ∨ (if n = 7 then 8 else 64) ≤ a.toNat ∨ 64 ≤ b.toNat) :
    ∃ r, decode (rWord s 0x11 n d a b) = .error r := by
  rw [decode_rWord_major11]
  by_cases h7 : n = 7
  · subst h7
    rw [if_pos rfl] at h
    exact formGPG_rejects.2 (by tauto)
  · obtain ⟨mk, hmk⟩ := major11_formGGG s d a b h7
    rw [hmk]
    exact formGGG_rejects.2 (by rwa [if_neg h7] at h)

theorem major12_rejects_count (hn : n.toNat < 2) (h : 64 ≤ d.toNat ∨ 64 ≤ a.toNat ∨ b ≠ 0) :
    ∃ r, decode (rWord s 0x12 n d a b) = .error r := by
  obtain ⟨mk, hmk⟩ := major12_formGGZ s d a b hn
  rw [decode_rWord_major12, hmk]
  exact formGGZ_rejects.2 (by tauto)

theorem major12_rejects_compare (hn : 2 ≤ n.toNat) (h : 8 ≤ d.toNat ∨ 64 ≤ a.toNat ∨ 64 ≤ b.toNat) :
    ∃ r, decode (rWord s 0x12 n d a b) = .error r := by
  obtain ⟨mk, hmk⟩ := major12_formPGG s d a b hn
  rw [decode_rWord_major12, hmk]
  exact formPGG_rejects.2 h

theorem smode_rejects (h : d ≠ 0 ∨ 64 ≤ a.toNat ∨ b ≠ 0) : ∃ r, decode (rWord s 0x13 4 d a b) = .error r := by
  rw [decode_rWord_major13]
  exact formZGZ_rejects.2 (by tauto)

theorem gmode_rejects (h : 64 ≤ d.toNat ∨ a ≠ 0 ∨ b ≠ 0) : ∃ r, decode (rWord s 0x13 5 d a b) = .error r := by
  rw [decode_rWord_major13]
  exact formGZZ_rejects.2 (by tauto)

theorem smodi_rejects {k : BitVec 17} (h : 64 ≤ d.toNat ∨ k.getLsbD 15 = true) : ∃ r, decode (iWord s 0x17 d k) = .error r := by
  rw [decode_iWord_major17, majorI_smodi, need_rejects, need_rejects, isG_eq_false]
  refine h.imp_right fun hk => .inl (beq_eq_false_iff_ne.2 fun h0 => ?_)
  have hbit : (k.extractLsb' 15 1).getLsbD 0 = k.getLsbD 15 := by simp
  rw [h0, hk] at hbit
  exact absurd hbit (by decide)

end Refusals

end Sys2Proof

/-! PROOFS. Lane predicates: masks lane by lane, and what a lane-predicate instruction answers (R96, R137). -/

namespace Sys2Proof

theorem Mask.has_not (m : Mask) {l : Nat} (hl : l < 32) : Mask.has (~~~m) l = !m.has l := by simp [Mask.has, hl]

theorem Mask.eq_zero_iff (m : Mask) : m = 0 ↔ ∀ l, l < 32 → m.has l = false :=
  ⟨by rintro rfl l -; simp [Mask.has], fun h => BitVec.eq_of_getLsbD_eq fun l hl => by simpa using h l hl⟩

theorem Mask.any_and (m x : Mask) : lanes.any (fun l => m.has l && x.has l) = (m &&& x != 0) := by
  rw [Bool.eq_iff_iff, bne_iff_ne, Ne, Mask.eq_zero_iff]
  simp

theorem Mask.all_imp (m x : Mask) : lanes.all (fun l => !m.has l || x.has l) = (m &&& ~~~x == 0) := by
  rw [Bool.eq_iff_iff, beq_iff_eq, Mask.eq_zero_iff]
  simp +contextual [imp_iff_not_or]

/-- A meeting of masks as a number of 64 bits. -/
theorem Mask.getLsbD_zext_and (m x : Mask) (l : Nat) :
    (zext 64 (m &&& x)).getLsbD l = (decide (l < 32) && (m.has l && x.has l)) := by
  by_cases hl : l < 32
  · simp [hl, show l < 64 by omega]
  · simp [hl, BitVec.getLsbD_of_ge _ _ (Nat.le_of_not_lt hl)]

theorem Mask.has_full {l : Nat} (hl : l < 32) : Mask.has 0xFFFFFFFF#32 l = true := by decide +revert

end Sys2Proof

namespace Sys2Proof.Machine

/-- A vector instruction whose result is a lane predicate: without an active lane nothing is written. -/
theorem State.answersP_vector (s : State) (i : Instr) (d : Nat) (lat : Option Nat) (x : Mask)
    (h : exec i s = s.vector (s.wrP d s.active x lat).done) : s.answersP i d lat x.has := by
  by_cases ha : s.active = 0
  · refine ⟨s.retire, by simp [h, State.vector, ha, State.done], fun l hl => ?_, by simp [ha],
      State.completes_mono s.completes_done (by simp) (by simp) (by simp) (by simp) (by simp) (by simp) (by simp)⟩
    by_cases hd : d = 0
    · simpa [hd] using Mask.has_full hl
    · simp [hd, ha]
  · exact s.answersP_wrP i d lat x (by rw [h, State.vector, if_neg ha])

/-- What a lane predicate becomes is a matter of its 32 lanes alone. -/
theorem State.answersP_congr {s : State} {i : Instr} {d : Nat} {lat : Option Nat} {x y : Nat → Bool}
    (h : s.answersP i d lat x) (hxy : ∀ l, l < 32 → x l = y l) : s.answersP i d lat y := by
  obtain ⟨t, he, hv, hp, hc⟩ := h
  exact ⟨t, he, fun l hl => by rw [hv l hl, hxy l hl], hp, hc⟩

theorem State.answersP_lanePred {s : State} {i : Instr} {d : BitVec 3} {x : Mask} {f : Nat → Bool}
    (h : exec i s = s.lanePred d.toNat x) (hf : ∀ l, l < 32 → x.has l = f l) : s.answersP i d.toNat (some 4) f :=
  State.answersP_congr (s.answersP_vector i d.toNat latAlu x h) hf

/-- A group-predicate result of four cycles. -/
theorem State.answersQ_alu {s : State} {i : Instr} {d : BitVec 3} {x y : Bool}
    (h : exec i s = (s.wrQ d.toNat x latAlu).done) (hx : x = y) : s.answersQ i d.toNat (some 4) y :=
  hx ▸ s.answersQ_wrQ i d.toNat latAlu x d.isLt h

/-- A group-register result of four cycles (R131). -/
theorem State.answersG_groupResult {s : State} {i : Instr} {d : BitVec 6} {x y : DWord}
    (h : exec i s = s.groupResult d x) (hx : x = y) : s.answersG i d.toNat (some 4) y :=
  hx ▸ s.answersG_wrG i d.toNat latAlu x h

end Sys2Proof.Machine

/-! PROOFS. The results of R131 that the model computes otherwise than their definitions say. -/

namespace Sys2Proof.Machine

theorem leadingZeros_leadsWith {w : Nat} (x : BitVec w) : leadsWith x (leadingZeros x) := by
  by_cases hx : x = 0
  · subst hx
    simp [leadsWith, leadingZeros]
  · have hne : x.toNat ≠ 0 := fun h => hx (BitVec.eq_of_toNat_eq (by simpa using h))
    have hlt : x.toNat.log2 < w := (Nat.log2_lt hne).2 x.isLt
    rw [leadsWith, leadingZeros, if_neg hx]
    refine ⟨by omega, fun j hj hw => ?_, fun _ => ?_⟩
    · have : x.toNat < 2 ^ j := (Nat.log2_lt hne).1 (by omega)
      exact Nat.testBit_lt_two_pow this
    · rw [show w - 1 - (w - 1 - x.toNat.log2) = x.toNat.log2 by omega]
      exact Nat.testBit_log2 hne

/-- A count made one by one is that of the library. -/
theorem foldl_count_eq_countP (p : Nat → Bool) (l : List Nat) (k : Nat) :
    l.foldl (fun n i => if p i then n + 1 else n) k = k + l.countP p := by
  induction l generalizing k with
  | nil => simp
  | cons x l ih =>
    rw [List.foldl_cons, ih, List.countP_cons]
    split <;> omega

theorem oneBits_eq_countP {w : Nat} (x : BitVec w) : oneBits x = (List.range w).countP x.getLsbD := by
  rw [oneBits, foldl_count_eq_countP, Nat.zero_add]

/-- The high half of a product of 128 bits. -/
theorem ofInt_div_eq_extract (z : Int) : BitVec.ofInt 64 (z / 2 ^ 64) = (BitVec.ofInt 128 z).extractLsb' 64 64 := by
  refine BitVec.eq_of_toNat_eq ?_
  rw [BitVec.extractLsb'_toNat, BitVec.toNat_ofInt, BitVec.toNat_ofInt, Nat.shiftRight_eq_div_pow]
  norm_num
  omega

/-- An arithmetic shift by 64 or more leaves the sign alone. -/
theorem sar64_eq (x y : DWord) : sar64 x y =
    if y.toNat < 64 then x.sshiftRight y.toNat else if x.getLsbD 63 then BitVec.allOnes 64 else 0 := by
  rw [sar64]
  split
  case isTrue h => rw [Nat.min_eq_left (by omega)]
  case isFalse h =>
    rw [Nat.min_eq_right (by omega)]
    refine BitVec.eq_of_getLsbD_eq fun i hi => ?_
    have hbit : (x.sshiftRight 63).getLsbD i = x.getLsbD 63 := by
      rw [BitVec.getLsbD_sshiftRight]
      by_cases h0 : i = 0
      · simp [h0]
      · simp [show ¬64 ≤ i by omega, show ¬63 + i < 64 by omega, BitVec.msb_eq_getLsbD_last]
    rw [hbit]
    cases x.getLsbD 63 with
    | false => simp
    | true => rw [if_pos rfl, BitVec.getLsbD_allOnes, decide_eq_true hi]

theorem slt_select (x y a b : DWord) : (if x.slt y then a else b) = if y.toInt ≤ x.toInt then b else a := by
  simp only [BitVec.slt_iff_toInt_lt, ← Int.not_le, ite_not]

theorem ult_select (x y a b : DWord) : (if x.ult y then a else b) = if y.toNat ≤ x.toNat then b else a := by
  simp only [BitVec.ult_iff_lt, BitVec.lt_def, ← Nat.not_le, ite_not]

end Sys2Proof.Machine

/-! PROOFS. GMODE: the values that R95 accepts, and what writing it does (R135, R136). -/

namespace Sys2Proof.Machine

theorem modeLegal_iff (m : Word) : modeLegal m = true ↔
    m.extractLsb' 24 8 = 0 ∧ m.getLsbD 15 = false ∧ (m.extractLsb' 4 3).toNat < 6 ∧ (m.extractLsb' 0 4).toNat < 0xC := by
  simp only [modeLegal, modeRnd, modeType, Bool.and_eq_true, beq_iff_eq, Bool.not_eq_true', decide_eq_true_eq,
    Nat.le_iff_lt_add_one, and_assoc]

theorem State.checked_of_true {s : State} {ok : Bool} (k : Out) (h : ok = true) : s.checked ok k = k := by simp [State.checked, h]

theorem State.refusesOperand_of_checked {s : State} {i : Instr} {ok : Bool} {k : Out} (he : exec i s = s.checked ok k) (h : ¬ok = true) :
    s.refusesOperand i := by
  rw [State.refusesOperand, he, State.checked, if_neg h]; rfl

/-- GMODE written, in flight until the next instruction. -/
theorem State.completes_setMode (s : State) (m : Word) :
    (s.setMode m).retire.regs.gmode = m ∧ s.completes (s.setMode m).retire s.nextSplit { mode := true } false := by
  obtain ⟨hc, -, hr⟩ := s.completes_marked .mode 0 (some 0) { s.regs with gmode := m } { mode := true } rfl (by simp [Regs.leaves])
  exact ⟨by rw [State.setMode, hr]; rfl, hc⟩

@[simp] theorem State.wrG_tseq (s : State) (d : Nat) (x : DWord) (lat : Option Nat) : (s.wrG d x lat).tseq = s.tseq := by
  simp [State.tseq, State.spl, State.splitAt, State.wrG, State.mark]

/-- A write of a group register and then one of GMODE, as one change of the group. -/
theorem State.wrG_setMode_eq (s : State) (d : Nat) (x : DWord) (lat : Option Nat) (m : Word) :
    ∃ e f : Inflight, s.InFlight e (.g d) lat ∧ s.InFlight f .mode (some 0) ∧
      (s.wrG d x lat).setMode m = s.setGrp (s.grp.wrote { s.regs.setG d x with gmode := m } [f, e]) := by
  obtain ⟨e, he, h1⟩ := s.mark_eq (.g d) 0 lat (s.regs.setG d x)
  obtain ⟨f, hf, h2⟩ := (s.wrG d x lat).mark_eq .mode 0 (some 0) { (s.wrG d x lat).regs with gmode := m }
  refine ⟨e, f, he, ?_, ?_⟩
  · obtain ⟨hreg, hslot, htseq, hready⟩ := hf
    exact ⟨hreg, hslot, htseq.trans (s.wrG_tseq d x lat), hready⟩
  · rw [State.setMode, h2, State.wrG, h1]
    simp [Group.wrote]

/-- GMODE written with its old value into a group register (R135): both are results in flight. -/
theorem State.completes_wrG_setMode (s : State) (d : Nat) (x : DWord) (lat : Option Nat) (m : Word) :
    ((s.wrG d x lat).setMode m).retire.regs.gmode = m ∧ ((s.wrG d x lat).setMode m).retire.regs.getG d = x ∧
      s.pends ((s.wrG d x lat).setMode m).retire (.g d) lat ∧
      s.completes ((s.wrG d x lat).setMode m).retire s.nextSplit { g := (· == d), mode := true } false := by
  obtain ⟨e, f, he, hf, heq⟩ := s.wrG_setMode_eq d x lat m
  rw [heq, State.wrote_regs]
  refine ⟨rfl, (Regs.getG_setG _ _ _ _).trans (if_pos rfl), s.pends_wrote _ e _ (by simp) he,
    s.completes_wrote _ _ _ ?_ (Regs.leaves_clock ?_)⟩
  · simp [he.1, hf.1, Writes.names]
  · exact ⟨fun _ _ _ _ => rfl, fun n hn => (Regs.getG_setG _ _ _ _).trans (if_neg (by simpa using hn)), fun _ _ => rfl, fun _ _ => rfl,
      fun _ _ => rfl, nofun, fun _ => rfl, fun _ _ _ => rfl, rfl, rfl, rfl⟩

theorem smodiValue_eq (old : Word) (z : BitVec 1) (k : BitVec 15) : smodiValue old z k =
    (if z = 1 then (0 : Word) else (old.extractLsb' 16 8).setWidth 32 <<< 16) ||| k.setWidth 32 := by
  simp [smodiValue]

end Sys2Proof.Machine

/-! PROOFS. The statements on the control system (05): predicates, group registers and GMODE. -/

namespace Sys2Proof.Machine

/-- Settles O20: each operation acts lane by lane, and without an active lane nothing is written. -/
theorem lanePredicates : Obligations.LanePredicates := by
  intro s st d a b
  refine ⟨⟨rfl, ?_⟩, ⟨rfl, ?_⟩, ⟨rfl, ?_⟩, ⟨rfl, ?_⟩, fun n u v w => major09_rejects_laneOp⟩
  · exact State.answersP_lanePred rfl fun l _ => BitVec.getLsbD_and
  · exact State.answersP_lanePred rfl fun l _ => BitVec.getLsbD_or
  · exact State.answersP_lanePred rfl fun l _ => BitVec.getLsbD_xor
  · exact State.answersP_lanePred rfl fun l hl => Mask.has_not _ hl

/-- Settles O22: the quantifiers over the active lanes are tests of a mask for 0. -/
theorem lanesAndGroup : Obligations.LanesAndGroup := by
  intro s st d p g
  refine ⟨⟨rfl, ?_⟩, ⟨rfl, ?_⟩, ⟨rfl, ?_⟩, ⟨rfl, ?_⟩, fun n u v w => major09_rejects_transfer⟩
  · exact State.answersQ_alu rfl (Mask.any_and _ _).symm
  · exact State.answersQ_alu rfl (Mask.all_imp _ _).symm
  · exact ⟨_, fun l => Mask.getLsbD_zext_and _ _ l, State.answersG_groupResult rfl rfl⟩
  · exact State.answersP_lanePred rfl fun l hl => by simp [hl]

/-- Settles O23: the results that the model computes otherwise than the statement says are `gmulh`, `gsar`, the four
selections by order, `gclz` and `gpop`. -/
theorem groupArithmetic : Obligations.GroupArithmetic := by
  intro s st d a b q
  refine ⟨⟨rfl, ?gmov⟩, ⟨rfl, ?gadd⟩, ⟨rfl, ?gsub⟩, ⟨rfl, ?gmul⟩, ⟨rfl, ?gmulh⟩, ⟨rfl, ?gand⟩, ⟨rfl, ?gor⟩, ⟨rfl, ?gxor⟩,
    ⟨rfl, ?gshl⟩, ⟨rfl, ?gshr⟩, ⟨rfl, ?gsar⟩, ⟨rfl, ?gmin⟩, ⟨rfl, ?gmax⟩, ⟨rfl, ?gminn⟩, ⟨rfl, ?gmaxn⟩, ⟨rfl, ?gsel⟩,
    ⟨_, leadingZeros_leadsWith _, rfl, ?gclz⟩, ⟨rfl, ?gpop⟩,
    fun n u v w => ⟨major10_rejects, major11_rejects, major12_rejects_count⟩⟩
  case gmulh => exact State.answersG_groupResult rfl (ofInt_div_eq_extract _)
  case gsar => exact State.answersG_groupResult rfl (sar64_eq _ _)
  case gmin | gmax => exact State.answersG_groupResult rfl (slt_select _ _ _ _)
  case gminn | gmaxn => exact State.answersG_groupResult rfl (ult_select _ _ _ _)
  case gpop => exact State.answersG_groupResult rfl (congrArg (BitVec.ofNat 64) (oneBits_eq_countP _))
  all_goals exact State.answersG_groupResult rfl rfl

/-- Settles O24: the model's compares of words are those of their values. -/
theorem groupCompare : Obligations.GroupCompare := by
  intro s st d a b
  refine ⟨⟨rfl, ?eq⟩, ⟨rfl, ?ne⟩, ⟨rfl, ?lt⟩, ⟨rfl, ?le⟩, ⟨rfl, ?ltn⟩, ⟨rfl, ?len⟩, fun n u v w => major12_rejects_compare⟩
  case eq => exact State.answersQ_alu rfl (beq_eq_decide _ _)
  case ne => exact State.answersQ_alu rfl (by rw [bne, beq_eq_decide, decide_not])
  case lt => exact State.answersQ_alu rfl BitVec.slt_eq_decide
  case le => exact State.answersQ_alu rfl BitVec.sle_eq_decide
  case ltn => exact State.answersQ_alu rfl BitVec.ult_eq_decide
  case len => exact State.answersQ_alu rfl BitVec.ule_eq_decide

/-- Settles O26: both writers test the value first, and R95 accepts what the model's test does. -/
theorem modeRegister : Obligations.ModeRegister := by
  intro s st d z k
  refine ⟨⟨rfl, rfl, rfl⟩, fun hhi hlegal => ?_, fun hbad => ?_, State.answersG_groupResult rfl rfl, fun hlegal => ?_, fun hbad => ?_,
    fun u v w x => ⟨smode_rejects, gmode_rejects, smodi_rejects⟩⟩
  · refine ⟨_, State.checked_of_true _ ?_, s.completes_setMode _⟩
    rw [Bool.and_eq_true, beq_iff_eq, modeLegal_iff]
    exact ⟨hhi, hlegal⟩
  · refine State.refusesOperand_of_checked rfl fun h => hbad ?_
    rwa [Bool.and_eq_true, beq_iff_eq, modeLegal_iff] at h
  · rw [← smodiValue_eq, ← modeLegal_iff] at hlegal
    rw [← smodiValue_eq]
    exact ⟨_, State.checked_of_true _ hlegal, s.completes_wrG_setMode _ _ _ _⟩
  · refine State.refusesOperand_of_checked rfl fun h => hbad ?_
    rwa [modeLegal_iff, smodiValue_eq] at h

end Sys2Proof.Machine

/-! PROOFS. The words that the majors of the vector instructions refuse (R81, R99, R193 to R195). -/

namespace Sys2Proof

section VectorForms

variable {d a b : BitVec 7}

theorem formVVZ_rejects {mk : BitVec 7 → BitVec 7 → Instr} : (∃ r, formVVZ mk d a b = .error r) ↔ b ≠ 0 := by
  simp [formVVZ]
theorem formPVV_rejects {mk : BitVec 3 → BitVec 7 → BitVec 7 → Instr} : (∃ r, formPVV mk d a b = .error r) ↔ 8 ≤ d.toNat := by
  simp [formPVV]
theorem formVPV_rejects {mk : BitVec 7 → BitVec 3 → BitVec 7 → Instr} : (∃ r, formVPV mk d a b = .error r) ↔ 8 ≤ a.toNat := by
  simp [formVPV]
theorem formGVG_rejects {mk : BitVec 6 → BitVec 7 → BitVec 6 → Instr} :
    (∃ r, formGVG mk d a b = .error r) ↔ 64 ≤ d.toNat ∨ 64 ≤ b.toNat := by
  simp [formGVG, -Bool.and_eq_false_imp, Bool.and_eq_false_iff]

end VectorForms

section VectorRefusals

variable {s n : BitVec 3} {d a b : BitVec 7}

theorem decode_rWord_major02 : decode (rWord s 0x02 n d a b) = major02 s n d a b := by simp [decode]
theorem decode_rWord_major03 : decode (rWord s 0x03 n d a b) = major03 s n d a b := by simp [decode]
theorem decode_rWord_major04 : decode (rWord s 0x04 n d a b) = major04 s n d a b := by simp [decode]

/-- The compares of M = 0x04 (R194). -/
theorem major04_formPVV (s : BitVec 3) {n : BitVec 3} (d a b : BitVec 7) (h : n ≠ 0) : ∃ mk, major04 s n d a b = formPVV mk d a b := by
  obtain rfl | rfl | rfl | rfl | rfl | rfl | rfl : n = 1 ∨ n = 2 ∨ n = 3 ∨ n = 4 ∨ n = 5 ∨ n = 6 ∨ n = 7 := by decide +revert
  all_goals exact ⟨_, rfl⟩

theorem compare_rejects (hn : n ≠ 0) (h : 8 ≤ d.toNat) : ∃ r, decode (rWord s 0x04 n d a b) = .error r := by
  obtain ⟨mk, hmk⟩ := major04_formPVV s d a b hn
  rw [decode_rWord_major04, hmk]
  exact formPVV_rejects.2 h

/-- `vnot` and `vclz` (R193). -/
theorem major03_unary_rejects (hn : n = 3 ∨ n = 7) (h : b ≠ 0) : ∃ r, decode (rWord s 0x03 n d a b) = .error r := by
  rw [decode_rWord_major03]
  obtain rfl | rfl := hn
  all_goals exact formVVZ_rejects.2 h

theorem vpop_rejects (h : b ≠ 0) : ∃ r, decode (rWord s 0x04 0 d a b) = .error r := by
  rw [decode_rWord_major04]
  exact formVVZ_rejects.2 h

theorem vsel_rejects (h : 8 ≤ a.toNat) : ∃ r, decode (rWord s 0x02 3 d a b) = .error r := by
  rw [decode_rWord_major02]
  exact formVPV_rejects.2 h
theorem vmov_rejects (h : b ≠ 0) : ∃ r, decode (rWord s 0x02 4 d a b) = .error r := by
  rw [decode_rWord_major02]
  exact formVVZ_rejects.2 h
theorem vlane_rejects (h : 64 ≤ d.toNat ∨ 64 ≤ b.toNat) : ∃ r, decode (rWord s 0x02 6 d a b) = .error r := by
  rw [decode_rWord_major02]
  exact formGVG_rejects.2 h

/-- Of N = 5, field B tells `vbc` (0) from `vbc.hi` (1) and has no other value (R195). -/
theorem major02_broadcast : major02 s 5 d a b = need (isG a) .groupField
    (if b == 0 then .ok (.vbc s d (toG a)) else if b == 1 then .ok (.vbcHi s d (toG a)) else .error .reservedBits) := rfl

theorem vbc_rejects (h : 64 ≤ a.toNat ∨ 2 ≤ b.toNat) : ∃ r, decode (rWord s 0x02 5 d a b) = .error r := by
  rw [decode_rWord_major02, major02_broadcast, need_rejects, isG_eq_false]
  refine h.imp_right fun hb => ⟨.reservedBits, ?_⟩
  have h0 : b ≠ 0#7 := by rintro rfl; simp at hb
  have h1 : b ≠ 1#7 := by rintro rfl; simp at hb
  simp [h0, h1]

end VectorRefusals

end Sys2Proof

/-! PROOFS. What a vector instruction answers: a register, a pair of registers, or the trap of a test (R96, R106, R193, R201, R202). -/

namespace Sys2Proof.Machine

section Answers

variable {s : State} {i : Instr} {ok : Bool} {k : Out}

/-- Without an active lane a vector instruction has no effect and raises no trap (R96). -/
theorem State.exec_vector_idle (h : exec i s = s.vector k) (ha : s.active = 0) : exec i s = .next s.retire := by
  rw [h, State.vector, if_pos ha, State.done]

theorem State.exec_vector_active (h : exec i s = s.vector k) (ha : s.active ≠ 0) : exec i s = k := by
  rw [h, State.vector, if_neg ha]

/-- An untyped elementwise result of four cycles (R193, R195). -/
theorem State.answersV_bitwise {d : Nat} {f g : Nat → Word} (h : exec i s = s.bitwise f d) (hf : ∀ l, f l = g l) :
    s.answersV i d (some 4) g := by
  obtain rfl : f = g := funext hf
  exact s.answersV_wrV i d latAlu f h

/-- A cross-lane result of six cycles, its test passed (R202). -/
theorem State.answersV_cross {d : Nat} {f : Nat → Word} (h : exec i s = s.vector (s.checked ok (s.wrV d s.active f latCross).done))
    (hok : ok = true) : s.answersV i d (some 6) f :=
  s.answersV_wrV i d latCross f (by rw [h, State.checked_of_true _ hok])

/-- A vector instruction with an active lane traps where its test fails. -/
theorem State.refusesOperand_of_vector (h : exec i s = s.vector (s.checked ok k)) (ha : s.active ≠ 0) (hok : ¬ok = true) :
    s.refusesOperand i :=
  State.refusesOperand_of_checked (State.exec_vector_active h ha) hok

end Answers

@[simp] theorem State.wrV_tseq (s : State) (d : Nat) (m : Mask) (f : Nat → Word) (lat : Option Nat) : (s.wrV d m f lat).tseq = s.tseq := by
  simp [State.tseq, State.spl, State.splitAt, State.wrV, State.mark]

/-- Writes of two vector registers as one change of the group. -/
theorem State.wrV_wrV_eq (s : State) (c d : Nat) (m : Mask) (f g : Nat → Word) (lat : Option Nat) :
    ∃ e e' : Inflight, s.InFlight e (.v c) lat ∧ s.InFlight e' (.v d) lat ∧
      (s.wrV c m f lat).wrV d m g lat = s.setGrp (s.grp.wrote ((s.regs.setLanes c m f).setLanes d m g) [e', e]) := by
  obtain ⟨e, he, h1⟩ := s.mark_eq (.v c) m lat (s.regs.setLanes c m f)
  obtain ⟨e', he', h2⟩ := (s.wrV c m f lat).mark_eq (.v d) m lat ((s.wrV c m f lat).regs.setLanes d m g)
  refine ⟨e, e', he, ?_, ?_⟩
  · obtain ⟨hreg, hslot, htseq, hready⟩ := he'
    exact ⟨hreg, hslot, htseq.trans (s.wrV_tseq c m f lat), hready⟩
  · rw [State.wrV, h2, State.wrV, h1]
    simp [Group.wrote]

/-- A vector register of which an instruction writes the lanes of a mask that is not empty is among those it names. -/
theorem Writes.names_v {w : Writes} {n : Nat} {m : Mask} (hm : m ≠ 0) (hw : ∀ l, m.has l = true → w.v n l = true) :
    w.names (.v n) = true := by
  obtain ⟨l, hl, hl'⟩ := List.any_eq_true.1 (mask_any hm)
  exact List.any_eq_true.2 ⟨l, hl, hw l hl'⟩

/-- What a pair of vector results of an instruction does. -/
theorem State.answersPair_wrV {s : State} {i : Instr} {d : Nat} {lat : Option Nat} {f g : Nat → Word}
    (h : exec i s = s.vector ((s.wrV d s.active f lat).wrV (d + 1) s.active g lat).done) : s.answersPair i d lat f g := by
  by_cases ha : s.active = 0
  · refine ⟨s.retire, State.exec_vector_idle h ha, fun l hl => by simp [ha, Mask.has] at hl, fun h0 => absurd ha h0,
      State.completes_mono s.completes_done ?_ ?_ ?_ ?_ ?_ ?_ ?_⟩
    all_goals simp
  · obtain ⟨e, e', he, he', heq⟩ := s.wrV_wrV_eq d (d + 1) s.active f g lat
    refine ⟨_, (State.exec_vector_active h ha).trans (by rw [heq, State.done]), fun l hl => ?_,
      fun _ => ⟨s.pends_wrote _ e _ (by simp) he, s.pends_wrote _ e' _ (by simp) he'⟩,
      s.completes_wrote _ _ _ ?_ (Regs.leaves_clock (Regs.leaves_trans (b := s.regs.setLanes d s.active f) ?_ ?_))⟩
    · have hl' := Mask.lt_of_has hl
      rw [State.wrote_regs]
      constructor
      · rw [Regs.getV_tick, Regs.getV_setLanes _ _ _ _ hl', if_neg (by simp), Regs.getV_setLanes _ _ _ _ hl', if_pos ⟨rfl, hl⟩]
      · rw [Regs.getV_tick, Regs.getV_setLanes _ _ _ _ hl', if_pos ⟨rfl, hl⟩]
    · intro x hx
      obtain rfl | rfl : x = e' ∨ x = e := by simpa using hx
      · rw [he'.1]
        exact Writes.names_v ha fun l hl => by simp [hl]
      · rw [he.1]
        exact Writes.names_v ha fun l hl => by simp [hl]
    · exact Regs.setLanes_leaves _ _ _ _ _ fun l hl => by simp [hl]
    · exact Regs.setLanes_leaves _ _ _ _ _ fun l hl => by simp [hl]

end Sys2Proof.Machine

/-! PROOFS. Results on a lane slice that the model computes otherwise than the statements say (R193, R194, R201). -/

namespace Sys2Proof.Machine

/-- An arithmetic shift that leaves the sign alone. -/
theorem sshiftRight_signs {w : Nat} (x : BitVec (w + 1)) : x.sshiftRight w = if x.getLsbD w then BitVec.allOnes (w + 1) else 0 := by
  refine BitVec.eq_of_getLsbD_eq fun i hi => ?_
  have hbit : (x.sshiftRight w).getLsbD i = x.getLsbD w := by
    rw [BitVec.getLsbD_sshiftRight, decide_eq_false (Nat.not_le.2 hi), Bool.not_false, Bool.true_and, BitVec.msb_eq_getLsbD_last]
    split
    · obtain rfl : i = 0 := by omega
      rfl
    · rfl
  rw [hbit]
  cases x.getLsbD w with
  | false => simp
  | true => simp [hi]

theorem sar32_eq (x y : Word) : sar32 x y =
    if y.toNat < 32 then x.sshiftRight y.toNat else if x.getLsbD 31 then 0xFFFFFFFF else 0 := by
  rw [sar32]
  split
  case isTrue h => rw [Nat.min_eq_left (by omega)]
  case isFalse h => rw [Nat.min_eq_right (by omega)]; exact sshiftRight_signs x

theorem halves_append (x y : Word) :
    y.extractLsb' 0 16 ++ x.extractLsb' 0 16 = (y.setWidth 16).setWidth 32 <<< 16 ||| (x.setWidth 16).setWidth 32 := by
  rw [BitVec.append_def]
  simp [BitVec.shiftLeftZeroExtend_eq, ← BitVec.setWidth_eq_extractLsb' (show 16 ≤ 32 by decide)]

theorem zext_high_half (x : Word) : zext 32 (x.extractLsb' 16 16) = x >>> 16 := by
  refine BitVec.eq_of_getLsbD_eq fun i hi => ?_
  by_cases h : i < 16
  · simp [hi, h]
  · simp [h, BitVec.getLsbD_of_ge x (16 + i) (by omega)]

theorem State.compareLanes_has (s : State) (c : Cond) (t : Ty) (a b : Nat) {l : Nat} (hl : l < 32) :
    (s.compareLanes c t a b).has l =
      compareElem c (modeFtz s.regs.gmode) t (elem t.width (s.rdV a l) 0) (elem t.width (s.rdV b l) 0) := by
  refine BitVec.getLsbD_ofBoolListLE.trans ?_
  simp [List.getD_eq_getElem?_getD, hl]

section Conditions

variable {c : Cond} {ordered : Bool → Bool → Bool} (hc : ∀ lt eq, c.holds lt eq = ordered (lt && !eq) eq)

include hc

/-- Floating values: a NaN on either side decides the compare by itself. -/
theorem compareElem_float (ftz : Bool) (f : Fmt) (x y : Nat) : compareElem c ftz (.float f) x y =
    if f.input ftz x = .nan ∨ f.input ftz y = .nan then c == .ne || c == .un
    else ordered (Fl.lt (f.input ftz x) (f.input ftz y) && !Fl.same (f.input ftz x) (f.input ftz y))
      (Fl.same (f.input ftz x) (f.input ftz y)) := by
  simp [compareElem, hc]

/-- Integers: at most one of less and equal holds, and no two are unordered. -/
theorem compareElem_int (ftz : Bool) (t : IntTy) (x y : Nat) : compareElem c ftz (.int t) x y =
    (!(c == .un) && ordered (decide (t.value x < t.value y)) (decide (t.value x = t.value y))) := by
  have hlt : (decide (t.value x < t.value y) && !decide (t.value x = t.value y)) = decide (t.value x < t.value y) := by
    rw [Bool.eq_iff_iff]
    simpa using ne_of_lt
  by_cases hu : c = .un
  · subst hu
    rfl
  · rw [compareElem, hc, hlt, beq_false_of_ne hu, Bool.not_false, Bool.true_and]

end Conditions

theorem TypeSet.pick_arith_float {m : Word} {f : Fmt} (h : tyOf (modeType m) = some (.float f)) :
    TypeSet.arith.pick m = some (.float f) := by simp [TypeSet.pick, h]
theorem TypeSet.pick_arith_int {m : Word} {t : IntTy} (h : tyOf (modeType m) = some (.int t)) :
    TypeSet.arith.pick m = some (.int t) := by simp [TypeSet.pick, h]

section Compare

variable {s : State} {i : Instr} {d : BitVec 3} {a b : BitVec 7}

/-- A compare under a type that it accepts (R194). -/
theorem State.answersP_compare {c : Cond} {t : Ty} {x : Nat → Bool} (h : exec i s = s.compare c d.toNat a.toNat b.toNat)
    (ht : TypeSet.arith.pick s.regs.gmode = some t)
    (hx : ∀ l, compareElem c (modeFtz s.regs.gmode) t (elem t.width (s.rdV a.toNat l) 0) (elem t.width (s.rdV b.toNat l) 0) = x l) :
    s.answersP i d.toNat (some 4) x := by
  rw [State.compare, ht] at h
  exact State.answersP_congr (s.answersP_vector i d.toNat latAlu _ h) fun l hl => (s.compareLanes_has c t _ _ hl).trans (hx l)

/-- A condition given as a function of less and equal, of which at most one holds: what each compare answers (R194). -/
theorem State.compare_answers (c : Cond) (ordered : Bool → Bool → Bool) (h : exec i s = s.compare c d.toNat a.toNat b.toNat)
    (hc : ∀ lt eq, c.holds lt eq = ordered (lt && !eq) eq) :
    (s.active = 0 → exec i s = .next s.retire) ∧
    (s.active ≠ 0 → ∀ f, tyOf (modeType s.regs.gmode) = some (.float f) → s.answersP i d.toNat (some 4) fun l =>
      let x := f.input (modeFtz s.regs.gmode) (elem f.width (s.rdV a.toNat l) 0)
      let y := f.input (modeFtz s.regs.gmode) (elem f.width (s.rdV b.toNat l) 0)
      if x = .nan ∨ y = .nan then c == .ne || c == .un else ordered (Fl.lt x y && !Fl.same x y) (Fl.same x y)) ∧
    (s.active ≠ 0 → ∀ t, tyOf (modeType s.regs.gmode) = some (.int t) → s.answersP i d.toNat (some 4) fun l =>
      let x := t.value (elem t.width (s.rdV a.toNat l) 0)
      let y := t.value (elem t.width (s.rdV b.toNat l) 0)
      !(c == .un) && ordered (decide (x < y)) (decide (x = y))) :=
  ⟨State.exec_vector_idle h,
    fun _ f hf => State.answersP_compare h (TypeSet.pick_arith_float hf) fun _ => compareElem_float hc _ f _ _,
    fun _ t ht => State.answersP_compare h (TypeSet.pick_arith_int ht) fun _ => compareElem_int hc _ t _ _⟩

end Compare

end Sys2Proof.Machine

/-! PROOFS. The cross-lane moves (R202 to R204). -/

namespace Sys2Proof.Machine

/-- The model tests the reserved field of the active lanes' indices alone (R203). -/
theorem State.permutes_iff (s : State) (b : Nat) : (!lanes.any fun l => s.active.has l && permIllegal (s.rdV b l)) = true ↔
    ¬∃ l, l < 32 ∧ s.active.has l = true ∧ (s.rdV b l).extractLsb' 6 26 ≠ 0 := by
  simp [permIllegal]

/-! The three moves of R204, each by its source lane. -/

section Moves

variable (s : State) (st : BitVec 3) (d a : BitVec 7) (g : BitVec 6)

theorem exec_vbfly : exec (.vbfly st d a g) s = s.crossMove (fun l n => l ^^^ n) d.toNat a.toNat g.toNat := rfl
theorem exec_vrot : exec (.vrot st d a g) s = s.crossMove (fun l n => (l + n) % 32) d.toNat a.toNat g.toNat := rfl
theorem exec_vbcl : exec (.vbcl st d a g) s = s.crossMove (fun _ n => n) d.toNat a.toNat g.toNat := rfl

end Moves

section CrossMove

variable {s : State} {i : Instr} {src : Nat → Nat → Nat} {d a : BitVec 7} {g : BitVec 6}

theorem State.answersV_crossMove (h : exec i s = s.crossMove src d.toNat a.toNat g.toNat) (hn : (s.rdG g.toNat).toNat < 32) :
    s.answersV i d.toNat (some 6) fun l => s.crossRead a.toNat (src l (s.rdG g.toNat).toNat) :=
  State.answersV_cross h (decide_eq_true hn)

theorem State.refusesOperand_crossMove (h : exec i s = s.crossMove src d.toNat a.toNat g.toNat)
    (hn : 32 ≤ (s.rdG g.toNat).toNat) (ha : s.active ≠ 0) : s.refusesOperand i :=
  State.refusesOperand_of_vector h ha (by simpa using hn)

end CrossMove

end Sys2Proof.Machine

/-! PROOFS. The statements on the vector instructions that read no TYPE, the compares and the cross-lane moves (07). -/

namespace Sys2Proof.Machine

/-- Settles O8: the results that the model computes otherwise than the statement says are `vsar`, `vclz` and `vpop`. -/
theorem vectorBits : Obligations.VectorBits := by
  intro s st d a b
  refine ⟨⟨rfl, ?vand⟩, ⟨rfl, ?vor⟩, ⟨rfl, ?vxor⟩, ⟨rfl, ?vnot⟩, ⟨rfl, ?vshl⟩, ⟨rfl, ?vshr⟩, ⟨rfl, ?vsar⟩,
    ⟨rfl, _, fun l => leadingZeros_leadsWith _, ?vclz⟩, ⟨rfl, ?vpop⟩, fun hb => ?reserved⟩
  case vsar => exact State.answersV_bitwise rfl fun l => sar32_eq _ _
  case vpop => exact State.answersV_bitwise rfl fun l => congrArg (BitVec.ofNat 32) (oneBits_eq_countP _)
  case reserved => simpa using ⟨major03_unary_rejects (.inl rfl) hb, major03_unary_rejects (.inr rfl) hb, vpop_rejects hb⟩
  all_goals exact State.answersV_bitwise rfl fun l => rfl

/-- Settles O9: `vlane` alone tests an operand, and `vunpk` alone writes two registers. -/
theorem vectorMoves : Obligations.VectorMoves := by
  intro s st d a b p g h
  refine ⟨⟨rfl, ?vsel⟩, ⟨rfl, ?vmov⟩, ⟨rfl, ?vbc⟩, ⟨rfl, ?vbcHi⟩, fun hb => vbc_rejects (.inr hb), vsel_rejects, vmov_rejects,
    fun ha => vbc_rejects (.inl ha), vlane_rejects, ⟨rfl, fun hn => ?vlane, fun hn => ?vlaneTrap⟩, ⟨rfl, ?vmix⟩, ⟨rfl, ?vpack⟩,
    ⟨rfl, fun n => ?regs, ?vunpk⟩⟩
  case vlane => exact s.answersG_wrG _ _ latAlu _ (State.checked_of_true _ (decide_eq_true hn))
  case vlaneTrap => exact State.refusesOperand_of_checked rfl (by simpa using hn)
  case vpack => exact State.answersV_bitwise rfl fun l => halves_append _ _
  case regs =>
    refine decide_eq_true_iff.trans ?_
    rw [vectorEnd]
    omega
  case vunpk =>
    simp only [← zext_high_half]
    exact State.answersPair_wrV rfl
  all_goals exact State.answersV_bitwise rfl fun l => rfl

/-- Settles O17: each condition is a function of less and equal, in the model as in the statement. -/
theorem vectorCompare : Obligations.VectorCompare := by
  intro s st d a b
  refine ⟨⟨rfl, ?eq⟩, ⟨rfl, ?ne⟩, ⟨rfl, ?lt⟩, ⟨rfl, ?le⟩, ⟨rfl, ?gt⟩, ⟨rfl, ?ge⟩, ⟨rfl, ?un⟩, fun n u => compare_rejects⟩
  case eq => exact State.compare_answers .eq (fun _ eq => eq) rfl (by decide)
  case ne => exact State.compare_answers .ne (fun _ eq => !eq) rfl (by decide)
  case lt => exact State.compare_answers .lt (fun lt _ => lt) rfl (by decide)
  case le => exact State.compare_answers .le (fun lt eq => lt || eq) rfl (by decide)
  case gt => exact State.compare_answers .gt (fun lt eq => !lt && !eq) rfl (by decide)
  case ge => exact State.compare_answers .ge (fun lt _ => !lt) rfl (by decide)
  case un => exact State.compare_answers .un (fun _ _ => false) rfl (by decide)

/-- Settles O18: the three moves of R204 differ in the source lane alone. -/
theorem crossLaneMoves : Obligations.CrossLaneMoves := by
  intro s st d a b g
  have hbfly := exec_vbfly s st d a g
  have hrot := exec_vrot s st d a g
  have hbcl := exec_vbcl s st d a g
  refine ⟨⟨rfl, fun hlegal => ?permutes, fun hillegal => ?traps⟩, ⟨rfl, rfl, rfl⟩, fun hn => ?moves, fun hn ha => ?refuses, fun ha => ?idle⟩
  case permutes => exact State.answersV_cross rfl ((s.permutes_iff b.toNat).2 hlegal)
  case traps =>
    have ha : s.active ≠ 0 := by
      obtain ⟨l, -, hl, -⟩ := hillegal
      intro h0
      simp [h0, Mask.has] at hl
    exact State.refusesOperand_of_vector rfl ha fun h => (s.permutes_iff b.toNat).1 h hillegal
  case moves => exact ⟨State.answersV_crossMove hbfly hn, State.answersV_crossMove hrot hn, State.answersV_crossMove hbcl hn⟩
  case refuses =>
    exact ⟨State.refusesOperand_crossMove hbfly hn ha, State.refusesOperand_crossMove hrot hn ha, State.refusesOperand_crossMove hbcl hn ha⟩
  case idle => exact ⟨State.exec_vector_idle hbfly ha, State.exec_vector_idle hrot ha, State.exec_vector_idle hbcl ha⟩

end Sys2Proof.Machine

/-! PROOFS. The encoder and the decoder agree (R78 to R105): the fields of the words of each form, the operand forms in both
directions, and the majors one by one. -/

namespace Sys2Proof

section WordFields

open BitVec (extractLsb'_append_eq_of_le extractLsb'_append_eq_left extractLsb'_append_eq_right)

variable (s c : BitVec 3) (m op : BitVec 5) (p : BitVec 19) (f : BitVec 21)

@[simp] theorem fld_bWord_stall : fld 29 3 (bWord s m c f) = s := by
  unfold fld bWord
  rw [extractLsb'_append_eq_of_le (by decide), extractLsb'_append_eq_of_le (by decide)]
  exact extractLsb'_append_eq_left
@[simp] theorem fld_bWord_major : fld 24 5 (bWord s m c f) = m := by
  unfold fld bWord
  rw [extractLsb'_append_eq_of_le (by decide), extractLsb'_append_eq_of_le (by decide)]
  exact extractLsb'_append_eq_right
@[simp] theorem fld_bWord_c : fld 21 3 (bWord s m c f) = c := by
  unfold fld bWord
  rw [extractLsb'_append_eq_of_le (by decide)]
  exact extractLsb'_append_eq_right
@[simp] theorem fld_bWord_f : fld 0 21 (bWord s m c f) = f := extractLsb'_append_eq_right

@[simp] theorem fld_xWord_stall : fld 29 3 (xWord s m op p) = s := by
  unfold fld xWord
  rw [extractLsb'_append_eq_of_le (by decide), extractLsb'_append_eq_of_le (by decide)]
  exact extractLsb'_append_eq_left
@[simp] theorem fld_xWord_major : fld 24 5 (xWord s m op p) = m := by
  unfold fld xWord
  rw [extractLsb'_append_eq_of_le (by decide), extractLsb'_append_eq_of_le (by decide)]
  exact extractLsb'_append_eq_right
@[simp] theorem fld_xWord_op : fld 19 5 (xWord s m op p) = op := by
  unfold fld xWord
  rw [extractLsb'_append_eq_of_le (by decide)]
  exact extractLsb'_append_eq_right
@[simp] theorem fld_xWord_p : fld 0 19 (xWord s m op p) = p := extractLsb'_append_eq_right

end WordFields

section AtomicFields

open BitVec (extractLsb'_append_eq_of_le extractLsb'_append_eq_left extractLsb'_append_eq_right)

variable (s r : BitVec 3) (op v a : BitVec 4) (w nr : BitVec 1) (b : BitVec 7)

@[simp] theorem fld_aWord_stall : fld 29 3 (aWord s op w nr r v a b) = s := by
  unfold fld aWord
  iterate 7 rw [extractLsb'_append_eq_of_le (by decide)]
  exact extractLsb'_append_eq_left
@[simp] theorem fld_aWord_major : fld 24 5 (aWord s op w nr r v a b) = 0x0C := by
  unfold fld aWord
  iterate 7 rw [extractLsb'_append_eq_of_le (by decide)]
  exact extractLsb'_append_eq_right
@[simp] theorem fld_aWord_op : fld 20 4 (aWord s op w nr r v a b) = op := by
  unfold fld aWord
  iterate 6 rw [extractLsb'_append_eq_of_le (by decide)]
  exact extractLsb'_append_eq_right
@[simp] theorem fld_aWord_w : fld 19 1 (aWord s op w nr r v a b) = w := by
  unfold fld aWord
  iterate 5 rw [extractLsb'_append_eq_of_le (by decide)]
  exact extractLsb'_append_eq_right
@[simp] theorem fld_aWord_nr : fld 18 1 (aWord s op w nr r v a b) = nr := by
  unfold fld aWord
  iterate 4 rw [extractLsb'_append_eq_of_le (by decide)]
  exact extractLsb'_append_eq_right
@[simp] theorem fld_aWord_r : fld 15 3 (aWord s op w nr r v a b) = r := by
  unfold fld aWord
  iterate 3 rw [extractLsb'_append_eq_of_le (by decide)]
  exact extractLsb'_append_eq_right
@[simp] theorem fld_aWord_v : fld 11 4 (aWord s op w nr r v a b) = v := by
  unfold fld aWord
  iterate 2 rw [extractLsb'_append_eq_of_le (by decide)]
  exact extractLsb'_append_eq_right
@[simp] theorem fld_aWord_a : fld 7 4 (aWord s op w nr r v a b) = a := by
  unfold fld aWord
  rw [extractLsb'_append_eq_of_le (by decide)]
  exact extractLsb'_append_eq_right
@[simp] theorem fld_aWord_b : fld 0 7 (aWord s op w nr r v a b) = b := extractLsb'_append_eq_right

end AtomicFields

/-! A word is what its fields make up, in each of the forms. -/

/-- The field below another joins it. -/
theorem fld_append (w : BitVec 32) (lo len lo' len' : Nat) (h : lo = lo' + len') :
    fld lo len w ++ fld lo' len' w = fld lo' (len + len') w := by
  refine BitVec.eq_of_getLsbD_eq fun i hi => ?_
  rw [BitVec.getLsbD_append]
  by_cases hl : i < len'
  · simp [hl, hi, fld]
  · simp [hl, hi, fld, h, show i - len' < len by omega, show lo' + len' + (i - len') = lo' + i by omega]

theorem fld_whole (w : BitVec 32) : fld 0 32 w = w := BitVec.extractLsb'_eq_self

theorem rWord_fields (w : BitVec 32) : rWord (fld 29 3 w) (fld 24 5 w) (fld 21 3 w) (fld 14 7 w) (fld 7 7 w) (fld 0 7 w) = w := by
  rw [rWord, fld_append w 29 3 24 5 rfl, fld_append w 24 8 21 3 rfl, fld_append w 21 11 14 7 rfl, fld_append w 14 18 7 7 rfl,
    fld_append w 7 25 0 7 rfl]
  exact fld_whole w
theorem iWord_fields (w : BitVec 32) : iWord (fld 29 3 w) (fld 24 5 w) (fld 17 7 w) (fld 0 17 w) = w := by
  rw [iWord, fld_append w 29 3 24 5 rfl, fld_append w 24 8 17 7 rfl, fld_append w 17 15 0 17 rfl]
  exact fld_whole w
theorem bWord_fields (w : BitVec 32) : bWord (fld 29 3 w) (fld 24 5 w) (fld 21 3 w) (fld 0 21 w) = w := by
  rw [bWord, fld_append w 29 3 24 5 rfl, fld_append w 24 8 21 3 rfl, fld_append w 21 11 0 21 rfl]
  exact fld_whole w
theorem xWord_fields (w : BitVec 32) : xWord (fld 29 3 w) (fld 24 5 w) (fld 19 5 w) (fld 0 19 w) = w := by
  rw [xWord, fld_append w 29 3 24 5 rfl, fld_append w 24 8 19 5 rfl, fld_append w 19 13 0 19 rfl]
  exact fld_whole w
theorem aWord_fields (w : BitVec 32) (h : fld 24 5 w = 0x0C) :
    aWord (fld 29 3 w) (fld 20 4 w) (fld 19 1 w) (fld 18 1 w) (fld 15 3 w) (fld 11 4 w) (fld 7 4 w) (fld 0 7 w) = w := by
  rw [aWord, ← h, fld_append w 29 3 24 5 rfl, fld_append w 24 8 20 4 rfl, fld_append w 20 12 19 1 rfl,
    fld_append w 19 13 18 1 rfl, fld_append w 18 14 15 3 rfl, fld_append w 15 17 11 4 rfl, fld_append w 11 21 7 4 rfl,
    fld_append w 7 25 0 7 rfl]
  exact fld_whole w

/-! The operand fields: a number that fits its file and the field that holds it. -/

@[simp] theorem toG_ofG (x : BitVec 6) : toG (ofG x) = x := by
  refine BitVec.eq_of_toNat_eq ?_
  simp [toG, ofG]
@[simp] theorem toP_ofP (x : BitVec 3) : toP (ofP x) = x := by
  refine BitVec.eq_of_toNat_eq ?_
  simp [toP, ofP]
@[simp] theorem ofG_toNat (x : BitVec 6) : (ofG x).toNat = x.toNat := by simp [ofG]; omega
@[simp] theorem ofP_toNat (x : BitVec 3) : (ofP x).toNat = x.toNat := by simp [ofP]; omega
@[simp] theorem isG_ofG (x : BitVec 6) : isG (ofG x) = true := by simp [isG, x.isLt]
@[simp] theorem isP_ofP (x : BitVec 3) : isP (ofP x) = true := by simp [isP, x.isLt]
theorem eq_ofG_of_isG {x : BitVec 7} (h : isG x = true) : ∃ y, x = ofG y := by
  refine ⟨toG x, BitVec.eq_of_toNat_eq ?_⟩
  simp only [isG, decide_eq_true_eq] at h
  simp [ofG, toG]
  omega
theorem eq_ofP_of_isP {x : BitVec 7} (h : isP x = true) : ∃ y, x = ofP y := by
  refine ⟨toP x, BitVec.eq_of_toNat_eq ?_⟩
  simp only [isP, decide_eq_true_eq] at h
  simp [ofP, toP]
  omega

@[simp] theorem need_true (r : Reject) (k : Except Reject Instr) : need true r k = k := rfl

theorem sub_append (p : BitVec 19) (lo len lo' len' : Nat) (h : lo = lo' + len') :
    sub lo len p ++ sub lo' len' p = sub lo' (len + len') p := by
  refine BitVec.eq_of_getLsbD_eq fun i hi => ?_
  rw [BitVec.getLsbD_append]
  by_cases hl : i < len'
  · simp [hl, hi, sub]
  · simp [hl, hi, sub, h, show i - len' < len by omega, show lo' + len' + (i - len') = lo' + i by omega]
theorem sub_whole (p : BitVec 19) : sub 0 19 p = p := BitVec.extractLsb'_eq_self
@[simp] theorem sub_transfer (q : BitVec 3) (c : BitVec 1) (g : BitVec 6) (z : BitVec 9) :
    sub 16 3 (q ++ c ++ g ++ z) = q ∧ sub 15 1 (q ++ c ++ g ++ z) = c ∧ sub 9 6 (q ++ c ++ g ++ z) = g ∧ sub 0 9 (q ++ c ++ g ++ z) = z := by
  refine ⟨?_, ?_, ?_, ?_⟩
  all_goals
    refine BitVec.eq_of_getLsbD_eq fun i hi => ?_
    simp [hi] <;> grind
theorem transfer_fields (p : BitVec 19) : sub 16 3 p ++ sub 15 1 p ++ sub 9 6 p ++ sub 0 9 p = p := by
  rw [sub_append p 16 3 15 1 rfl, sub_append p 15 4 9 6 rfl, sub_append p 9 10 0 9 rfl]
  exact sub_whole p
@[simp] theorem sub_transferLanes (q : BitVec 3) (c : BitVec 1) (g : BitVec 6) (v : BitVec 7) (z : BitVec 2) :
    sub 16 3 (q ++ c ++ g ++ v ++ z) = q ∧ sub 15 1 (q ++ c ++ g ++ v ++ z) = c ∧ sub 9 6 (q ++ c ++ g ++ v ++ z) = g ∧ sub 2 7 (q ++ c ++ g ++ v ++ z) = v ∧ sub 0 2 (q ++ c ++ g ++ v ++ z) = z := by
  refine ⟨?_, ?_, ?_, ?_, ?_⟩
  all_goals
    refine BitVec.eq_of_getLsbD_eq fun i hi => ?_
    simp [hi] <;> grind
theorem transferLanes_fields (p : BitVec 19) : sub 16 3 p ++ sub 15 1 p ++ sub 9 6 p ++ sub 2 7 p ++ sub 0 2 p = p := by
  rw [sub_append p 16 3 15 1 rfl, sub_append p 15 4 9 6 rfl, sub_append p 9 10 2 7 rfl, sub_append p 2 17 0 2 rfl]
  exact sub_whole p
@[simp] theorem sub_timeline (z : BitVec 4) (g : BitVec 6) (x : BitVec 2) (y : BitVec 7) :
    sub 15 4 (z ++ g ++ x ++ y) = z ∧ sub 9 6 (z ++ g ++ x ++ y) = g ∧ sub 7 2 (z ++ g ++ x ++ y) = x ∧ sub 0 7 (z ++ g ++ x ++ y) = y := by
  refine ⟨?_, ?_, ?_, ?_⟩
  all_goals
    refine BitVec.eq_of_getLsbD_eq fun i hi => ?_
    simp [hi] <;> grind
theorem timeline_fields (p : BitVec 19) : sub 15 4 p ++ sub 9 6 p ++ sub 7 2 p ++ sub 0 7 p = p := by
  rw [sub_append p 15 4 9 6 rfl, sub_append p 9 10 7 2 rfl, sub_append p 7 12 0 7 rfl]
  exact sub_whole p
@[simp] theorem sub_oneGroup (g : BitVec 6) (z : BitVec 13) :
    sub 13 6 (g ++ z) = g ∧ sub 0 13 (g ++ z) = z := by
  refine ⟨?_, ?_⟩
  all_goals
    refine BitVec.eq_of_getLsbD_eq fun i hi => ?_
    simp [hi] <;> grind
theorem oneGroup_fields (p : BitVec 19) : sub 13 6 p ++ sub 0 13 p = p := by
  rw [sub_append p 13 6 0 13 rfl]
  exact sub_whole p
@[simp] theorem sub_fence (k : BitVec 2) (e : BitVec 3) (z : BitVec 14) :
    sub 17 2 (k ++ e ++ z) = k ∧ sub 14 3 (k ++ e ++ z) = e ∧ sub 0 14 (k ++ e ++ z) = z := by
  refine ⟨?_, ?_, ?_⟩
  all_goals
    refine BitVec.eq_of_getLsbD_eq fun i hi => ?_
    simp [hi] <;> grind
theorem fence_fields (p : BitVec 19) : sub 17 2 p ++ sub 14 3 p ++ sub 0 14 p = p := by
  rw [sub_append p 17 2 14 3 rfl, sub_append p 14 5 0 14 rfl]
  exact sub_whole p
@[simp] theorem sub_threeGroups (d : BitVec 6) (a : BitVec 6) (b : BitVec 6) (z : BitVec 1) :
    sub 13 6 (d ++ a ++ b ++ z) = d ∧ sub 7 6 (d ++ a ++ b ++ z) = a ∧ sub 1 6 (d ++ a ++ b ++ z) = b ∧ sub 0 1 (d ++ a ++ b ++ z) = z := by
  refine ⟨?_, ?_, ?_, ?_⟩
  all_goals
    refine BitVec.eq_of_getLsbD_eq fun i hi => ?_
    simp [hi] <;> grind
theorem threeGroups_fields (p : BitVec 19) : sub 13 6 p ++ sub 7 6 p ++ sub 1 6 p ++ sub 0 1 p = p := by
  rw [sub_append p 13 6 7 6 rfl, sub_append p 7 12 1 6 rfl, sub_append p 1 18 0 1 rfl]
  exact sub_whole p
@[simp] theorem sub_twoGroups (g : BitVec 6) (h : BitVec 6) (z : BitVec 7) :
    sub 13 6 (g ++ h ++ z) = g ∧ sub 7 6 (g ++ h ++ z) = h ∧ sub 0 7 (g ++ h ++ z) = z := by
  refine ⟨?_, ?_, ?_⟩
  all_goals
    refine BitVec.eq_of_getLsbD_eq fun i hi => ?_
    simp [hi] <;> grind
theorem twoGroups_fields (p : BitVec 19) : sub 13 6 p ++ sub 7 6 p ++ sub 0 7 p = p := by
  rw [sub_append p 13 6 7 6 rfl, sub_append p 7 12 0 7 rfl]
  exact sub_whole p
@[simp] theorem sub_barrier (l : BitVec 2) (n : BitVec 4) (z : BitVec 13) :
    sub 17 2 (l ++ n ++ z) = l ∧ sub 13 4 (l ++ n ++ z) = n ∧ sub 0 13 (l ++ n ++ z) = z := by
  refine ⟨?_, ?_, ?_⟩
  all_goals
    refine BitVec.eq_of_getLsbD_eq fun i hi => ?_
    simp [hi] <;> grind
theorem barrier_fields (p : BitVec 19) : sub 17 2 p ++ sub 13 4 p ++ sub 0 13 p = p := by
  rw [sub_append p 17 2 13 4 rfl, sub_append p 13 6 0 13 rfl]
  exact sub_whole p
@[simp] theorem sub_barrierGroup (l : BitVec 2) (n : BitVec 4) (g : BitVec 6) (z : BitVec 7) :
    sub 17 2 (l ++ n ++ g ++ z) = l ∧ sub 13 4 (l ++ n ++ g ++ z) = n ∧ sub 7 6 (l ++ n ++ g ++ z) = g ∧ sub 0 7 (l ++ n ++ g ++ z) = z := by
  refine ⟨?_, ?_, ?_, ?_⟩
  all_goals
    refine BitVec.eq_of_getLsbD_eq fun i hi => ?_
    simp [hi] <;> grind
theorem barrierGroup_fields (p : BitVec 19) : sub 17 2 p ++ sub 13 4 p ++ sub 7 6 p ++ sub 0 7 p = p := by
  rw [sub_append p 17 2 13 4 rfl, sub_append p 13 6 7 6 rfl, sub_append p 7 12 0 7 rfl]
  exact sub_whole p
@[simp] theorem sub_safe (i : BitVec 12) (z : BitVec 7) :
    sub 7 12 (i ++ z) = i ∧ sub 0 7 (i ++ z) = z := by
  refine ⟨?_, ?_⟩
  all_goals
    refine BitVec.eq_of_getLsbD_eq fun i hi => ?_
    simp [hi] <;> grind
theorem safe_fields (p : BitVec 19) : sub 7 12 p ++ sub 0 7 p = p := by
  rw [sub_append p 7 12 0 7 rfl]
  exact sub_whole p
@[simp] theorem sub_trap (n : BitVec 8) (z : BitVec 11) :
    sub 11 8 (n ++ z) = n ∧ sub 0 11 (n ++ z) = z := by
  refine ⟨?_, ?_⟩
  all_goals
    refine BitVec.eq_of_getLsbD_eq fun i hi => ?_
    simp [hi] <;> grind
theorem trap_fields (p : BitVec 19) : sub 11 8 p ++ sub 0 11 p = p := by
  rw [sub_append p 11 8 0 11 rfl]
  exact sub_whole p
@[simp] theorem sub_special (d : BitVec 7) (r : BitVec 6) (z : BitVec 6) :
    sub 12 7 (d ++ r ++ z) = d ∧ sub 6 6 (d ++ r ++ z) = r ∧ sub 0 6 (d ++ r ++ z) = z := by
  refine ⟨?_, ?_, ?_⟩
  all_goals
    refine BitVec.eq_of_getLsbD_eq fun i hi => ?_
    simp [hi] <;> grind
theorem special_fields (p : BitVec 19) : sub 12 7 p ++ sub 6 6 p ++ sub 0 6 p = p := by
  rw [sub_append p 12 7 6 6 rfl, sub_append p 6 13 0 6 rfl]
  exact sub_whole p
@[simp] theorem sub_spawn (k : BitVec 4) (f : BitVec 15) :
    sub 15 4 (k ++ f) = k ∧ sub 0 15 (k ++ f) = f := by
  refine ⟨?_, ?_⟩
  all_goals
    refine BitVec.eq_of_getLsbD_eq fun i hi => ?_
    simp [hi] <;> grind
theorem spawn_fields (p : BitVec 19) : sub 15 4 p ++ sub 0 15 p = p := by
  rw [sub_append p 15 4 0 15 rfl]
  exact sub_whole p
@[simp] theorem sub_role (r : BitVec 2) (z : BitVec 17) :
    sub 17 2 (r ++ z) = r ∧ sub 0 17 (r ++ z) = z := by
  refine ⟨?_, ?_⟩
  all_goals
    refine BitVec.eq_of_getLsbD_eq fun i hi => ?_
    simp [hi] <;> grind
theorem role_fields (p : BitVec 19) : sub 17 2 p ++ sub 0 17 p = p := by
  rw [sub_append p 17 2 0 17 rfl]
  exact sub_whole p

section Majors

variable (s n c : BitVec 3) (d a b : BitVec 7) (k : BitVec 17) (f : BitVec 21) (op : BitVec 5) (p : BitVec 19)

theorem decode_rWord_major00 : decode (rWord s 0x00 n d a b) = major00 s n d a b := by simp [decode]
theorem decode_rWord_major01 : decode (rWord s 0x01 n d a b) = major01 s n d a b := by simp [decode]
theorem decode_rWord_major05 : decode (rWord s 0x05 n d a b) = major05 s n d a b := by simp [decode]
theorem decode_rWord_major06 : decode (rWord s 0x06 n d a b) = major06 s n d a b := by simp [decode]
theorem decode_rWord_major08 : decode (rWord s 0x08 n d a b) = major08 s n d a b := by simp [decode]
theorem decode_rWord_major0A : decode (rWord s 0x0A n d a b) = major0A s n d a b := by simp [decode]
theorem decode_rWord_major0B : decode (rWord s 0x0B n d a b) = major0B s n d a b := by simp [decode]
theorem decode_rWord_major0D : decode (rWord s 0x0D n d a b) = major0D s n d a b := by simp [decode]
theorem decode_rWord_major0E : decode (rWord s 0x0E n d a b) = major0E s n d a b := by simp [decode]
theorem decode_aWord (o : BitVec 4) (w nr : BitVec 1) (r : BitVec 3) (v g : BitVec 4) :
    decode (aWord s o w nr r v g b) = major0C s o w nr r v g b := by simp [decode]
theorem decode_iWord_major14 : decode (iWord s 0x14 d k) = majorI 0x14 s d k := by simp [decode]
theorem decode_iWord_major15 : decode (iWord s 0x15 d k) = majorI 0x15 s d k := by simp [decode]
theorem decode_iWord_major16 : decode (iWord s 0x16 d k) = majorI 0x16 s d k := by simp [decode]
theorem decode_bWord_major18 : decode (bWord s 0x18 c f) = major18 s c f := by simp [decode]
theorem decode_bWord_major19 : decode (bWord s 0x19 c f) = major19 s c f := by simp [decode]
theorem decode_xWord_major1A : decode (xWord s 0x1A op p) = major1A s op p := by simp [decode]
theorem decode_xWord_major1B : decode (xWord s 0x1B op p) = major1B s op p := by simp [decode]
theorem decode_xWord_major1C : decode (xWord s 0x1C op p) = major1C s op p := by simp [decode]

end Majors

/-! The fields within an operand field (R83, R134, R135, R301). -/

@[simp] theorem extract_format (c : BitVec 3) (f : BitVec 4) :
    (c ++ f).extractLsb' 4 3 = c ∧ (c ++ f).extractLsb' 0 4 = f :=
  ⟨BitVec.extractLsb'_append_eq_left, BitVec.extractLsb'_append_eq_right⟩
@[simp] theorem extract_target (t : BitVec 4) (c : BitVec 3) : hi4 (t ++ c) = t ∧ lo3 (t ++ c) = c :=
  ⟨BitVec.extractLsb'_append_eq_left, BitVec.extractLsb'_append_eq_right⟩
@[simp] theorem extract_book (z : BitVec 5) (n : BitVec 2) : (z ++ n).extractLsb' 2 5 = z ∧ (z ++ n).extractLsb' 0 2 = n :=
  ⟨BitVec.extractLsb'_append_eq_left, BitVec.extractLsb'_append_eq_right⟩
@[simp] theorem extract_call (z : BitVec 1) (f : BitVec 20) : (z ++ f).extractLsb' 20 1 = z ∧ (z ++ f).extractLsb' 0 20 = f :=
  ⟨BitVec.extractLsb'_append_eq_left, BitVec.extractLsb'_append_eq_right⟩
@[simp] theorem extract_smodi (z y : BitVec 1) (k : BitVec 15) :
    (z ++ y ++ k).extractLsb' 16 1 = z ∧ (z ++ y ++ k).extractLsb' 15 1 = y ∧ (z ++ y ++ k).extractLsb' 0 15 = k := by
  refine ⟨?_, ?_, BitVec.extractLsb'_append_eq_right⟩
  · rw [BitVec.extractLsb'_append_eq_of_le (by decide)]; exact BitVec.extractLsb'_append_eq_left
  · rw [BitVec.extractLsb'_append_eq_of_le (by decide)]; exact BitVec.extractLsb'_append_eq_right
@[simp] theorem extract_gldh (z : BitVec 1) (k : BitVec 16) : (z ++ k).extractLsb' 16 1 = z ∧ (z ++ k).extractLsb' 0 16 = k :=
  ⟨BitVec.extractLsb'_append_eq_left, BitVec.extractLsb'_append_eq_right⟩

@[simp] theorem need_eq_ok {c : Bool} {r : Reject} {k : Except Reject Instr} {i : Instr} :
    need c r k = .ok i ↔ c = true ∧ k = .ok i := by
  cases c <;> simp [need]

@[simp] theorem formZGZ_fields (mk : BitVec 6 → Instr) (a : BitVec 6) :
    formZGZ mk 0#7 (ofG a) 0#7 = .ok (mk a) := by simp [formZGZ]
@[simp] theorem formGZZ_fields (mk : BitVec 6 → Instr) (d : BitVec 6) :
    formGZZ mk (ofG d) 0#7 0#7 = .ok (mk d) := by simp [formGZZ]
@[simp] theorem formGGZ_fields (mk : BitVec 6 → BitVec 6 → Instr) (d : BitVec 6) (a : BitVec 6) :
    formGGZ mk (ofG d) (ofG a) 0#7 = .ok (mk d a) := by simp [formGGZ]
@[simp] theorem formGGG_fields (mk : BitVec 6 → BitVec 6 → BitVec 6 → Instr) (d : BitVec 6) (a : BitVec 6) (b : BitVec 6) :
    formGGG mk (ofG d) (ofG a) (ofG b) = .ok (mk d a b) := by simp [formGGG]
@[simp] theorem formGPZ_fields (mk : BitVec 6 → BitVec 3 → Instr) (d : BitVec 6) (a : BitVec 3) :
    formGPZ mk (ofG d) (ofP a) 0#7 = .ok (mk d a) := by simp [formGPZ]
@[simp] theorem formGPG_fields (mk : BitVec 6 → BitVec 3 → BitVec 6 → Instr) (d : BitVec 6) (a : BitVec 3) (b : BitVec 6) :
    formGPG mk (ofG d) (ofP a) (ofG b) = .ok (mk d a b) := by simp [formGPG]
@[simp] theorem formGVZ_fields (mk : BitVec 6 → BitVec 7 → Instr) (d : BitVec 6) (a : BitVec 7) :
    formGVZ mk (ofG d) a 0#7 = .ok (mk d a) := by simp [formGVZ]
@[simp] theorem formGVG_fields (mk : BitVec 6 → BitVec 7 → BitVec 6 → Instr) (d : BitVec 6) (a : BitVec 7) (b : BitVec 6) :
    formGVG mk (ofG d) a (ofG b) = .ok (mk d a b) := by simp [formGVG]
@[simp] theorem formPGZ_fields (mk : BitVec 3 → BitVec 6 → Instr) (d : BitVec 3) (a : BitVec 6) :
    formPGZ mk (ofP d) (ofG a) 0#7 = .ok (mk d a) := by simp [formPGZ]
@[simp] theorem formPPZ_fields (mk : BitVec 3 → BitVec 3 → Instr) (d : BitVec 3) (a : BitVec 3) :
    formPPZ mk (ofP d) (ofP a) 0#7 = .ok (mk d a) := by simp [formPPZ]
@[simp] theorem formPPP_fields (mk : BitVec 3 → BitVec 3 → BitVec 3 → Instr) (d : BitVec 3) (a : BitVec 3) (b : BitVec 3) :
    formPPP mk (ofP d) (ofP a) (ofP b) = .ok (mk d a b) := by simp [formPPP]
@[simp] theorem formPVV_fields (mk : BitVec 3 → BitVec 7 → BitVec 7 → Instr) (d : BitVec 3) (a : BitVec 7) (b : BitVec 7) :
    formPVV mk (ofP d) a b = .ok (mk d a b) := by simp [formPVV]
@[simp] theorem formPGG_fields (mk : BitVec 3 → BitVec 6 → BitVec 6 → Instr) (d : BitVec 3) (a : BitVec 6) (b : BitVec 6) :
    formPGG mk (ofP d) (ofG a) (ofG b) = .ok (mk d a b) := by simp [formPGG]
@[simp] theorem formVGG_fields (mk : BitVec 7 → BitVec 6 → BitVec 6 → Instr) (d : BitVec 7) (a : BitVec 6) (b : BitVec 6) :
    formVGG mk d (ofG a) (ofG b) = .ok (mk d a b) := by simp [formVGG]
@[simp] theorem formVGV_fields (mk : BitVec 7 → BitVec 6 → BitVec 7 → Instr) (d : BitVec 7) (a : BitVec 6) (b : BitVec 7) :
    formVGV mk d (ofG a) b = .ok (mk d a b) := by simp [formVGV]
@[simp] theorem formVPV_fields (mk : BitVec 7 → BitVec 3 → BitVec 7 → Instr) (d : BitVec 7) (a : BitVec 3) (b : BitVec 7) :
    formVPV mk d (ofP a) b = .ok (mk d a b) := by simp [formVPV]
@[simp] theorem formVVZ_fields (mk : BitVec 7 → BitVec 7 → Instr) (d : BitVec 7) (a : BitVec 7) :
    formVVZ mk d a 0#7 = .ok (mk d a) := by simp [formVVZ]
@[simp] theorem formVVG_fields (mk : BitVec 7 → BitVec 7 → BitVec 6 → Instr) (d : BitVec 7) (a : BitVec 7) (b : BitVec 6) :
    formVVG mk d a (ofG b) = .ok (mk d a b) := by simp [formVVG]
@[simp] theorem formVVV_fields (mk : BitVec 7 → BitVec 7 → BitVec 7 → Instr) (d : BitVec 7) (a : BitVec 7) (b : BitVec 7) :
    formVVV mk d a b = .ok (mk d a b) := by simp [formVVV]

theorem decode_encode {i : Instr} (hc : i.coded = true) (hw : i.wf = true) : decode (encode i) = .ok i := by
  cases i
  case vadd | vsub | vmul | vmulh | vfma | vfms | vfnma | vdiv =>
    rw [encode, decode_rWord_major00]
    simp only [Instr.wf] at hw
    simp_all [major00]
  case vmin | vmax | vabs | vneg | vrcp | vsqrt | vrsq | vtwosum =>
    rw [encode, decode_rWord_major01]
    simp only [Instr.wf] at hw
    simp_all [major01]
  case vexp2 | vlog2 | vmix | vsel | vmov | vbc | vbcHi | vlane =>
    rw [encode, decode_rWord_major02]
    simp only [Instr.wf] at hw
    simp_all [major02]
  case vand | vor | vxor | vnot | vshl | vshr | vsar | vclz =>
    rw [encode, decode_rWord_major03]
    simp only [Instr.wf] at hw
    simp_all [major03]
  case vpop | vcmpEq | vcmpNe | vcmpLt | vcmpLe | vcmpGt | vcmpGe | vcmpUn =>
    rw [encode, decode_rWord_major04]
    simp only [Instr.wf] at hw
    simp_all [major04]
  case vcvtF32 | vcvtBf16 | vcvtF16 | vcvtE4m3 | vcvtE5m2 | vcvtI8 | vcvtN8 | vcvtI32 =>
    rw [encode, decode_rWord_major05]
    simp only [Instr.wf] at hw
    simp_all [major05]
  case vcvtN32 | vcvtI16 | vcvtN16 | vpack | vunpk =>
    rw [encode, decode_rWord_major06]
    simp only [Instr.wf] at hw
    simp_all [major06]
  case vperm | vbfly | vrot | vbcl | vredAdd | vredMin | vredMax =>
    rw [encode, decode_rWord_major08]
    simp only [Instr.wf] at hw
    simp_all [major08]
  case pand | por | pxor | pnot | qany | qall | pballot | pmask =>
    rw [encode, decode_rWord_major09]
    simp only [Instr.wf] at hw
    simp_all [major09]
  case ldB8 | ldB16 | ldB32 | ldB64 | ldB128 | ldPollB32 | ldPollB64 | gld =>
    rw [encode, decode_rWord_major0A]
    simp only [Instr.wf] at hw
    simp_all [major0A]
  case stB8 | stB16 | stB32 | stB64 | stB128 | gst | ldSys | stSys =>
    rw [encode, decode_rWord_major0B]
    simp only [Instr.wf] at hw
    simp_all [major0B]
  case atomAdd | atomSub | atomMin | atomMax | atomMinn | atomMaxn | atomAnd | atomOr | atomXor | atomExch | atomCas | atomfFaddF32 | atomfFaddBf16x2 | atomfFminF32 | atomfFmaxF32 | cas128 =>
    rw [encode, decode_aWord]
    simp only [Instr.wf] at hw
    simp_all [major0C]
  case redAdd | redSub | redMin | redMax | redMinn | redMaxn | redAnd | redOr | redXor | redFaddF32 | redFaddBf16x2 | redFminF32 | redFmaxF32 =>
    rw [encode, decode_aWord]
    simp only [Instr.wf] at hw
    simp_all [major0C]
    omega
  case sfil | sscl | soff | sclp | spmt | smat | shdr | pst =>
    rw [encode, decode_rWord_major0D]
    simp only [Instr.wf] at hw
    simp_all [major0D]
  case mma | mscale | mzero | mzeroOpen | mdrain | mdrs | mdrp | mcbk =>
    rw [encode, decode_rWord_major0E]
    simp only [Instr.wf] at hw
    simp_all [major0E]
  case gmov | gadd | gsub | gmul | gmulh | gand | gor | gxor =>
    rw [encode, decode_rWord_major10]
    simp only [Instr.wf] at hw
    simp_all [major10]
  case gshl | gshr | gsar | gmin | gmax | gminn | gmaxn | gsel =>
    rw [encode, decode_rWord_major11]
    simp only [Instr.wf] at hw
    simp_all [major11]
  case gclz | gpop | gcmpEq | gcmpNe | gcmpLt | gcmpLe | gcmpLtn | gcmpLen =>
    rw [encode, decode_rWord_major12]
    simp only [Instr.wf] at hw
    simp_all [major12]
  case qand | qor | qxor | qnot | smode | gmode =>
    rw [encode, decode_rWord_major13]
    simp only [Instr.wf] at hw
    simp_all [major13]
  case gldi =>
    rw [encode, decode_iWord_major14]
    simp only [Instr.wf] at hw
    simp_all [majorI]
  case gldh =>
    rw [encode, decode_iWord_major15]
    simp only [Instr.wf] at hw
    simp_all [majorI]
  case gaddi =>
    rw [encode, decode_iWord_major16]
    simp only [Instr.wf] at hw
    simp_all [majorI]
  case smodi =>
    rw [encode, decode_iWord_major17]
    simp only [Instr.wf] at hw
    simp_all [majorI]
  case br => rw [encode, decode_bWord_major18]; simp [major18]
  case brq s c f =>
    have hc : c ≠ 0 := fun h => by simp [h, Instr.wf] at hw
    rw [encode, decode_bWord_major18, major18, if_neg (by simpa using hc)]
  case call | rcv => rw [encode, decode_bWord_major19]; simp [major19]
  case brd s c f =>
    have hc : c ≠ 0 := fun h => by simp [h, Instr.wf] at hw
    rw [encode, decode_bWord_major19, major19, if_neg (by simpa using hc)]
  case cpy | cpyt | cpyx | cpym | cpyr | tlr | tlw | collAr | collRs | collAg | csred | cprio =>
    rw [encode, decode_xWord_major1A]
    simp only [Instr.wf] at hw
    simp_all [major1A]
  case fence | ldaGrp | ldaTeam | ldaClu | ldaDie | ldaDev | ldaSys | acqr | stlGrp | stlTeam | stlClu | stlDie | stlDev | stlSys | bar | bara | barw | barc | trdy | twt | snuff | dclk | dsync | rsig | rchk =>
    rw [encode, decode_xWord_major1B]
    simp only [Instr.wf] at hw
    simp_all [major1B]
  case nop | exit | ret | jmpg | pdem | safe | trap | tret | rdsp | wrsp | spawn | bflush | launch | role =>
    rw [encode, decode_xWord_major1C]
    simp only [Instr.wf] at hw
    simp_all [major1C]
  all_goals cases hc

/-- An outcome of the decoder is faithful to a word: what it accepts is a coded, well-formed instruction with that word. -/
def Faithful (w : BitVec 32) (x : Except Reject Instr) : Prop :=
  ∀ i, x = .ok i → i.coded = true ∧ i.wf = true ∧ encode i = w

theorem error_faithful (w : BitVec 32) (r : Reject) : Faithful w (.error r) := by simp [Faithful]
theorem ok_faithful {w : BitVec 32} {i : Instr} : Faithful w (.ok i) ↔ i.coded = true ∧ i.wf = true ∧ encode i = w := by
  simp [Faithful]
theorem need_faithful {w : BitVec 32} {c : Bool} {r : Reject} {k : Except Reject Instr} :
    Faithful w (need c r k) ↔ (c = true → Faithful w k) := by
  cases c <;> simp [need, error_faithful]

section OperandForms

variable {s n : BitVec 3} {m : BitVec 5} {d a b : BitVec 7}

theorem formZGZ_faithful {mk : BitVec 6 → Instr} (h : ∀ a, Faithful (rWord s m n 0 (ofG a) 0) (.ok (mk a))) :
    Faithful (rWord s m n d a b) (formZGZ mk d a b) := by
  unfold formZGZ
  simp only [need_faithful, Bool.and_eq_true, beq_iff_eq]
  rintro ⟨rfl, rfl⟩ ha
  obtain ⟨a, rfl⟩ := eq_ofG_of_isG ha
  simpa using h _
theorem formGZZ_faithful {mk : BitVec 6 → Instr} (h : ∀ d, Faithful (rWord s m n (ofG d) 0 0) (.ok (mk d))) :
    Faithful (rWord s m n d a b) (formGZZ mk d a b) := by
  unfold formGZZ
  simp only [need_faithful, Bool.and_eq_true, beq_iff_eq]
  rintro ⟨rfl, rfl⟩ hd
  obtain ⟨d, rfl⟩ := eq_ofG_of_isG hd
  simpa using h _
theorem formGGZ_faithful {mk : BitVec 6 → BitVec 6 → Instr} (h : ∀ d a, Faithful (rWord s m n (ofG d) (ofG a) 0) (.ok (mk d a))) :
    Faithful (rWord s m n d a b) (formGGZ mk d a b) := by
  unfold formGGZ
  simp only [need_faithful, Bool.and_eq_true, beq_iff_eq]
  rintro rfl ⟨hd, ha⟩
  obtain ⟨d, rfl⟩ := eq_ofG_of_isG hd
  obtain ⟨a, rfl⟩ := eq_ofG_of_isG ha
  simpa using h _ _
theorem formGGG_faithful {mk : BitVec 6 → BitVec 6 → BitVec 6 → Instr} (h : ∀ d a b, Faithful (rWord s m n (ofG d) (ofG a) (ofG b)) (.ok (mk d a b))) :
    Faithful (rWord s m n d a b) (formGGG mk d a b) := by
  unfold formGGG
  simp only [need_faithful, Bool.and_eq_true, beq_iff_eq]
  rintro ⟨⟨hd, ha⟩, hb⟩
  obtain ⟨d, rfl⟩ := eq_ofG_of_isG hd
  obtain ⟨a, rfl⟩ := eq_ofG_of_isG ha
  obtain ⟨b, rfl⟩ := eq_ofG_of_isG hb
  simpa using h _ _ _
theorem formGPZ_faithful {mk : BitVec 6 → BitVec 3 → Instr} (h : ∀ d a, Faithful (rWord s m n (ofG d) (ofP a) 0) (.ok (mk d a))) :
    Faithful (rWord s m n d a b) (formGPZ mk d a b) := by
  unfold formGPZ
  simp only [need_faithful, Bool.and_eq_true, beq_iff_eq]
  rintro rfl hd ha
  obtain ⟨d, rfl⟩ := eq_ofG_of_isG hd
  obtain ⟨a, rfl⟩ := eq_ofP_of_isP ha
  simpa using h _ _
theorem formGPG_faithful {mk : BitVec 6 → BitVec 3 → BitVec 6 → Instr} (h : ∀ d a b, Faithful (rWord s m n (ofG d) (ofP a) (ofG b)) (.ok (mk d a b))) :
    Faithful (rWord s m n d a b) (formGPG mk d a b) := by
  unfold formGPG
  simp only [need_faithful, Bool.and_eq_true, beq_iff_eq]
  rintro ⟨hd, hb⟩ ha
  obtain ⟨d, rfl⟩ := eq_ofG_of_isG hd
  obtain ⟨b, rfl⟩ := eq_ofG_of_isG hb
  obtain ⟨a, rfl⟩ := eq_ofP_of_isP ha
  simpa using h _ _ _
theorem formGVZ_faithful {mk : BitVec 6 → BitVec 7 → Instr} (h : ∀ d, Faithful (rWord s m n (ofG d) a 0) (.ok (mk d a))) :
    Faithful (rWord s m n d a b) (formGVZ mk d a b) := by
  unfold formGVZ
  simp only [need_faithful, Bool.and_eq_true, beq_iff_eq]
  rintro rfl hd
  obtain ⟨d, rfl⟩ := eq_ofG_of_isG hd
  simpa using h _
theorem formGVG_faithful {mk : BitVec 6 → BitVec 7 → BitVec 6 → Instr} (h : ∀ d b, Faithful (rWord s m n (ofG d) a (ofG b)) (.ok (mk d a b))) :
    Faithful (rWord s m n d a b) (formGVG mk d a b) := by
  unfold formGVG
  simp only [need_faithful, Bool.and_eq_true, beq_iff_eq]
  rintro ⟨hd, hb⟩
  obtain ⟨d, rfl⟩ := eq_ofG_of_isG hd
  obtain ⟨b, rfl⟩ := eq_ofG_of_isG hb
  simpa using h _ _
theorem formPGZ_faithful {mk : BitVec 3 → BitVec 6 → Instr} (h : ∀ d a, Faithful (rWord s m n (ofP d) (ofG a) 0) (.ok (mk d a))) :
    Faithful (rWord s m n d a b) (formPGZ mk d a b) := by
  unfold formPGZ
  simp only [need_faithful, Bool.and_eq_true, beq_iff_eq]
  rintro rfl hd ha
  obtain ⟨d, rfl⟩ := eq_ofP_of_isP hd
  obtain ⟨a, rfl⟩ := eq_ofG_of_isG ha
  simpa using h _ _
theorem formPPZ_faithful {mk : BitVec 3 → BitVec 3 → Instr} (h : ∀ d a, Faithful (rWord s m n (ofP d) (ofP a) 0) (.ok (mk d a))) :
    Faithful (rWord s m n d a b) (formPPZ mk d a b) := by
  unfold formPPZ
  simp only [need_faithful, Bool.and_eq_true, beq_iff_eq]
  rintro rfl ⟨hd, ha⟩
  obtain ⟨d, rfl⟩ := eq_ofP_of_isP hd
  obtain ⟨a, rfl⟩ := eq_ofP_of_isP ha
  simpa using h _ _
theorem formPPP_faithful {mk : BitVec 3 → BitVec 3 → BitVec 3 → Instr} (h : ∀ d a b, Faithful (rWord s m n (ofP d) (ofP a) (ofP b)) (.ok (mk d a b))) :
    Faithful (rWord s m n d a b) (formPPP mk d a b) := by
  unfold formPPP
  simp only [need_faithful, Bool.and_eq_true, beq_iff_eq]
  rintro ⟨⟨hd, ha⟩, hb⟩
  obtain ⟨d, rfl⟩ := eq_ofP_of_isP hd
  obtain ⟨a, rfl⟩ := eq_ofP_of_isP ha
  obtain ⟨b, rfl⟩ := eq_ofP_of_isP hb
  simpa using h _ _ _
theorem formPVV_faithful {mk : BitVec 3 → BitVec 7 → BitVec 7 → Instr} (h : ∀ d, Faithful (rWord s m n (ofP d) a b) (.ok (mk d a b))) :
    Faithful (rWord s m n d a b) (formPVV mk d a b) := by
  unfold formPVV
  simp only [need_faithful, Bool.and_eq_true, beq_iff_eq]
  rintro hd
  obtain ⟨d, rfl⟩ := eq_ofP_of_isP hd
  simpa using h _
theorem formPGG_faithful {mk : BitVec 3 → BitVec 6 → BitVec 6 → Instr} (h : ∀ d a b, Faithful (rWord s m n (ofP d) (ofG a) (ofG b)) (.ok (mk d a b))) :
    Faithful (rWord s m n d a b) (formPGG mk d a b) := by
  unfold formPGG
  simp only [need_faithful, Bool.and_eq_true, beq_iff_eq]
  rintro hd ⟨ha, hb⟩
  obtain ⟨d, rfl⟩ := eq_ofP_of_isP hd
  obtain ⟨a, rfl⟩ := eq_ofG_of_isG ha
  obtain ⟨b, rfl⟩ := eq_ofG_of_isG hb
  simpa using h _ _ _
theorem formVGG_faithful {mk : BitVec 7 → BitVec 6 → BitVec 6 → Instr} (h : ∀ a b, Faithful (rWord s m n d (ofG a) (ofG b)) (.ok (mk d a b))) :
    Faithful (rWord s m n d a b) (formVGG mk d a b) := by
  unfold formVGG
  simp only [need_faithful, Bool.and_eq_true, beq_iff_eq]
  rintro ⟨ha, hb⟩
  obtain ⟨a, rfl⟩ := eq_ofG_of_isG ha
  obtain ⟨b, rfl⟩ := eq_ofG_of_isG hb
  simpa using h _ _
theorem formVGV_faithful {mk : BitVec 7 → BitVec 6 → BitVec 7 → Instr} (h : ∀ a, Faithful (rWord s m n d (ofG a) b) (.ok (mk d a b))) :
    Faithful (rWord s m n d a b) (formVGV mk d a b) := by
  unfold formVGV
  simp only [need_faithful, Bool.and_eq_true, beq_iff_eq]
  rintro ha
  obtain ⟨a, rfl⟩ := eq_ofG_of_isG ha
  simpa using h _
theorem formVPV_faithful {mk : BitVec 7 → BitVec 3 → BitVec 7 → Instr} (h : ∀ a, Faithful (rWord s m n d (ofP a) b) (.ok (mk d a b))) :
    Faithful (rWord s m n d a b) (formVPV mk d a b) := by
  unfold formVPV
  simp only [need_faithful, Bool.and_eq_true, beq_iff_eq]
  rintro ha
  obtain ⟨a, rfl⟩ := eq_ofP_of_isP ha
  simpa using h _
theorem formVVZ_faithful {mk : BitVec 7 → BitVec 7 → Instr} (h : Faithful (rWord s m n d a 0) (.ok (mk d a))) :
    Faithful (rWord s m n d a b) (formVVZ mk d a b) := by
  unfold formVVZ
  simp only [need_faithful, Bool.and_eq_true, beq_iff_eq]
  rintro rfl
  exact h
theorem formVVG_faithful {mk : BitVec 7 → BitVec 7 → BitVec 6 → Instr} (h : ∀ b, Faithful (rWord s m n d a (ofG b)) (.ok (mk d a b))) :
    Faithful (rWord s m n d a b) (formVVG mk d a b) := by
  unfold formVVG
  simp only [need_faithful, Bool.and_eq_true, beq_iff_eq]
  rintro hb
  obtain ⟨b, rfl⟩ := eq_ofG_of_isG hb
  simpa using h _
theorem formVVV_faithful {mk : BitVec 7 → BitVec 7 → BitVec 7 → Instr} (h : Faithful (rWord s m n d a b) (.ok (mk d a b))) :
    Faithful (rWord s m n d a b) (formVVV mk d a b) := h

end OperandForms


theorem minor_cases (n : BitVec 3) : n = 0 ∨ n = 1 ∨ n = 2 ∨ n = 3 ∨ n = 4 ∨ n = 5 ∨ n = 6 ∨ n = 7 := by decide +revert

theorem Faithful.of_ok {w : BitVec 32} {i : Instr} (hc : i.coded = true) (hw : i.wf = true) (he : encode i = w) : Faithful w (.ok i) :=
  ok_faithful.2 ⟨hc, hw, he⟩

section GuardedForms

variable {s n : BitVec 3} {m : BitVec 5} {d a b : BitVec 7}

/-! The forms with the register block that a test before them has looked at. -/

theorem formGGG_faithful_of {mk : BitVec 6 → BitVec 6 → BitVec 6 → Instr}
    (h : ∀ d' a' b', d = ofG d' → a = ofG a' → b = ofG b' → Faithful (rWord s m n (ofG d') (ofG a') (ofG b')) (.ok (mk d' a' b'))) :
    Faithful (rWord s m n d a b) (formGGG mk d a b) := by
  simp only [formGGG, need_faithful, Bool.and_eq_true]
  rintro ⟨⟨hd, ha⟩, hb⟩
  obtain ⟨d, rfl⟩ := eq_ofG_of_isG hd
  obtain ⟨a, rfl⟩ := eq_ofG_of_isG ha
  obtain ⟨b, rfl⟩ := eq_ofG_of_isG hb
  simpa using h d a b rfl rfl rfl
theorem formGGZ_faithful_of {mk : BitVec 6 → BitVec 6 → Instr}
    (h : ∀ d' a', d = ofG d' → Faithful (rWord s m n (ofG d') (ofG a') 0) (.ok (mk d' a'))) :
    Faithful (rWord s m n d a b) (formGGZ mk d a b) := by
  simp only [formGGZ, need_faithful, Bool.and_eq_true, beq_iff_eq]
  rintro rfl ⟨hd, ha⟩
  obtain ⟨d, rfl⟩ := eq_ofG_of_isG hd
  obtain ⟨a, rfl⟩ := eq_ofG_of_isG ha
  simpa using h d a rfl
theorem formVGG_faithful_of {mk : BitVec 7 → BitVec 6 → BitVec 6 → Instr}
    (h : ∀ a' b', b = ofG b' → Faithful (rWord s m n d (ofG a') (ofG b')) (.ok (mk d a' b'))) :
    Faithful (rWord s m n d a b) (formVGG mk d a b) := by
  simp only [formVGG, need_faithful, Bool.and_eq_true]
  rintro ⟨ha, hb⟩
  obtain ⟨a, rfl⟩ := eq_ofG_of_isG ha
  obtain ⟨b, rfl⟩ := eq_ofG_of_isG hb
  simpa using h a b rfl

end GuardedForms

section Majors

variable (s n : BitVec 3) (d a b : BitVec 7)

theorem major00_faithful : Faithful (rWord s 0x00 n d a b) (major00 s n d a b) := by
  obtain rfl | rfl | rfl | rfl | rfl | rfl | rfl | rfl := minor_cases n
  · exact need_faithful.2 fun h => formVVV_faithful (.of_ok rfl h rfl)
  all_goals exact formVVV_faithful (.of_ok rfl rfl rfl)

theorem major01_faithful : Faithful (rWord s 0x01 n d a b) (major01 s n d a b) := by
  obtain rfl | rfl | rfl | rfl | rfl | rfl | rfl | rfl := minor_cases n
  · exact formVVV_faithful (.of_ok rfl rfl rfl)
  · exact formVVV_faithful (.of_ok rfl rfl rfl)
  · exact formVVZ_faithful (.of_ok rfl rfl rfl)
  · exact formVVZ_faithful (.of_ok rfl rfl rfl)
  · exact formVVZ_faithful (.of_ok rfl rfl rfl)
  · exact formVVZ_faithful (.of_ok rfl rfl rfl)
  · exact formVVZ_faithful (.of_ok rfl rfl rfl)
  · exact need_faithful.2 fun h => formVVV_faithful (.of_ok rfl h rfl)

theorem major02_faithful : Faithful (rWord s 0x02 n d a b) (major02 s n d a b) := by
  obtain rfl | rfl | rfl | rfl | rfl | rfl | rfl | rfl := minor_cases n
  · exact formVVZ_faithful (.of_ok rfl rfl rfl)
  · exact formVVZ_faithful (.of_ok rfl rfl rfl)
  · exact formVVV_faithful (.of_ok rfl rfl rfl)
  · exact formVPV_faithful fun _ => .of_ok rfl rfl rfl
  · exact formVVZ_faithful (.of_ok rfl rfl rfl)
  · refine need_faithful.2 fun ha => ?_
    obtain ⟨a, rfl⟩ := eq_ofG_of_isG ha
    rw [toG_ofG]
    split
    next hb => exact .of_ok rfl rfl (by rw [eq_of_beq hb]; rfl)
    next =>
      split
      next hb => exact .of_ok rfl rfl (by rw [eq_of_beq hb]; rfl)
      next => exact error_faithful _ _
  · exact formGVG_faithful fun _ _ => .of_ok rfl rfl rfl
  · exact error_faithful _ _

theorem major03_faithful : Faithful (rWord s 0x03 n d a b) (major03 s n d a b) := by
  obtain rfl | rfl | rfl | rfl | rfl | rfl | rfl | rfl := minor_cases n
  · exact formVVV_faithful (.of_ok rfl rfl rfl)
  · exact formVVV_faithful (.of_ok rfl rfl rfl)
  · exact formVVV_faithful (.of_ok rfl rfl rfl)
  · exact formVVZ_faithful (.of_ok rfl rfl rfl)
  · exact formVVV_faithful (.of_ok rfl rfl rfl)
  · exact formVVV_faithful (.of_ok rfl rfl rfl)
  · exact formVVV_faithful (.of_ok rfl rfl rfl)
  · exact formVVZ_faithful (.of_ok rfl rfl rfl)

theorem major04_faithful : Faithful (rWord s 0x04 n d a b) (major04 s n d a b) := by
  obtain rfl | rfl | rfl | rfl | rfl | rfl | rfl | rfl := minor_cases n
  · exact formVVZ_faithful (.of_ok rfl rfl rfl)
  all_goals exact formPVV_faithful fun _ => .of_ok rfl rfl rfl

theorem major05_faithful : Faithful (rWord s 0x05 n d a b) (major05 s n d a b) := by
  obtain rfl | rfl | rfl | rfl | rfl | rfl | rfl | rfl := minor_cases n
  all_goals exact formVVZ_faithful (.of_ok rfl rfl rfl)

theorem major06_faithful : Faithful (rWord s 0x06 n d a b) (major06 s n d a b) := by
  obtain rfl | rfl | rfl | rfl | rfl | rfl | rfl | rfl := minor_cases n
  · exact formVVZ_faithful (.of_ok rfl rfl rfl)
  · exact formVVZ_faithful (.of_ok rfl rfl rfl)
  · exact formVVZ_faithful (.of_ok rfl rfl rfl)
  · exact formVVV_faithful (.of_ok rfl rfl rfl)
  · exact need_faithful.2 fun h => formVVZ_faithful (.of_ok rfl h rfl)
  all_goals exact error_faithful _ _

theorem major08_faithful : Faithful (rWord s 0x08 n d a b) (major08 s n d a b) := by
  obtain rfl | rfl | rfl | rfl | rfl | rfl | rfl | rfl := minor_cases n
  · exact formVVV_faithful (.of_ok rfl rfl rfl)
  · exact formVVG_faithful fun _ => .of_ok rfl rfl rfl
  · exact formVVG_faithful fun _ => .of_ok rfl rfl rfl
  · exact formVVG_faithful fun _ => .of_ok rfl rfl rfl
  · exact formGVZ_faithful fun _ => .of_ok rfl rfl rfl
  · exact formGVZ_faithful fun _ => .of_ok rfl rfl rfl
  · exact formGVZ_faithful fun _ => .of_ok rfl rfl rfl
  · exact error_faithful _ _

theorem major09_faithful : Faithful (rWord s 0x09 n d a b) (major09 s n d a b) := by
  obtain rfl | rfl | rfl | rfl | rfl | rfl | rfl | rfl := minor_cases n
  · exact formPPP_faithful fun _ _ _ => .of_ok rfl rfl rfl
  · exact formPPP_faithful fun _ _ _ => .of_ok rfl rfl rfl
  · exact formPPP_faithful fun _ _ _ => .of_ok rfl rfl rfl
  · exact formPPZ_faithful fun _ _ => .of_ok rfl rfl rfl
  · exact formPPZ_faithful fun _ _ => .of_ok rfl rfl rfl
  · exact formPPZ_faithful fun _ _ => .of_ok rfl rfl rfl
  · exact formGPZ_faithful fun _ _ => .of_ok rfl rfl rfl
  · exact formPGZ_faithful fun _ _ => .of_ok rfl rfl rfl

theorem major0A_faithful : Faithful (rWord s 0x0A n d a b) (major0A s n d a b) := by
  obtain rfl | rfl | rfl | rfl | rfl | rfl | rfl | rfl := minor_cases n
  · exact formVGV_faithful fun _ => .of_ok rfl rfl rfl
  · exact formVGV_faithful fun _ => .of_ok rfl rfl rfl
  · exact formVGV_faithful fun _ => .of_ok rfl rfl rfl
  · exact need_faithful.2 fun h => formVGV_faithful fun _ => .of_ok rfl h rfl
  · exact need_faithful.2 fun h => formVGV_faithful fun _ => .of_ok rfl h rfl
  · exact formVGV_faithful fun _ => .of_ok rfl rfl rfl
  · exact need_faithful.2 fun h => formVGV_faithful fun _ => .of_ok rfl h rfl
  · exact formGGG_faithful fun _ _ _ => .of_ok rfl rfl rfl

theorem major0B_faithful : Faithful (rWord s 0x0B n d a b) (major0B s n d a b) := by
  obtain rfl | rfl | rfl | rfl | rfl | rfl | rfl | rfl := minor_cases n
  · exact formVGV_faithful fun _ => .of_ok rfl rfl rfl
  · exact formVGV_faithful fun _ => .of_ok rfl rfl rfl
  · exact formVGV_faithful fun _ => .of_ok rfl rfl rfl
  · exact need_faithful.2 fun h => formVGV_faithful fun _ => .of_ok rfl h rfl
  · exact need_faithful.2 fun h => formVGV_faithful fun _ => .of_ok rfl h rfl
  · exact formGGG_faithful fun _ _ _ => .of_ok rfl rfl rfl
  · exact need_faithful.2 fun h => formVGV_faithful fun _ => .of_ok rfl h rfl
  · exact need_faithful.2 fun h => formVGV_faithful fun _ => .of_ok rfl h rfl

theorem major0D_faithful : Faithful (rWord s 0x0D n d a b) (major0D s n d a b) := by
  obtain rfl | rfl | rfl | rfl | rfl | rfl | rfl | rfl := minor_cases n
  · exact formGGG_faithful fun _ _ _ => .of_ok rfl rfl rfl
  · exact formGGG_faithful fun _ _ _ => .of_ok rfl rfl rfl
  · exact formGGG_faithful fun _ _ _ => .of_ok rfl rfl rfl
  · exact formGGG_faithful fun _ _ _ => .of_ok rfl rfl rfl
  · exact need_faithful.2 fun h => formGGG_faithful_of fun _ _ _ _ _ hb => .of_ok rfl (by simpa [Instr.wf, hb] using h) rfl
  · exact formGGZ_faithful fun _ _ => .of_ok rfl rfl rfl
  · exact need_faithful.2 fun h => formGGZ_faithful_of fun _ _ hd => .of_ok rfl (by simpa [Instr.wf, hd] using h) rfl
  · exact need_faithful.2 fun h => formVGG_faithful_of fun _ _ hb => .of_ok rfl (by simpa [Instr.wf, hb] using h) rfl

theorem major10_faithful : Faithful (rWord s 0x10 n d a b) (major10 s n d a b) := by
  obtain rfl | rfl | rfl | rfl | rfl | rfl | rfl | rfl := minor_cases n
  · exact formGGZ_faithful fun _ _ => .of_ok rfl rfl rfl
  all_goals exact formGGG_faithful fun _ _ _ => .of_ok rfl rfl rfl

theorem major11_faithful : Faithful (rWord s 0x11 n d a b) (major11 s n d a b) := by
  obtain rfl | rfl | rfl | rfl | rfl | rfl | rfl | rfl := minor_cases n
  · exact formGGG_faithful fun _ _ _ => .of_ok rfl rfl rfl
  · exact formGGG_faithful fun _ _ _ => .of_ok rfl rfl rfl
  · exact formGGG_faithful fun _ _ _ => .of_ok rfl rfl rfl
  · exact formGGG_faithful fun _ _ _ => .of_ok rfl rfl rfl
  · exact formGGG_faithful fun _ _ _ => .of_ok rfl rfl rfl
  · exact formGGG_faithful fun _ _ _ => .of_ok rfl rfl rfl
  · exact formGGG_faithful fun _ _ _ => .of_ok rfl rfl rfl
  · exact formGPG_faithful fun _ _ _ => .of_ok rfl rfl rfl

theorem major12_faithful : Faithful (rWord s 0x12 n d a b) (major12 s n d a b) := by
  obtain rfl | rfl | rfl | rfl | rfl | rfl | rfl | rfl := minor_cases n
  · exact formGGZ_faithful fun _ _ => .of_ok rfl rfl rfl
  · exact formGGZ_faithful fun _ _ => .of_ok rfl rfl rfl
  all_goals exact formPGG_faithful fun _ _ _ => .of_ok rfl rfl rfl

theorem major13_faithful : Faithful (rWord s 0x13 n d a b) (major13 s n d a b) := by
  obtain rfl | rfl | rfl | rfl | rfl | rfl | rfl | rfl := minor_cases n
  · exact formPPP_faithful fun _ _ _ => .of_ok rfl rfl rfl
  · exact formPPP_faithful fun _ _ _ => .of_ok rfl rfl rfl
  · exact formPPP_faithful fun _ _ _ => .of_ok rfl rfl rfl
  · exact formPPZ_faithful fun _ _ => .of_ok rfl rfl rfl
  · exact formZGZ_faithful fun _ => .of_ok rfl rfl rfl
  · exact formGZZ_faithful fun _ => .of_ok rfl rfl rfl
  · exact error_faithful _ _
  · exact error_faithful _ _
end Majors

section Payloads

theorem transfer_eq {p : BitVec 19} (hz : sub 0 9 p = 0) :
    sub 16 3 p ++ sub 15 1 p ++ sub 9 6 p ++ (0 : BitVec 9) = p := by
  have h := transfer_fields p
  rwa [hz] at h
theorem transferLanes_eq {p : BitVec 19} (hz : sub 0 2 p = 0) :
    sub 16 3 p ++ sub 15 1 p ++ sub 9 6 p ++ sub 2 7 p ++ (0 : BitVec 2) = p := by
  have h := transferLanes_fields p
  rwa [hz] at h
theorem collective_eq {p : BitVec 19} (hz : sub 0 9 p = 0) (hc : sub 15 1 p = 0) :
    sub 16 3 p ++ (0 : BitVec 1) ++ sub 9 6 p ++ (0 : BitVec 9) = p := by
  have h := transfer_fields p
  rwa [hz, hc] at h
theorem collectiveLanes_eq {p : BitVec 19} (hz : sub 0 2 p = 0) (hc : sub 15 1 p = 0) :
    sub 16 3 p ++ (0 : BitVec 1) ++ sub 9 6 p ++ sub 2 7 p ++ (0 : BitVec 2) = p := by
  have h := transferLanes_fields p
  rwa [hz, hc] at h
theorem timeline_eq {p : BitVec 19} (hz : sub 0 7 p = 0) (hy : sub 15 4 p = 0) :
    (0 : BitVec 4) ++ sub 9 6 p ++ sub 7 2 p ++ (0 : BitVec 7) = p := by
  have h := timeline_fields p
  rwa [hz, hy] at h
theorem oneGroup_eq {p : BitVec 19} (hz : sub 0 13 p = 0) :
    sub 13 6 p ++ (0 : BitVec 13) = p := by
  have h := oneGroup_fields p
  rwa [hz] at h
theorem fence_eq {p : BitVec 19} (hz : sub 0 14 p = 0) :
    sub 17 2 p ++ sub 14 3 p ++ (0 : BitVec 14) = p := by
  have h := fence_fields p
  rwa [hz] at h
theorem threeGroups_eq {p : BitVec 19} (hz : sub 0 1 p = 0) :
    sub 13 6 p ++ sub 7 6 p ++ sub 1 6 p ++ (0 : BitVec 1) = p := by
  have h := threeGroups_fields p
  rwa [hz] at h
theorem twoGroups_eq {p : BitVec 19} (hz : sub 0 7 p = 0) :
    sub 13 6 p ++ sub 7 6 p ++ (0 : BitVec 7) = p := by
  have h := twoGroups_fields p
  rwa [hz] at h
theorem barrier_eq {p : BitVec 19} (hz : sub 0 13 p = 0) :
    sub 17 2 p ++ sub 13 4 p ++ (0 : BitVec 13) = p := by
  have h := barrier_fields p
  rwa [hz] at h
theorem barrierGroup_eq {p : BitVec 19} (hz : sub 0 7 p = 0) (hl : sub 17 2 p = 1) :
    (1 : BitVec 2) ++ sub 13 4 p ++ sub 7 6 p ++ (0 : BitVec 7) = p := by
  have h := barrierGroup_fields p
  rwa [hz, hl] at h
theorem safe_eq {p : BitVec 19} (hz : sub 0 7 p = 0) :
    sub 7 12 p ++ (0 : BitVec 7) = p := by
  have h := safe_fields p
  rwa [hz] at h
theorem trap_eq {p : BitVec 19} (hz : sub 0 11 p = 0) :
    sub 11 8 p ++ (0 : BitVec 11) = p := by
  have h := trap_fields p
  rwa [hz] at h
theorem special_eq {p : BitVec 19} (hz : sub 0 6 p = 0) :
    sub 12 7 p ++ sub 6 6 p ++ (0 : BitVec 6) = p := by
  have h := special_fields p
  rwa [hz] at h
theorem role_eq {p : BitVec 19} (hz : sub 0 17 p = 0) :
    sub 17 2 p ++ (0 : BitVec 17) = p := by
  have h := role_fields p
  rwa [hz] at h

end Payloads

section OtherMajors

variable (s : BitVec 3)

theorem Faithful.of_a {op : BitVec 4} {w nr : BitVec 1} {r : BitVec 3} {v a : BitVec 4} {b : BitVec 7} {i : Instr} {k : Nat}
    (h : op.toNat = k) (hc : i.coded = true) (hw : i.wf = true) (he : encode i = aWord s (BitVec.ofNat 4 k) w nr r v a b) :
    Faithful (aWord s op w nr r v a b) (.ok i) := by
  obtain rfl : op = BitVec.ofNat 4 k := by rw [← h, BitVec.ofNat_toNat, BitVec.setWidth_eq]
  exact .of_ok hc hw he

theorem major0C_faithful (op : BitVec 4) (w nr : BitVec 1) (r : BitVec 3) (v a : BitVec 4) (b : BitVec 7) :
    Faithful (aWord s op w nr r v a b) (major0C s op w nr r v a b) := by
  refine need_faithful.2 fun hr => ?_
  split
  next hnr =>
    obtain rfl := eq_of_beq hnr
    split
    case h_11 h => exact need_faithful.2 fun ha => .of_a s h rfl (Bool.and_eq_true_iff.2 ⟨hr, ha⟩) rfl
    case h_12 h | h_13 h | h_14 h | h_15 h =>
      exact need_faithful.2 fun hw => .of_a s h rfl hr (by rw [eq_of_beq hw]; rfl)
    case h_16 h =>
      exact need_faithful.2 fun hw => need_faithful.2 fun hv => .of_a s h rfl (Bool.and_eq_true_iff.2 ⟨hr, hv⟩) (by rw [eq_of_beq hw]; rfl)
    case h_17 => exact error_faithful _ _
    all_goals exact need_faithful.2 fun ha => .of_a s ‹_› rfl (Bool.and_eq_true_iff.2 ⟨hr, ha⟩) rfl
  next hnr =>
    obtain rfl : nr = 1 := by revert hnr; decide +revert
    refine need_faithful.2 fun he => ?_
    split
    case h_10 h | h_11 h | h_12 h | h_13 h => exact need_faithful.2 fun hw => .of_a s h rfl he (by rw [eq_of_beq hw]; rfl)
    case h_14 => exact error_faithful _ _
    all_goals exact need_faithful.2 fun ha => .of_a s ‹_› rfl (Bool.and_eq_true_iff.2 ⟨he, ha⟩) rfl

theorem hi4_lo3 (x : BitVec 7) : hi4 x ++ lo3 x = x := by
  refine BitVec.eq_of_getLsbD_eq fun i hi => ?_
  rw [BitVec.getLsbD_append]
  simp
  grind
theorem accumulator_eq {x : BitVec 7} (h : hi4 x = 0) : (0 : BitVec 4) ++ lo3 x = x := by rw [← h, hi4_lo3]

theorem major0E_faithful (n : BitVec 3) (d a b : BitVec 7) : Faithful (rWord s 0x0E n d a b) (major0E s n d a b) := by
  obtain rfl | rfl | rfl | rfl | rfl | rfl | rfl | rfl := minor_cases n
  · refine .of_ok rfl rfl (congrArg (fun d => rWord s 0x0E 0 d a b) ?_)
    refine BitVec.eq_of_getLsbD_eq fun i hi => ?_
    rw [BitVec.getLsbD_append]
    simp
    grind
  · refine need_faithful.2 fun h => ?_
    simp only [Bool.and_eq_true, beq_iff_eq] at h
    obtain ⟨hd, rfl⟩ := h
    exact .of_ok rfl rfl (congrArg (fun d => rWord s 0x0E 1 d a 0) (accumulator_eq hd))
  · refine need_faithful.2 fun h => ?_
    simp only [Bool.and_eq_true, beq_iff_eq] at h
    obtain ⟨hd, rfl⟩ := h
    split
    next hb =>
      obtain rfl := eq_of_beq hb
      exact .of_ok rfl rfl (congrArg (fun d => rWord s 0x0E 2 d 0 0) (accumulator_eq hd))
    next =>
      split
      next hb =>
        obtain rfl := eq_of_beq hb
        exact .of_ok rfl rfl (congrArg (fun d => rWord s 0x0E 2 d 0 1) (accumulator_eq hd))
      next => exact error_faithful _ _
  · refine need_faithful.2 fun ht => need_faithful.2 fun hd => need_faithful.2 fun hb => need_faithful.2 fun hk => ?_
    obtain ⟨b, rfl⟩ := eq_ofG_of_isG hb
    rw [toG_ofG]
    refine .of_ok rfl ?_ (congrArg (fun a => rWord s 0x0E 3 d a (ofG b)) (hi4_lo3 a))
    simpa [Instr.wf, ht, hd] using hk
  · refine need_faithful.2 fun hb => need_faithful.2 fun ht => need_faithful.2 fun hd => need_faithful.2 fun hk => ?_
    obtain ⟨d, rfl⟩ := eq_ofG_of_isG hd
    obtain rfl := eq_of_beq hb
    rw [toG_ofG]
    refine .of_ok rfl ?_ (congrArg (fun a => rWord s 0x0E 4 (ofG d) a 0) (hi4_lo3 a))
    simpa [Instr.wf, ht] using hk
  · refine need_faithful.2 fun h => need_faithful.2 fun hd => ?_
    simp only [Bool.and_eq_true, beq_iff_eq] at h
    obtain ⟨ha, rfl⟩ := h
    obtain ⟨d, rfl⟩ := eq_ofG_of_isG hd
    rw [toG_ofG]
    exact .of_ok rfl rfl (congrArg (fun a => rWord s 0x0E 5 (ofG d) a 0) (accumulator_eq ha))
  · refine need_faithful.2 fun hd => need_faithful.2 fun hab => ?_
    obtain ⟨ha, hb⟩ := Bool.and_eq_true_iff.1 hab
    obtain ⟨a, rfl⟩ := eq_ofG_of_isG ha
    obtain ⟨b, rfl⟩ := eq_ofG_of_isG hb
    rw [toG_ofG, toG_ofG]
    refine .of_ok rfl rfl (congrArg (fun d => rWord s 0x0E 6 d (ofG a) (ofG b)) ?_)
    rw [← eq_of_beq hd]
    refine BitVec.eq_of_getLsbD_eq fun i hi => ?_
    rw [BitVec.getLsbD_append]
    simp
    grind
  · exact error_faithful _ _

theorem majorI_faithful (m : BitVec 5) (d : BitVec 7) (k : BitVec 17) (hm : m ∈ [0x14, 0x15, 0x16, 0x17]) :
    Faithful (iWord s m d k) (majorI m.toNat s d k) := by
  refine need_faithful.2 fun hd => ?_
  obtain ⟨d, rfl⟩ := eq_ofG_of_isG hd
  rw [toG_ofG]
  simp only [List.mem_cons, List.not_mem_nil, or_false] at hm
  obtain rfl | rfl | rfl | rfl := hm
  · exact .of_ok rfl rfl rfl
  · refine need_faithful.2 fun hk => .of_ok rfl rfl (congrArg (iWord s 0x15 (ofG d)) ?_)
    rw [← eq_of_beq hk]
    refine BitVec.eq_of_getLsbD_eq fun i hi => ?_
    rw [BitVec.getLsbD_append]
    simp
    grind
  · exact .of_ok rfl rfl rfl
  · refine need_faithful.2 fun hk => .of_ok rfl rfl (congrArg (iWord s 0x17 (ofG d)) ?_)
    rw [← eq_of_beq hk]
    refine BitVec.eq_of_getLsbD_eq fun i hi => ?_
    rw [BitVec.getLsbD_append, BitVec.getLsbD_append]
    simp
    grind

theorem major18_faithful (c : BitVec 3) (f : BitVec 21) : Faithful (bWord s 0x18 c f) (major18 s c f) := by
  unfold major18
  split
  next hc => exact .of_ok rfl rfl (by rw [eq_of_beq hc]; rfl)
  next hc => exact .of_ok rfl (by simpa [Instr.wf, ← BitVec.toNat_inj] using hc) rfl

theorem major19_faithful (c : BitVec 3) (f : BitVec 21) : Faithful (bWord s 0x19 c f) (major19 s c f) := by
  have hf : f.extractLsb' 20 1 ++ f.extractLsb' 0 20 = f := by
    refine BitVec.eq_of_getLsbD_eq fun i hi => ?_
    rw [BitVec.getLsbD_append]
    simp
    grind
  unfold major19
  split
  next hc =>
    obtain rfl := eq_of_beq hc
    split
    next h => exact .of_ok rfl rfl (congrArg (bWord s 0x19 0) (by rw [← eq_of_beq h, hf]))
    next h =>
      have h1 : f.extractLsb' 20 1 = 1 := by
        revert h
        generalize f.extractLsb' 20 1 = x
        decide +revert
      exact .of_ok rfl rfl (congrArg (bWord s 0x19 0) (by rw [← h1, hf]))
  next hc => exact .of_ok rfl (by simpa [Instr.wf, ← BitVec.toNat_inj] using hc) rfl

end OtherMajors

section SubOperations

variable (s : BitVec 3) (op : BitVec 5) (p : BitVec 19)

/-- What a sub-operation with its payload accepts is faithful to the word. -/
theorem Faithful.of_x {s : BitVec 3} {m op : BitVec 5} {p q : BitVec 19} {i : Instr} {k : Nat} (h : op.toNat = k)
    (hc : i.coded = true) (hw : i.wf = true) (he : encode i = xWord s m (BitVec.ofNat 5 k) q) (hq : q = p) :
    Faithful (xWord s m op p) (.ok i) := by
  obtain rfl : op = BitVec.ofNat 5 k := by rw [← h, BitVec.ofNat_toNat, BitVec.setWidth_eq]
  exact .of_ok hc hw (he.trans (by rw [hq]))

theorem whole_eq {p : BitVec 19} (h : (sub 0 19 p == 0) = true) : (0 : BitVec 19) = p := by rw [← eq_of_beq h, sub_whole]

theorem major1A_faithful : Faithful (xWord s 0x1A op p) (major1A s op p) := by
  unfold major1A
  split
  case h_1 h | h_2 h | h_4 h | h_5 h =>
    exact need_faithful.2 fun hz => need_faithful.2 fun hg => .of_x h rfl hg rfl (transfer_eq (eq_of_beq hz))
  case h_3 h => exact need_faithful.2 fun hz => need_faithful.2 fun hg => .of_x h rfl hg rfl (transferLanes_eq (eq_of_beq hz))
  case h_6 h | h_7 h =>
    refine need_faithful.2 fun hz => ?_
    obtain ⟨hz, hy⟩ := Bool.and_eq_true_iff.1 hz
    exact .of_x h rfl rfl rfl (timeline_eq (eq_of_beq hz) (eq_of_beq hy))
  case h_8 h | h_9 h | h_10 h =>
    refine need_faithful.2 fun hz => need_faithful.2 fun hg => ?_
    obtain ⟨hz, hc⟩ := Bool.and_eq_true_iff.1 hz
    exact .of_x h rfl hg rfl (collective_eq (eq_of_beq hz) (eq_of_beq hc))
  case h_11 h =>
    refine need_faithful.2 fun hz => need_faithful.2 fun hg => ?_
    obtain ⟨hz, hc⟩ := Bool.and_eq_true_iff.1 hz
    exact .of_x h rfl hg rfl (collectiveLanes_eq (eq_of_beq hz) (eq_of_beq hc))
  case h_12 h => exact need_faithful.2 fun hz => .of_x h rfl rfl rfl (oneGroup_eq (eq_of_beq hz))
  case h_13 => exact error_faithful _ _

theorem major1B_faithful : Faithful (xWord s 0x1B op p) (major1B s op p) := by
  unfold major1B
  split
  case h_1 h => exact need_faithful.2 fun hz => need_faithful.2 fun hk => .of_x h rfl hk rfl (fence_eq (eq_of_beq hz))
  case h_8 h => exact need_faithful.2 fun hz => .of_x h rfl rfl rfl (twoGroups_eq (eq_of_beq hz))
  case h_15 h | h_16 h | h_17 h =>
    exact need_faithful.2 fun hz => need_faithful.2 fun hn => .of_x h rfl hn rfl (barrier_eq (eq_of_beq hz))
  case h_18 h =>
    exact need_faithful.2 fun hz => need_faithful.2 fun hl =>
      .of_x h rfl rfl rfl (barrierGroup_eq (eq_of_beq hz) (eq_of_beq hl))
  case h_19 h | h_20 h | h_21 h | h_22 h | h_24 h =>
    exact need_faithful.2 fun hz => .of_x h rfl rfl rfl (oneGroup_eq (eq_of_beq hz))
  case h_23 h | h_25 h => exact need_faithful.2 fun hz => .of_x h rfl rfl rfl (whole_eq hz)
  case h_26 => exact error_faithful _ _
  all_goals exact need_faithful.2 fun hz => .of_x ‹_› rfl rfl rfl (threeGroups_eq (eq_of_beq hz))

theorem major1C_faithful : Faithful (xWord s 0x1C op p) (major1C s op p) := by
  unfold major1C
  split
  case h_4 h | h_13 h => exact need_faithful.2 fun hz => .of_x h rfl rfl rfl (oneGroup_eq (eq_of_beq hz))
  case h_6 h => exact need_faithful.2 fun hz => .of_x h rfl rfl rfl (safe_eq (eq_of_beq hz))
  case h_7 h => exact need_faithful.2 fun hz => .of_x h rfl rfl rfl (trap_eq (eq_of_beq hz))
  case h_9 h | h_10 h =>
    exact need_faithful.2 fun hz => need_faithful.2 fun hr => need_faithful.2 fun hd =>
      .of_x h rfl (Bool.and_eq_true_iff.2 ⟨hr, hd⟩) rfl (special_eq (eq_of_beq hz))
  case h_11 h => exact .of_x h rfl rfl rfl (spawn_fields p)
  case h_14 h => exact need_faithful.2 fun hz => .of_x h rfl rfl rfl (role_eq (eq_of_beq hz))
  case h_15 => exact error_faithful _ _
  all_goals exact need_faithful.2 fun hz => .of_x ‹_› rfl rfl rfl (whole_eq hz)

end SubOperations

section WholeWord

variable {w : BitVec 32} {k : Nat}

theorem fld_eq_ofNat (h : (fld 24 5 w).toNat = k) : fld 24 5 w = BitVec.ofNat 5 k := by
  rw [← h, BitVec.ofNat_toNat, BitVec.setWidth_eq]

/-! A word with its major known, in each form. -/

theorem rWord_of_major (h : (fld 24 5 w).toNat = k) :
    rWord (fld 29 3 w) (BitVec.ofNat 5 k) (fld 21 3 w) (fld 14 7 w) (fld 7 7 w) (fld 0 7 w) = w := by
  rw [← fld_eq_ofNat h, rWord_fields]
theorem iWord_of_major (h : (fld 24 5 w).toNat = k) : iWord (fld 29 3 w) (BitVec.ofNat 5 k) (fld 17 7 w) (fld 0 17 w) = w := by
  rw [← fld_eq_ofNat h, iWord_fields]
theorem bWord_of_major (h : (fld 24 5 w).toNat = k) : bWord (fld 29 3 w) (BitVec.ofNat 5 k) (fld 21 3 w) (fld 0 21 w) = w := by
  rw [← fld_eq_ofNat h, bWord_fields]
theorem xWord_of_major (h : (fld 24 5 w).toNat = k) : xWord (fld 29 3 w) (BitVec.ofNat 5 k) (fld 19 5 w) (fld 0 19 w) = w := by
  rw [← fld_eq_ofNat h, xWord_fields]

theorem Faithful.of_eq {v : BitVec 32} {x : Except Reject Instr} (h : v = w) (hf : Faithful v x) : Faithful w x := h ▸ hf

end WholeWord

/-- Whatever the decoder accepts is a coded, well-formed instruction with the word it came from. -/
theorem decode_faithful (w : BitVec 32) : Faithful w (decode w) := by
  simp only [decode]
  split
  case h_1 h => exact .of_eq (rWord_of_major h) (major00_faithful _ _ _ _ _)
  case h_2 h => exact .of_eq (rWord_of_major h) (major01_faithful _ _ _ _ _)
  case h_3 h => exact .of_eq (rWord_of_major h) (major02_faithful _ _ _ _ _)
  case h_4 h => exact .of_eq (rWord_of_major h) (major03_faithful _ _ _ _ _)
  case h_5 h => exact .of_eq (rWord_of_major h) (major04_faithful _ _ _ _ _)
  case h_6 h => exact .of_eq (rWord_of_major h) (major05_faithful _ _ _ _ _)
  case h_7 h => exact .of_eq (rWord_of_major h) (major06_faithful _ _ _ _ _)
  case h_8 h => exact .of_eq (rWord_of_major h) (major08_faithful _ _ _ _ _)
  case h_9 h => exact .of_eq (rWord_of_major h) (major09_faithful _ _ _ _ _)
  case h_10 h => exact .of_eq (rWord_of_major h) (major0A_faithful _ _ _ _ _)
  case h_11 h => exact .of_eq (rWord_of_major h) (major0B_faithful _ _ _ _ _)
  case h_12 h => exact .of_eq (aWord_fields w (fld_eq_ofNat h)) (major0C_faithful _ _ _ _ _ _ _ _)
  case h_13 h => exact .of_eq (rWord_of_major h) (major0D_faithful _ _ _ _ _)
  case h_14 h => exact .of_eq (rWord_of_major h) (major0E_faithful _ _ _ _ _)
  case h_15 h => exact .of_eq (rWord_of_major h) (major10_faithful _ _ _ _ _)
  case h_16 h => exact .of_eq (rWord_of_major h) (major11_faithful _ _ _ _ _)
  case h_17 h => exact .of_eq (rWord_of_major h) (major12_faithful _ _ _ _ _)
  case h_18 h => exact .of_eq (rWord_of_major h) (major13_faithful _ _ _ _ _)
  case h_19 h => exact .of_eq (iWord_of_major h) (majorI_faithful _ 0x14 _ _ (by decide))
  case h_20 h => exact .of_eq (iWord_of_major h) (majorI_faithful _ 0x15 _ _ (by decide))
  case h_21 h => exact .of_eq (iWord_of_major h) (majorI_faithful _ 0x16 _ _ (by decide))
  case h_22 h => exact .of_eq (iWord_of_major h) (majorI_faithful _ 0x17 _ _ (by decide))
  case h_23 h => exact .of_eq (bWord_of_major h) (major18_faithful _ _ _)
  case h_24 h => exact .of_eq (bWord_of_major h) (major19_faithful _ _ _)
  case h_25 h => exact .of_eq (xWord_of_major h) (major1A_faithful _ _ _)
  case h_26 h => exact .of_eq (xWord_of_major h) (major1B_faithful _ _ _)
  case h_27 h => exact .of_eq (xWord_of_major h) (major1C_faithful _ _ _)
  case h_28 => exact error_faithful _ _

/-- Settles O2: the fields of a word survive its encoding, and every operand form accepts just what its fields can hold. -/
theorem roundTrip : Obligations.RoundTrip :=
  ⟨fun _ hc hw => decode_encode hc hw, fun w i h => decode_faithful w i h⟩

end Sys2Proof

/-! PROOFS. Control flow that changes the split alone (R140 to R147). -/

namespace Sys2Proof.Machine

theorem State.targetOf_eq {w : Nat} (s : State) (f : BitVec w) : s.targetOf f = s.spl.pc + f.signExtend 56 * 4 := by
  rw [State.targetOf, sext, BitVec.shiftLeft_eq_mul_twoPow]
  rfl

/-- An instruction that changes its split alone and goes on at an address. -/
theorem State.next_setSpl (s : State) {i : Instr} {x : Split} {pc : Addr} (h : exec i s = .next ((s.setSpl x).retireTo pc)) :
    ∃ t, exec i s = .next t ∧ s.completes t (x.retired pc (!s.handlerMode)) {} false :=
  ⟨_, h, s.completes_setSpl x pc⟩

theorem State.next_retireTo (s : State) {i : Instr} {pc : Addr} (h : exec i s = .next (s.retireTo pc)) :
    ∃ t, exec i s = .next t ∧ s.completes t (s.spl.retired pc (!s.handlerMode)) {} false :=
  ⟨_, h, s.completes_retireTo pc⟩

theorem State.next_done (s : State) {i : Instr} (h : exec i s = s.done) :
    ∃ t, exec i s = .next t ∧ s.completes t s.nextSplit {} false :=
  ⟨_, h, s.completes_done⟩

/-- The split is changed and goes on at the following word. -/
theorem State.next_setSpl_done (s : State) {i : Instr} {x : Split} (hpc : x.pc = s.spl.pc) (h : exec i s = (s.setSpl x).done) :
    ∃ t, exec i s = .next t ∧ s.completes t (x.retired (s.spl.pc + 4) (!s.handlerMode)) {} false := by
  refine s.next_setSpl (h.trans ?_)
  rw [State.done, State.retire, State.setSpl_spl, hpc]

theorem State.exec_ret_nil (s : State) (st : BitVec 3) (h : s.spl.stack = []) : exec (.ret st) s = s.illegalOperand := by
  change execRet st s = _
  rw [execRet, h]

theorem State.exec_ret_cons (s : State) (st : BitVec 3) {e : StackEntry} {rest : List StackEntry} (h : s.spl.stack = e :: rest) :
    exec (.ret st) s = s.checked (e.stop == 1)
      (.next ((s.setSpl { s.spl with mask := e.mask, stack := rest, rpc := none }).retireTo e.pc)) := by
  change execRet st s = _
  rw [execRet, h]

end Sys2Proof.Machine

open Sys2Proof Sys2Proof.Machine

/-- Settles O21: a group predicate takes the value of its operation after four cycles, and q0 keeps its own. -/
theorem groupPredicates : Obligations.GroupPredicates := by
  unfold Obligations.GroupPredicates
  intro s st d a b
  exact ⟨⟨rfl, State.answersQ_alu rfl rfl⟩, ⟨rfl, State.answersQ_alu rfl rfl⟩, ⟨rfl, State.answersQ_alu rfl rfl⟩,
    ⟨rfl, State.answersQ_alu rfl rfl⟩⟩

/-- Settles O27: both outcomes are a retirement to an address. -/
theorem uniformBranches : Obligations.UniformBranches := by
  unfold Obligations.UniformBranches
  intro s st c f
  refine ⟨⟨rfl, ?_⟩, fun _ => rfl, ?_⟩
  · rw [← s.targetOf_eq]
    exact s.next_retireTo rfl
  · rw [← s.targetOf_eq]
    apply s.next_retireTo
    show execBrq st c f s = _
    unfold execBrq
    split <;> simp [*, State.done, State.retire]

/-- Settles O30: each case is one test of the operands, and then a change of the split alone. -/
theorem callsAndJumps : Obligations.CallsAndJumps := by
  unfold Obligations.CallsAndJumps
  intro s st f g
  refine ⟨⟨rfl, fun h => ?_, fun h => ?_⟩, ⟨rfl, fun e rest hs h => ?_, fun h => ?_⟩, ⟨rfl, fun h0 h1 => ?_, fun h => ?_⟩⟩
  · rw [← s.targetOf_eq]
    refine s.next_setSpl (x := { s.spl with stack := { pc := s.spl.pc + 4, mask := s.spl.mask, stop := 1 } :: s.spl.stack, rpc := none }) ?_
    exact State.checked_of_true _ (decide_eq_true h)
  · exact State.refusesOperand_of_checked (ok := decide (s.spl.stack.length < 32)) rfl (by simpa using h)
  · refine s.next_setSpl (x := { s.spl with mask := e.mask, stack := rest, rpc := none }) ?_
    rw [s.exec_ret_cons st hs]
    exact State.checked_of_true _ (by simpa using h)
  · cases hs : s.spl.stack with
    | nil => exact s.exec_ret_nil st hs
    | cons e rest => exact State.refusesOperand_of_checked (s.exec_ret_cons st hs) (by simpa using h e rest hs)
  · refine s.next_setSpl (x := { s.spl with rpc := none }) ?_
    exact State.checked_of_true _ (by simp [h0, h1])
  · refine State.refusesOperand_of_checked (ok := (s.rdG g.toNat).extractLsb' 0 2 == 0 && (s.rdG g.toNat).extractLsb' 56 8 == 0) rfl ?_
    simpa [imp_iff_not_or] using h

/-- Settles O28: `rcv` sets the reconvergence point of its split, `nop` nothing, and `role` one register. -/
theorem smallControl : Obligations.SmallControl := by
  unfold Obligations.SmallControl
  intro s st f n
  refine ⟨⟨rfl, ?_⟩, ⟨rfl, s.next_done rfl⟩, ⟨rfl, ?_⟩⟩
  · rw [← s.targetOf_eq]
    exact s.next_setSpl_done (x := { s.spl with rpc := some (s.targetOf f) }) rfl rfl
  · obtain ⟨hc, -, hr⟩ := s.completes_marked .role 0 (some 0) { s.regs with role := n } { role := true } rfl (by simp [Regs.leaves])
    exact ⟨_, rfl, by rw [hr]; rfl, hc⟩

/-! PROOFS. Faults: how one is delivered, how it ends the grid, and which of the pending ones comes next (R436 to R442). -/

namespace Sys2Proof.Machine

/-- Is a result one of fixed latency, and of a split of its own (R87)? -/
def Inflight.ofSplit (e : Inflight) (slot : Nat) : Prop := e.ready.isSome = true ∧ (e.slot = slot ∨ e.also.getLsbD slot = true)
/-- Is a result one in single lanes? -/
def Inflight.lanewise (e : Inflight) : Prop := (∃ n, e.reg = .v n) ∨ ∃ n, e.reg = .p n

theorem Inflight.complete_of_other {slot : Nat} {f : Inflight} (mask : Mask) (h : ¬f.ofSplit slot) :
    Inflight.complete slot mask f = some f := by
  rw [Inflight.complete, if_pos]
  cases hr : f.ready <;> simp_all [Inflight.ofSplit]

theorem Inflight.complete_of_own {slot : Nat} {f : Inflight} {mask : Mask} (h : f.ofSplit slot) (e : Inflight) :
    Inflight.complete slot mask f = some e ↔ f.lanewise ∧ f.lanes &&& ~~~mask ≠ 0 ∧ e = { f with lanes := f.lanes &&& ~~~mask } := by
  obtain ⟨hr, hs⟩ := h
  have hc : ¬(f.ready.isNone || !(f.slot == slot || f.also.getLsbD slot)) = true := by
    obtain ⟨c, hc⟩ := Option.isSome_iff_exists.1 hr
    simpa [hc, or_iff_not_imp_left] using hs
  rw [Inflight.complete, if_neg hc]
  by_cases h0 : f.lanes &&& ~~~mask = 0 <;> cases hreg : f.reg <;> simp [Inflight.lanewise, hreg, h0, eq_comm (a := e)]

theorem Group.settles_filterMap (g g' : Group) (slot : Nat) (mask : Mask)
    (h : g'.inflight = g.inflight.filterMap (Inflight.complete slot mask)) : g.settles slot mask g' := by
  intro e
  change e ∈ g'.inflight ↔ (e ∈ g.inflight ∧ ¬e.ofSplit slot) ∨ ∃ f ∈ g.inflight, f.ofSplit slot ∧ f.lanewise ∧
    f.lanes &&& ~~~mask ≠ 0 ∧ e = { f with lanes := f.lanes &&& ~~~mask }
  rw [h, List.mem_filterMap]
  constructor
  · rintro ⟨f, hf, hc⟩
    by_cases ho : f.ofSplit slot
    · exact .inr ⟨f, hf, ho, (Inflight.complete_of_own ho e).1 hc⟩
    · obtain rfl : f = e := by simpa [Inflight.complete_of_other mask ho] using hc
      exact .inl ⟨hf, ho⟩
  · rintro (⟨he, ho⟩ | ⟨f, hf, ho, hc⟩)
    · exact ⟨e, he, Inflight.complete_of_other mask ho⟩
    · exact ⟨f, hf, (Inflight.complete_of_own ho e).2 hc⟩

/-- The trap registers as a fault sets them (R438). -/
def PendingFault.trapRegs (f : PendingFault) : TrapRegs :=
  { tcause := BitVec.ofNat 16 (f.cls + 256 * f.detail), trappc := f.pc, tmask := f.mask, tadda := f.adda, taddb := f.addb, tseq := f.tseq }

section Enter

variable (s : State) (f : PendingFault) (h : Addr)

theorem State.enterHandler_eq : s.enterHandler f h = s.setGrp (s.enterHandler f h).grp := by simp [State.enterHandler]
@[simp] theorem State.enterHandler_trap : (s.enterHandler f h).grp.trap = f.trapRegs := by simp [State.enterHandler, PendingFault.trapRegs]
@[simp] theorem State.enterHandler_handler :
    (s.enterHandler f h).grp.handler = some (f.slot, (s.splitAt f.slot).stack.length) := by simp [State.enterHandler]
@[simp] theorem State.enterHandler_pending : (s.enterHandler f h).grp.pending = s.grp.pending := by simp [State.enterHandler]
@[simp] theorem State.enterHandler_regs : (s.enterHandler f h).regs = s.regs := by simp [State.enterHandler, State.regs]
theorem State.enterHandler_settles : s.grp.settles f.slot f.mask (s.enterHandler f h).grp :=
  Group.settles_filterMap _ _ _ _ (by simp [State.enterHandler])
theorem State.enterHandler_splitAt (k : Nat) : (s.enterHandler f h).splitAt k =
    if k = f.slot then
      { s.splitAt f.slot with
        pc := h, mask := f.mask, wait := none, num := none, word := none, token := false, taken := none,
        dist := if f.cls == 0x0A then 0 else (s.splitAt f.slot).dist,
        sched := { (s.splitAt f.slot).sched with bound := 0 }, solid := some f.tseq }
    else s.splitAt k := by
  simp [State.enterHandler, State.splitAt, AMap.get_set]

end Enter

theorem State.deliver_handler {s : State} {f : PendingFault} {h : Addr} (hh : s.handlerFor f.cls = some h) :
    s.deliver f = s.enterHandler f h := by
  rw [State.deliver, hh]

/-- Without a handler at work, a fault that does not end the grid is delivered. -/
theorem State.fault_deliver {s : State} {f : PendingFault} (hc : f.cls ≠ 7) (hn : s.grp.handler = none) : s.fault f = s.deliver f := by
  rw [State.fault, if_neg (by simpa using hc), hn]

/-! The end of a grid by a fault. -/

/-- A fold of steps that change teams and cores alone changes these alone. -/
theorem foldl_teams_cores {f : State → Nat → State}
    (hf : ∀ s t, f s t = { s with teams := (f s t).teams, cores := (f s t).cores }) (l : List Nat) (s : State) :
    l.foldl f s = { s with teams := (l.foldl f s).teams, cores := (l.foldl f s).cores } := by
  induction l generalizing s with
  | nil => rfl
  | cons t l ih => rw [List.foldl_cons, ih, hf]

theorem State.discardCommands_keeps (s : State) (g : Nat) :
    s.discardCommands g = { s with teams := (s.discardCommands g).teams, cores := (s.discardCommands g).cores } := by
  refine foldl_teams_cores (fun s t => ?_) _ s
  dsimp only
  split <;> rfl

/-- What becomes of the state as a grid that was not ending fails: its end is set down, and but for commands and records nothing
changes. -/
theorem State.failGridWith_eq (s : State) (g status detail c : Nat) (pc : Addr) (n : Word) (a : Addr)
    (hf : (s.gridAt g).ending.failed = false) (hs : (s.gridAt g).ending.snuffed = false) :
    let t := s.failGridWith g status detail c pc n a
    t = { s.setGridAt g { s.gridAt g with ending := { status := status, detail := detail, failed := true } } with
      teams := t.teams, cores := t.cores, lamp := t.lamp } := by
  intro t
  have ht : t = s.failGridWith g status detail c pc n a := rfl
  rw [State.failGridWith] at ht
  simp only [hf, hs, Bool.false_eq_true, if_false] at ht
  rw [State.discardCommands_keeps] at ht
  rw [ht]
  simp [State.logGroup, State.logAt]

section Failure

variable {s : State} {status detail c : Nat} {pc : Addr} {n : Word} {a : Addr}

theorem State.failGridWith_ending (hf : s.grid.ending.failed = false) (hs : s.grid.ending.snuffed = false) :
    (s.failGridWith s.gridId status detail c pc n a).grid.ending = { status := status, detail := detail, failed := true } := by
  rw [s.failGridWith_eq s.gridId status detail c pc n a hf hs]
  exact congrArg Grid.ending (s.setGridAt_gridAt s.gridId _)

theorem State.failGridWith_groups (hf : s.grid.ending.failed = false) (hs : s.grid.ending.snuffed = false) :
    (s.failGridWith s.gridId status detail c pc n a).groups = s.groups := by
  rw [s.failGridWith_eq s.gridId status detail c pc n a hf hs]
  rfl

theorem State.failGridWith_sameBytes (hf : s.grid.ending.failed = false) (hs : s.grid.ending.snuffed = false) :
    s.sameBytes (s.failGridWith s.gridId status detail c pc n a) := by
  rw [s.failGridWith_eq s.gridId status detail c pc n a hf hs]
  exact ⟨fun _ => rfl, fun _ => rfl, fun _ _ => rfl⟩

/-- The failure of a grid keeps the records of the log. -/
theorem State.failGridWith_log (g : Nat) : s.lamp.log ⊆ (s.failGridWith g status detail c pc n a).lamp.log := by
  have hd : ∀ (u : State) (k : Nat), (u.discardCommands k).lamp = u.lamp := fun u k => by rw [State.discardCommands_keeps]
  unfold State.failGridWith
  dsimp only
  split
  · exact fun _ h => h
  · split
    · rw [hd]; exact fun _ h => h
    · intro e he
      simp [State.logGroup, State.logAt, hd, he]

end Failure

/-- The cause that `trap` leaves: its class below its detail (R156). -/
theorem softwareCause (n : BitVec 8) : BitVec.ofNat 16 (0x0E + 256 * n.toNat) = n ++ (0x0E : BitVec 8) := by decide +revert

/-! The fault that comes next (R440). -/

theorem earliestFault_spec (now : Word) : ∀ l : List PendingFault, l ≠ [] →
    ∃ g ∈ l, earliestFault now l = some g ∧ ∀ f ∈ l, (now - f.tseq).toNat ≤ (now - g.tseq).toNat
  | [], h => absurd rfl h
  | [f], _ => ⟨f, by simp, rfl, by simp⟩
  | f :: f' :: r, _ => by
    obtain ⟨g, hg, he, hm⟩ := earliestFault_spec now (f' :: r) (by simp)
    rw [earliestFault, he]
    by_cases hlt : (now - f.tseq).toNat > (now - g.tseq).toNat
    · refine ⟨f, by simp, if_pos hlt, fun e he => ?_⟩
      rcases List.mem_cons.1 he with rfl | he
      · exact Nat.le_refl _
      · exact (hm e he).trans (Nat.le_of_lt hlt)
    · refine ⟨g, List.mem_cons_of_mem _ hg, if_neg hlt, fun e he => ?_⟩
      rcases List.mem_cons.1 he with rfl | he
      · exact Nat.not_lt.1 hlt
      · exact hm e he

theorem State.waitsFirst.earliest {s : State} {f : PendingFault} (h : s.waitsFirst f) :
    earliestFault s.regs.tseq s.grp.pending = some f := by
  obtain ⟨hf, -, hmin⟩ := h
  obtain ⟨g, hg, he, hm⟩ := earliestFault_spec s.regs.tseq s.grp.pending (List.ne_nil_of_mem hf)
  by_cases hgf : g = f
  · rw [he, hgf]
  · exact absurd (hm f hf) (Nat.not_le.2 (hmin g hg hgf))

theorem State.deliverNext_nil {s : State} (h : s.grp.pending = []) : s.deliverNext = s := by
  rw [State.deliverNext, h]
  rfl

/-- The group without a pending fault. -/
def Group.without (g : Group) (f : PendingFault) : Group := { g with pending := g.pending.filter (· != f) }

section Next

variable {s : State} {f : PendingFault}

theorem State.deliverNext_first (hn : s.grp.handler = none) (hw : s.waitsFirst f) :
    s.deliverNext = (s.setGrp (s.grp.without f)).deliver f := by
  rw [State.deliverNext, hw.earliest]
  exact State.fault_deliver hw.2.1 (by simpa [Group.without] using hn)

/-- The pending fault of lowest TSEQ is delivered, and its split goes to the handler. -/
theorem State.deliverNext_delivers {h : Addr} (hn : s.grp.handler = none) (hw : s.waitsFirst f) (hh : s.handlerFor f.cls = some h) :
    s.delivers s.deliverNext f h ∧ s.deliverNext = s.setGrp s.deliverNext.grp ∧
      ∀ k, k ≠ f.slot → s.deliverNext.splitAt k = s.splitAt k := by
  have hstay : ∀ k, (s.setGrp (s.grp.without f)).splitAt k = s.splitAt k := fun k => by simp [Group.without, State.splitAt]
  have hp : s.deliverNext = (s.setGrp (s.grp.without f)).enterHandler f h :=
    (State.deliverNext_first hn hw).trans (State.deliver_handler (s := s.setGrp (s.grp.without f)) hh)
  rw [hp]
  refine ⟨⟨?_, State.enterHandler_trap _ _ _, ?_, ?_, ?_, ?_⟩, ?_, fun k hk => ?_⟩
  · simp [State.enterHandler_splitAt]
  · simp [State.enterHandler_splitAt]
  · simp [State.enterHandler_splitAt]
  · rw [State.enterHandler_splitAt, if_pos rfl, hstay]
  · simp [Group.without, bne, beq_eq_decide]
  · rw [State.enterHandler_eq]; simp
  · rw [State.enterHandler_splitAt, if_neg hk, hstay]

theorem State.deliverNext_fails (hn : s.grp.handler = none) (hw : s.waitsFirst f) (hh : s.handlerFor f.cls = none)
    (hf : s.grid.ending.failed = false) (hs : s.grid.ending.snuffed = false) :
    s.deliverNext.grid.ending = { status := 2, detail := f.cls, failed := true } := by
  have hp : s.deliverNext = (s.setGrp (s.grp.without f)).failGridWith s.gridId 2 f.cls f.cls f.pc f.tseq f.adda := by
    rw [State.deliverNext_first hn hw, State.deliver, show (s.setGrp (s.grp.without f)).handlerFor f.cls = none from hh]
    rfl
  rw [hp]
  exact State.failGridWith_ending (s := s.setGrp (s.grp.without f)) hf hs

end Next

/-- The executing split as a return from a trap leaves it (R157). -/
def State.returnSplit (s : State) : Split :=
  { s.spl.retired s.grp.trap.trappc false with
    sched := { s.spl.sched with bound := 0 }, solid := some (s.spl.num.getD (s.regs.tseq - 1)) }
/-- The group as a return from a trap leaves it, before the next fault is delivered. -/
def State.returnGroup (s : State) : Group :=
  { s.grp with
    handler := none
    inflight := s.grp.inflight.filterMap (Inflight.complete s.slot s.spl.mask)
    ctx := { s.grp.ctx with splits := AMap.set s.grp.ctx.splits s.slot s.returnSplit, regs := s.regs.tick } }

theorem State.returnFromTrap_eq {s : State} (h : s.handlerMode = true) : s.returnFromTrap = (s.setGrp s.returnGroup).deliverNext := by
  have hm : ∀ l, (s.setGrp { s.grp with inflight := l }).handlerMode = true := fun l => by
    rw [← h, State.handlerMode, State.handlerMode, State.setGrp_grp]; rfl
  unfold State.returnFromTrap State.endHandler
  simp only [State.retireTo_eq, hm, State.setGrp_grp, State.setGrp_setGrp, State.setSpl, State.setSplitAt, State.setGrp_slot,
    State.setGrp_regs, State.spl, State.splitAt, Regs.tick_tseq, AMap.get_set_same, AMap.set_set, Bool.not_true]
  rfl

end Sys2Proof.Machine

open Sys2Proof Sys2Proof.Machine

/-- Settles O35: the three ways a fault can be found, each by the lemma on what it does. -/
theorem faultDelivery : Obligations.FaultDelivery := by
  unfold Obligations.FaultDelivery
  intro s f
  refine ⟨fun h hc hn hh => ?_, fun k d hc hn hk => ?_, fun hc hf hs => ?_⟩
  · rw [State.fault_deliver hc hn, State.deliver_handler hh]
    refine ⟨by simp [PendingFault.trapRegs], by simp [State.enterHandler_splitAt], by simp [State.enterHandler_splitAt], by simp,
      by simp [State.enterHandler_splitAt], by simp, fun k hk => by simp [State.enterHandler_splitAt, hk], s.enterHandler_eq f h, ?_⟩
    rw [State.enterHandler_eq]
    exact s.sameBytes_setGrp _
  · have hp : s.fault f = s.setGrp { s.grp with pending := f :: s.grp.pending } := by
      rw [State.fault, if_neg (by simpa using hc), hn]
      simp [hk]
    rw [hp]
    exact ⟨s.setGrp_grp _, by simp⟩
  · have hp : s.fault f = s.failGridWith s.gridId 2 7 7 f.pc f.tseq f.adda := by
      rw [State.fault, if_pos (by simpa using hc)]
      rfl
    rw [hp, State.failGridWith_ending hf hs, State.failGridWith_groups hf hs]
    exact ⟨rfl, rfl, rfl, rfl, State.failGridWith_sameBytes hf hs⟩

/-- Settles O34: the software trap is a fault of class 0x0E, delivered, or the end of the grid. -/
theorem softwareTrap : Obligations.SoftwareTrap := by
  unfold Obligations.SoftwareTrap
  intro s st n
  refine ⟨rfl, fun h hn hh => ⟨_, rfl, ?_⟩, fun hn hh hf hs => ⟨_, rfl, ?_⟩, fun d hn hf hs => ⟨_, rfl, ?_⟩⟩
  · have hp : s.fault (s.ownFault 0x0E n.toNat 0 0) = s.enterHandler (s.ownFault 0x0E n.toNat 0 0) h := by
      rw [State.fault_deliver (by simp [State.ownFault]) hn, State.deliver_handler hh]
    rw [hp]
    have hx := State.enterHandler_splitAt s (s.ownFault 0x0E n.toNat 0 0) h
    have hspl : (s.enterHandler (s.ownFault 0x0E n.toNat 0 0) h).spl = _ := (hx s.slot).trans (if_pos rfl)
    have htrap : (s.ownFault 0x0E n.toNat 0 0).trapRegs =
        { tcause := n ++ (0x0E : BitVec 8), trappc := s.spl.pc, tmask := s.spl.mask, tadda := 0, taddb := 0, tseq := s.tseq } := by
      simp only [PendingFault.trapRegs, State.ownFault, TrapRegs.mk.injEq, and_true]
      exact softwareCause n
    rw [hspl]
    refine ⟨(s.enterHandler_trap _ h).trans htrap, s.enterHandler_handler _ h, ?_, rfl, rfl, rfl, rfl,
      fun k hk => (hx k).trans (if_neg hk), s.enterHandler_regs _ h, s.enterHandler_settles _ h, s.enterHandler_pending _ h, ?_,
      s.enterHandler_eq _ h⟩
    · rw [State.handlerMode, State.enterHandler_handler]
      exact beq_self_eq_true s.slot
    · rw [State.enterHandler_eq]
      exact s.sameBytes_setGrp _
  · have hp : s.fault (s.ownFault 0x0E n.toNat 0 0) = s.failGridWith s.gridId 2 0x0E 0x0E s.spl.pc s.tseq 0 := by
      rw [State.fault_deliver (by simp [State.ownFault]) hn, State.deliver]
      simp [State.ownFault, hh, State.failGrid]
    rw [hp, State.failGridWith_ending hf hs, State.failGridWith_groups hf hs]
    exact ⟨rfl, rfl, rfl, rfl, State.failGridWith_sameBytes hf hs⟩
  · obtain ⟨u, hu⟩ : ∃ u, u = s.logGroup 0x000E (BitVec.ofNat 32 (0x0E + 256 * (s.grp.trap.tcause.toNat % 256))) (s.spl.pc.setWidth 64) :=
      ⟨_, rfl⟩
    have hp : s.fault (s.ownFault 0x0E n.toNat 0 0) = u.failGridWith u.gridId 2 0x0F 0x0F s.spl.pc s.tseq 0 := by
      rw [State.fault, if_neg (by simp [State.ownFault]), hn]
      simp only [State.ownFault, BEq.rfl, if_true, hu]
      rfl
    have hsame : u.grid = s.grid ∧ u.groups = s.groups ∧ (∀ v, u.sameBytes v → s.sameBytes v) ∧
        ∃ e ∈ u.lamp.log, e.kind = 0x000E ∧ e.value = s.spl.pc.setWidth 64 := by
      subst hu
      exact ⟨rfl, rfl, fun _ h => h, _, List.mem_cons_self, rfl, rfl⟩
    obtain ⟨hgrid, hgroups, hbytes, e, he, hkind⟩ := hsame
    rw [← hgrid] at hf hs
    rw [hp, State.failGridWith_ending hf hs, State.failGridWith_groups hf hs]
    exact ⟨rfl, rfl, rfl, ⟨e, State.failGridWith_log _ he, hkind⟩, hgroups, hbytes _ (State.failGridWith_sameBytes hf hs)⟩

/-- Settles O36: the return leaves one group behind, from which the pending fault of lowest TSEQ is delivered, if any. -/
theorem trapReturn : Obligations.TrapReturn := by
  unfold Obligations.TrapReturn
  intro s st
  have hexec : s.grp.handler = some (s.slot, s.spl.stack.length) →
      exec (.tret st) s = .next (s.setGrp s.returnGroup).deliverNext := by
    intro hd
    have hm : s.handlerMode = true := by simp [State.handlerMode, hd]
    change execTret st s = _
    rw [execTret, hd]
    simp only [State.checked, BEq.rfl, Bool.and_self, if_true, State.returnFromTrap_eq hm]
  have hspl : (s.setGrp s.returnGroup).spl = s.returnSplit := by simp [State.spl, State.splitAt, State.returnGroup]
  refine ⟨rfl, fun hd hp => ⟨_, hexec hd, ?_⟩, fun f hd hw => ?_, fun hd => ?_, fun d hd hne => ?_⟩
  · rw [State.deliverNext_nil (by simpa [State.returnGroup] using hp), hspl]
    refine ⟨by simp [State.returnGroup], rfl, fun k hk => ?_, ?_, ?_, by simp [State.returnGroup],
      by simpa [State.returnGroup] using hp, s.sameBytes_setGrp _, by simp⟩
    · simp [State.splitAt, State.returnGroup, AMap.get_set_other _ _ _ hk]
    · rw [State.setGrp_regs]; exact Regs.keeps_clock _ _
    · exact Group.settles_filterMap _ _ _ _ (by simp [State.returnGroup])
  · have hw' : (s.setGrp s.returnGroup).waitsFirst f := by simpa [State.waitsFirst, State.returnGroup] using hw
    have hn : (s.setGrp s.returnGroup).grp.handler = none := by simp [State.returnGroup]
    refine ⟨fun h hh => ?_, fun hh hf hs => ?_⟩
    · obtain ⟨⟨d1, d2, d3, d4, d5, d6⟩, hgrp, hother⟩ := State.deliverNext_delivers (s := s.setGrp s.returnGroup) hn hw' hh
      refine ⟨_, hexec hd, ⟨d1, d2, d3, d4, d5.trans ?_, d6.trans (by simp [State.returnGroup])⟩, hgrp.trans (by simp), fun hk => ?_⟩
      · by_cases hk : f.slot = s.slot
        · have hlive := congrArg Split.live hspl
          rw [hk]
          exact hlive
        · simp [State.splitAt, State.returnGroup, AMap.get_set_other _ _ _ hk]
      · have hslot : (s.setGrp s.returnGroup).deliverNext.slot = s.slot := by rw [hgrp]; rfl
        have hback : (s.setGrp s.returnGroup).deliverNext.spl = s.returnSplit := by
          rw [State.spl, hslot, hother s.slot (Ne.symm hk)]
          exact hspl
        rw [hback]
        rfl
    · refine ⟨_, hexec hd, ?_⟩
      rw [State.deliverNext_fails (s := s.setGrp s.returnGroup) hn hw' hh hf hs]
      exact ⟨rfl, rfl, rfl⟩
  · change execTret st s = _
    rw [execTret, hd]
    rfl
  · refine State.refusesOperand_of_checked (ok := s.slot == s.slot && d == s.spl.stack.length) (k := .next s.returnFromTrap) ?_ (by simpa using hne)
    change execTret st s = _
    rw [execTret, hd]

/-! PROOFS. Immediates, special registers, safe points and demotion (R121, R122, R134, R147, R158, R443). -/

namespace Sys2Proof

/-- K[16] of `gldh` is reserved (R134). -/
theorem gldh_rejects (st : BitVec 3) (d : BitVec 7) {k : BitVec 17} (h : k.getLsbD 16 = true) :
    ∃ r, decode (iWord st 0x15 d k) = .error r := by
  have hz : (k.extractLsb' 16 1 == 0) = false := by
    rw [beq_eq_false_iff_ne]
    intro h0
    have hbit : (k.extractLsb' 16 1).getLsbD 0 = k.getLsbD 16 := by simp
    rw [h0, h] at hbit
    exact absurd hbit (by decide)
  rw [decode_iWord_major15, majorI, need_rejects]
  exact .inr (need_rejects.2 (.inl hz))

theorem gldh_payload (h : BitVec 16) : (0#1 ++ h : BitVec 17) = h.setWidth 17 := by
  refine BitVec.eq_of_toNat_eq ?_
  have := h.isLt
  rw [BitVec.toNat_append, BitVec.toNat_setWidth, Nat.mod_eq_of_lt (by omega)]
  simp

end Sys2Proof

namespace Sys2Proof.Machine

/-- A vector result in the lanes of the split's mask, not of the guard (R158). -/
theorem State.next_wrV_mask (s : State) {i : Instr} (d : Nat) (f : Nat → Word) (hm : s.spl.mask ≠ 0)
    (h : exec i s = (s.wrV d s.spl.mask f latVar).done) :
    ∃ t, exec i s = .next t ∧ (∀ k, s.spl.mask.has k = true → t.regs.getV d k = f k) ∧ s.pends t (.v d) none ∧
      s.completes t s.nextSplit { v := fun n k => n == d && s.spl.mask.has k } false := by
  have hany := mask_any hm
  obtain ⟨h1, h2, h3⟩ := s.completes_marked (.v d) s.spl.mask latVar (s.regs.setLanes d s.spl.mask f)
    { v := fun n k => n == d && s.spl.mask.has k } (by simpa [Writes.names] using hany)
    (Regs.setLanes_leaves _ _ _ _ _ (by simp))
  refine ⟨_, h, fun k hk => ?_, h2, h1⟩
  rw [State.wrV, h3, Regs.getV_tick, Regs.getV_setLanes _ _ _ _ (Mask.lt_of_has hk), if_pos ⟨rfl, hk⟩]

/-- A special register of one value per group is read into a group register (R158). -/
theorem State.answersG_special (s : State) (st : BitVec 3) (d : BitVec 7) (r : BitVec 6) (hr : r.toNat < 0x10 ∨ s.handlerMode = true)
    (h0 : r ≠ 0) (h1 : r ≠ 1) :
    s.answersG (.rdsp st d r) d.toNat none (BitVec.ofNat 64 (s.special r.toNat)) := by
  refine s.answersG_wrG _ d.toNat latVar _ ?_
  change execRdsp st d r s = _
  have hok : (decide (r.toNat < 0x10) || s.handlerMode) = true := by simpa using hr
  rw [execRdsp, State.checked_of_true _ hok, if_neg (by simpa using h0), if_neg (by simpa using h1)]

end Sys2Proof.Machine

open Sys2Proof Sys2Proof.Machine

/-- Settles O25: each immediate instruction is a group-register result of four cycles. -/
theorem groupImmediates : Obligations.GroupImmediates := by
  unfold Obligations.GroupImmediates
  intro s st d k h
  refine ⟨⟨rfl, State.answersG_groupResult rfl rfl⟩, ⟨?_, State.answersG_groupResult rfl rfl⟩, gldh_rejects st _,
    ⟨rfl, State.answersG_groupResult rfl rfl⟩⟩
  rw [← gldh_payload]
  rfl

/-- Settles O37: `special` gives each value; the privilege and the write of TRAPPC are tests of the operands. -/
theorem specialRegisters : Obligations.SpecialRegisters := by
  unfold Obligations.SpecialRegisters
  intro s st d r
  have hread := fun (n : BitVec 6) (h : n.toNat < 0x10) => s.answersG_special st d n (.inl h)
  refine ⟨⟨rfl, rfl⟩, fun hm => ⟨s.next_wrV_mask _ _ hm rfl, s.next_wrV_mask _ _ hm rfl⟩, ?_, fun hl hd => ?_, fun hh => ?_, fun hh => ?_,
    fun hr => ?_⟩
  · exact ⟨hread 2 (by decide) (by decide) (by decide), hread 3 (by decide) (by decide) (by decide),
      hread 4 (by decide) (by decide) (by decide), hread 8 (by decide) (by decide) (by decide),
      hread 9 (by decide) (by decide) (by decide), hread 10 (by decide) (by decide) (by decide),
      hread 11 (by decide) (by decide) (by decide), hread 12 (by decide) (by decide) (by decide)⟩
  · have hread' := fun (n : BitVec 6) (v : Nat) (h : n.toNat < 0x10) (h0 : n ≠ 0) (h1 : n ≠ 1) (hv : s.special n.toNat = v) =>
      hv ▸ hread n h h0 h1
    have hlead : s.at_ s.leaderOf s.slot = s := by rw [hl]; rfl
    have hdet : s.deterministic = false := hd
    refine ⟨hread' 5 _ (by decide) (by decide) (by decide) ?_, hread' 6 _ (by decide) (by decide) (by decide) ?_,
      hread' 7 _ (by decide) (by decide) (by decide) ?_, hread' 13 _ (by decide) (by decide) (by decide) ?_⟩
    all_goals simp [State.special, hlead, hdet]
    all_goals rfl
  · have htrap := fun (n : BitVec 6) (h0 : n ≠ 0) (h1 : n ≠ 1) => s.answersG_special st d n (.inr hh) h0 h1
    refine ⟨htrap 0x10 (by decide) (by decide), htrap 0x11 (by decide) (by decide), htrap 0x12 (by decide) (by decide),
      htrap 0x13 (by decide) (by decide), htrap 0x14 (by decide) (by decide), htrap 0x15 (by decide) (by decide), fun h0 h1 => ?_, fun h => ?_⟩
    · refine ⟨_, State.checked_of_true _ (by simp [hh, h0, h1]), ?_, ?_⟩
      · simp [State.nextSplit, State.spl, State.splitAt, State.handlerMode, State.regs]
      · rw [State.retire_eq]; simp
    · refine State.refusesOperand_of_checked rfl ?_
      simpa [hh, imp_iff_not_or] using h
  · refine ⟨fun hr => State.refusesOperand_of_checked rfl ?_, State.refusesOperand_of_checked rfl ?_⟩
    · simpa [hh] using hr
    · simp [hh]
  · exact State.refusesOperand_of_checked rfl (by simpa using fun h => absurd h hr)

/-! PROOFS. Safe points, demotion and the divergent branch (R115 to R122, R147, R443). -/

namespace Sys2Proof.Machine

/-- An instruction that changes its split after its retirement. -/
theorem State.completes_retire_setSpl (s : State) (x : Split) : s.completes (s.retire.setSpl x) x {} false := by
  have h : s.retire.setSpl x =
      s.setGrp { s.grp with ctx := { s.grp.ctx with splits := AMap.set s.grp.ctx.splits s.slot x, regs := s.regs.tick } } := by
    rw [State.retire_eq]
    simp [State.setSpl, State.setSplitAt]
  rw [h]
  exact s.completes_ctx x

theorem State.retire_spl (s : State) : s.retire.spl = s.nextSplit := by
  rw [State.retire_eq]
  simp [State.spl, State.splitAt]

theorem State.retire_splitAt (s : State) {k : Nat} (h : k ≠ s.slot) : s.retire.splitAt k = s.splitAt k := by
  rw [State.retire_eq]
  simp [State.splitAt, AMap.get_set_other _ _ _ h]

@[simp] theorem State.retire_slot (s : State) : s.retire.slot = s.slot := rfl
@[simp] theorem State.retire_gid (s : State) : s.retire.gid = s.gid := rfl

/-- What a replica keeps for itself may change too, where the statement leaves it open. -/
theorem State.completes_setRepl {s t : State} {y : Split} {w : Writes} {nft : Bool} (h : s.completes t y w nft) (r : Replica) :
    s.completes (t.setRepl r) y w true := by
  obtain ⟨ht, hb, hy, hk, hr, hg⟩ := h
  have ht' : t.setRepl r = s.setGrp { t.grp with repl := r } := by
    rw [State.setRepl, ht]
    simp
  obtain ⟨g1, g2, g3, g4, g5, g6, g7, -, l, g8, g9⟩ := hg
  have hslot : t.slot = s.slot := by rw [ht]; rfl
  refine ⟨by rw [ht']; simp, by rw [ht']; exact s.sameBytes_setGrp _, ?_, fun k hne => ?_, by rw [State.setRepl_regs]; exact hr, ?_⟩
  · rw [← hy]
    simp [State.spl, State.splitAt]
  · rw [← hk k hne]
    simp [State.splitAt]
  · rw [ht', State.setGrp_grp]
    exact ⟨g1, g2, g3, g4, g5, g6, g7, nofun, l, g8, g9⟩

/-! Safe points. -/

/-- The executing split behind a `safe` (R147, R443). -/
def State.safeSplit (s : State) (stop : Option Nat) : Split :=
  { s.nextSplit with dist := 0, sched := { s.spl.sched with stopped := stop } }

/-- A safe point of a group that has no replicas, or at which nothing is asked to stop. -/
theorem State.exec_safe (s : State) (st : BitVec 3) (i : BitVec 12) (hi : i.toNat < s.grid.kernel.masks.length)
    (h : s.replicated = false ∨ (!s.handlerMode && s.stopAsked) = false) :
    exec (.safe st i) s =
      let t := s.retire.setSpl (s.safeSplit (if !s.handlerMode && s.stopAsked then some i.toNat else none))
      .next (if s.replicated then t.setRepl { t.grp.repl with safes := t.grp.repl.safes + 1 } else t) := by
  change execSafe st i s = _
  unfold execSafe
  simp only [State.checked_of_true _ (decide_eq_true hi), State.retire_spl]
  cases hr : s.replicated <;> cases hm : s.handlerMode <;> cases ha : s.stopAsked <;> simp_all [State.safeSplit, State.nextSplit, Split.retired]

/-! Demotion. -/

/-- The set of the slots that meet a condition. -/
def slotsWhere (c : Nat → Bool) : BitVec 4 := slots.foldl (fun m k => if c k then m ||| slotBit k else m) 0

theorem slotsWhere_eq (c : Nat → Bool) : slotsWhere c = BitVec.ofBoolListLE [c 0, c 1, c 2, c 3] := by
  simp only [slotsWhere, slots, List.foldl]
  generalize c 0 = c0, c 1 = c1, c 2 = c2, c 3 = c3
  decide +revert

theorem getLsbD_slotsWhere (c : Nat → Bool) {k : Nat} (hk : k < 4) : (slotsWhere c).getLsbD k = c k := by
  rw [slotsWhere_eq]
  obtain rfl | rfl | rfl | rfl : k = 0 ∨ k = 1 ∨ k = 2 ∨ k = 3 := by omega
  all_goals generalize c 0 = c0, c 1 = c1, c 2 = c2, c 3 = c3; clear hk; decide +revert

theorem slotsWhere_ne_zero (c : Nat → Bool) : slotsWhere c ≠ 0 ↔ ∃ k, k < 4 ∧ c k = true := by
  constructor
  · intro h
    by_contra hc
    push Not at hc
    refine h (BitVec.eq_of_getLsbD_eq fun k hk => ?_)
    simpa [getLsbD_slotsWhere c hk] using hc k hk
  · rintro ⟨k, hk, hc⟩ h
    rw [← getLsbD_slotsWhere c hk, h] at hc
    simp at hc

/-- Does a sibling of the executing split belong in its hold set (R122)? -/
def State.holdsBehind (s : State) (k : Nat) : Bool :=
  k != s.slot && (s.splitAt k).live && !(s.splitAt k).demo.held && (s.splitAt k).demo.released.isNone && s.standing k != .no

theorem State.demote_eq (s : State) (n : Word) : s.demote n =
    let t := s.setSpl { s.spl with demo := { held := true, set := slotsWhere s.holdsBehind, by_ := some n } }
    if slotsWhere s.holdsBehind == 0 then t.release t.slot else t := rfl

/-- The demotion that `pdem` leaves: released at once where no sibling holds the split (R122). -/
def State.demotion (s : State) (n : Word) : Demotion :=
  if slotsWhere s.retire.holdsBehind = 0 then { released := some s.time.releases, by_ := some n }
  else { held := true, set := slotsWhere s.retire.holdsBehind, by_ := some n }

theorem State.release_setSpl (s : State) (x : Split) : (s.setSpl x).release s.slot =
    { s.setSpl { x with demo := { x.demo with held := false, set := 0, released := some s.time.releases } } with
      time := { s.time with releases := s.time.releases + 1 } } := by
  simp [State.release, State.setSpl, State.setSplitAt, State.splitAt]

/-- `pdem` changes its split, and where that is released the count of releases. -/
theorem State.retire_demote (s : State) (n : Word) : s.retire.demote n =
    { s.retire.setSpl { s.nextSplit with demo := s.demotion n } with
      time := { s.time with releases := s.time.releases + if (s.demotion n).held then 0 else 1 } } := by
  rw [State.demote_eq, State.retire_spl]
  by_cases h0 : slotsWhere s.retire.holdsBehind = 0
  · simp only [State.demotion, h0, BEq.rfl, if_true]
    exact s.retire.release_setSpl _
  · simp only [State.demotion, beq_iff_eq, h0, if_false]
    rfl

/-- A change of time alone completes nothing more. -/
theorem State.completes_time {s t : State} {y : Split} {w : Writes} {nft : Bool} (h : s.completes t y w nft) (c : Clockwork) :
    s.completes { ({ t with time := c } : State) with time := s.time } y w nft := by
  have ht : ({ ({ t with time := c } : State) with time := s.time } : State) = t := by
    rw [h.1]; rfl
  rw [ht]
  exact h

/-! The divergent branch. -/

theorem State.freeSlot_eq_some {s : State} {k : Nat} :
    s.freeSlot = some k ↔ k < 4 ∧ (s.splitAt k).live = false ∧ ∀ j, j < k → (s.splitAt j).live = true := by
  rw [State.freeSlot, show slots = List.range 4 from rfl, List.find?_range_eq_some]
  simp [and_left_comm]

/-- Does a divergent branch not divide its split, whatever slots are free (R116, R373, R441)? -/
def State.undivided (s : State) : Bool :=
  s.replicated || s.deterministic || s.handlerMode || !s.spl.stack.isEmpty || decide (4 ≤ s.spl.chain.length)

theorem State.undivided_eq_false (s : State) : s.undivided = false ↔ s.replicated = false ∧ s.deterministic = false ∧
    s.handlerMode = false ∧ s.spl.stack = [] ∧ s.spl.chain.length < 4 := by
  simp [State.undivided, and_assoc]

section Branch

variable {s : State} {st c : BitVec 3} {f : BitVec 21}

theorem State.exec_brd_none (ht : s.spl.mask &&& s.rdP c.toNat = 0) :
    exec (.brd st c f) s = (s.setSpl { s.spl with rpc := none }).done := by
  change execBrd st c f s = _
  simp only [execBrd, ht, BEq.rfl, if_true]

theorem Mask.and_not_and (m p : Mask) : m &&& ~~~(m &&& p) = m &&& ~~~p := by
  refine BitVec.eq_of_getLsbD_eq fun i hi => ?_
  simp only [BitVec.getLsbD_and, BitVec.getLsbD_not, hi, decide_true, Bool.true_and]
  cases m.getLsbD i <;> rfl

theorem State.exec_brd_all (ht : s.spl.mask &&& s.rdP c.toNat ≠ 0) (hf : s.spl.mask &&& ~~~(s.rdP c.toNat) = 0) :
    exec (.brd st c f) s = .next ((s.setSpl { s.spl with rpc := none }).retireTo (s.targetOf f)) := by
  change execBrd st c f s = _
  simp only [execBrd, Mask.and_not_and, hf, beq_iff_eq, if_neg ht, if_true]

/-- The split as it goes on at the taken arm, the other and the whole mask on its stack (R117). -/
def State.serialised (s : State) (taken fall : Mask) (rpc : Addr) : Split :=
  { s.spl with
    stack := { pc := s.spl.pc + 4, mask := fall, stop := rpc } :: { pc := rpc, mask := s.spl.mask, stop := rpc } :: s.spl.stack
    mask := taken
    rpc := none }

/-- Where lanes take the branch and lanes fall through, the split divides or serialises (R116, R117). -/
theorem State.exec_brd_some {rpc : Addr} (ht : s.spl.mask &&& s.rdP c.toNat ≠ 0) (hf : s.spl.mask &&& ~~~(s.rdP c.toNat) ≠ 0)
    (hr : s.spl.rpc = some rpc) :
    exec (.brd st c f) s = match (if s.undivided then none else s.freeSlot) with
      | some k => .next (s.divide (s.spl.mask &&& s.rdP c.toNat) (s.targetOf f) rpc k)
      | none => s.checked (decide (s.spl.stack.length + 2 ≤ 32)) (.next
          ((s.setSpl (s.serialised (s.spl.mask &&& s.rdP c.toNat) (s.spl.mask &&& ~~~(s.rdP c.toNat)) rpc)).retireTo (s.targetOf f))) := by
  change execBrd st c f s = _
  simp only [execBrd, Mask.and_not_and, beq_iff_eq, if_neg ht, if_neg hf, hr]
  rfl

theorem State.exec_brd_unset (ht : s.spl.mask &&& s.rdP c.toNat ≠ 0) (hf : s.spl.mask &&& ~~~(s.rdP c.toNat) ≠ 0)
    (hr : s.spl.rpc = none) : exec (.brd st c f) s = s.illegalOperand := by
  change execBrd st c f s = _
  simp only [execBrd, Mask.and_not_and, beq_iff_eq, if_neg ht, if_neg hf, hr]

end Branch

/-- The group after the division of its executing split (R116). -/
theorem State.divide_grp (s : State) (taken : Mask) (target rpc : Addr) (k : Nat) :
    ∃ l, s.divide taken target rpc k = s.setGrp { s.grp with
      inflight := l
      ctx := { s.grp.ctx with
        regs := s.regs.tick
        splits := AMap.set (AMap.set s.grp.ctx.splits s.slot { s.nextSplit with
          mask := s.spl.mask &&& ~~~taken, chain := s.spl.chain ++ [rpc], rpc := none, sched := { bound := s.spl.sched.bound } }) k
          { live := true, pc := target, mask := taken, chain := s.spl.chain ++ [rpc], dist := s.nextSplit.dist, rel := s.spl.rel,
            sched := { bound := s.spl.sched.bound } } } } := by
  refine ⟨(s.divide taken target rpc k).grp.inflight, ?_⟩
  unfold State.divide
  simp only [State.retire_spl]
  rw [State.retire_eq]
  simp only [State.setSpl, State.setSplitAt, State.setGrp_grp, State.setGrp_setGrp, State.setGrp_slot, State.retire_grp, AMap.set_set]
  rfl

end Sys2Proof.Machine

open Sys2Proof Sys2Proof.Machine

/-- Settles O33: a `safe` retires, its count at 0, and stops where that is asked. -/
theorem safePoint : Obligations.SafePoint := by
  unfold Obligations.SafePoint
  intro s st i
  refine ⟨rfl, fun h => State.refusesOperand_of_checked rfl (by simpa using h), fun h hr => ⟨_, s.exec_safe st i h (.inl hr), ?_⟩,
    fun h hr hs => ⟨_, s.exec_safe st i h (.inr hs), ?_⟩⟩
  · simp only [hr, Bool.false_eq_true, if_false]
    exact s.completes_retire_setSpl _
  · have hs' : (!s.handlerMode && s.stopAsked) = false := hs
    simp only [hr, hs', if_true, Bool.false_eq_true, if_false]
    exact ⟨by simp, by simp, State.completes_setRepl (s.completes_retire_setSpl (s.safeSplit none)) _⟩

/-- Settles O29: the hold set is the set of the slots that the rule names, and its emptiness decides. -/
theorem splitDemotion : Obligations.SplitDemotion := by
  unfold Obligations.SplitDemotion
  intro s st
  have hold : ∀ k, s.retire.holdsBehind k = (decide (k ≠ s.slot) && (s.splitAt k).live && !(s.splitAt k).demo.held &&
      (s.splitAt k).demo.released.isNone && decide (s.retire.standing k ≠ .no)) := by
    intro k
    by_cases hk : k = s.slot
    · simp [State.holdsBehind, hk]
    · simp [State.holdsBehind, hk, s.retire_splitAt hk, bne, beq_eq_decide]
  simp only [← hold]
  refine ⟨rfl, s.retire.demote s.tseq, s.demotion s.tseq, rfl, ?_⟩
  rw [State.retire_demote]
  refine ⟨State.completes_time (s.completes_retire_setSpl _) _, rfl, fun k hk => ?_, ?_⟩
  · rw [← getLsbD_slotsWhere s.retire.holdsBehind hk]
    by_cases h0 : slotsWhere s.retire.holdsBehind = 0
    · rw [State.demotion, if_pos h0, h0]
    · rw [State.demotion, if_neg h0]
  · rw [← slotsWhere_ne_zero]
    by_cases h0 : slotsWhere s.retire.holdsBehind = 0
    · rw [State.demotion, if_pos h0]
      simp [h0]
    · rw [State.demotion, if_neg h0]
      exact ⟨iff_of_true rfl h0, rfl⟩

/-- Settles O31: the outcomes are those of one test after another, of the masks, RPC, the slots and the stack. -/
theorem divergentBranch : Obligations.DivergentBranch := by
  unfold Obligations.DivergentBranch
  intro s st c f x taken fall target i divides
  have htarget : s.targetOf f = target := s.targetOf_eq f
  have hslot : ∀ k, divides k ↔ s.undivided = false ∧ s.freeSlot = some k := fun k => by
    simp only [divides, State.undivided_eq_false, State.freeSlot_eq_some, and_assoc, x]
  have hwhole : (∀ k, ¬divides k) → (if s.undivided then none else s.freeSlot) = none := by
    intro h
    split
    · rfl
    · next hu =>
      exact Option.eq_none_iff_forall_ne_some.2 fun k hk => h k ((hslot k).2 ⟨by simpa using hu, hk⟩)
  refine ⟨fun ht => ?_, fun ht hf => ?_, fun ht hf hr => ?_, fun rpc k ht hf hr hd hk => ?_, fun rpc ht hf hr hd hs => ?_,
    fun rpc ht hf hr hd hs => ?_⟩
  · exact s.next_setSpl_done (x := { s.spl with rpc := none }) rfl (State.exec_brd_none ht)
  · rw [← htarget]
    exact s.next_setSpl (State.exec_brd_all ht hf)
  · exact State.exec_brd_unset ht hf hr
  · obtain ⟨hu, hfree⟩ := (hslot k).1 hd
    obtain ⟨l, hgrp⟩ := s.divide_grp taken target rpc k
    refine ⟨s.divide taken target rpc k, ?_, ?_⟩
    · rw [State.exec_brd_some ht hf hr, hu, hfree, htarget]
      rfl
    · rw [hgrp]
      refine ⟨by simp, s.sameBytes_setGrp _, ?_, ?_, ?_, fun j hj hjk => ?_⟩
      · rw [State.setGrp_regs]; exact Regs.keeps_clock _ _
      · have hfall : s.spl.mask &&& ~~~taken = fall := Mask.and_not_and _ _
        simp [State.spl, State.splitAt, AMap.get_set, Ne.symm hk, ← hfall, x]
      · simp [State.splitAt, x]
      · simp [State.splitAt, AMap.get_set, hj, hjk]
  · rw [← htarget]
    refine s.next_setSpl (x := s.serialised taken fall rpc) ((State.exec_brd_some ht hf hr).trans ?_)
    rw [hwhole hd]
    exact State.checked_of_true _ (decide_eq_true hs)
  · have he := State.exec_brd_some (st := st) (f := f) ht hf hr
    rw [hwhole hd] at he
    exact State.refusesOperand_of_checked he (by rw [decide_eq_true_eq]; exact Nat.not_le.2 hs)

/-! PROOFS. The typed vector instructions (R184 to R192): the types they accept, and their elements. -/

namespace Sys2Proof.Machine

/-! The types that an instruction accepts (R184). -/

theorem modeType_lt (m : Word) : modeType m < 16 := (m.extractLsb' 0 4).isLt

/-- The TYPE codes of the arithmetic types (R98, R184). -/
def arithCodes : List Nat := [0, 1, 2, 3, 4, 5, 6, 8, 9, 10, 11]

theorem tyOf_ne_vq2 : ∀ k ∈ arithCodes, tyOf k ≠ some .vq2 := by decide

theorem TypeSet.pick_arith {m : Word} {ty : Ty} (hm : modeType m ∈ arithCodes) (ht : tyOf (modeType m) = some ty) :
    TypeSet.arith.pick m = some ty := by
  cases ty with
  | float f => exact TypeSet.pick_arith_float ht
  | int t => exact TypeSet.pick_arith_int ht
  | vq2 => exact absurd ht (tyOf_ne_vq2 _ hm)

theorem TypeSet.pick_integer {m : Word} {t : IntTy} (ht : tyOf (modeType m) = some (.int t)) :
    TypeSet.integer.pick m = some (.int t) := by simp [TypeSet.pick, ht]

theorem TypeSet.pick_wide {m : Word} {f : Fmt} (ht : tyOf (modeType m) = some (.float f)) (hw : 16 ≤ f.width) :
    TypeSet.wide.pick m = some (.float f) := by simp [TypeSet.pick, ht, hw]

theorem TypeSet.pick_f32 {m : Word} (h : modeType m = 0) : TypeSet.f32.pick m = some (.float .f32) := by
  simp [TypeSet.pick, h, tyOf, Fmt.f32]

/-- The codes that a set of types accepts. -/
def TypeSet.codes : TypeSet → List Nat
  | .arith => arithCodes
  | .integer => [5, 6, 8, 9, 10, 11]
  | .wide => [0, 1, 2]
  | .f32 => [0]

/-- Under any other TYPE there is no type to work in. -/
theorem TypeSet.pick_eq_none {set : TypeSet} {m : Word} (h : modeType m ∉ set.codes) : set.pick m = none := by
  have hlt := modeType_lt m
  unfold TypeSet.pick
  revert h
  revert hlt
  generalize modeType m = k
  revert k
  cases set <;> decide

/-! Elements of a result. -/

theorem Ty.nonFinite_mod (t : Ty) (ht : 0 < t.width) (x : Nat) : t.nonFinite (x % 2 ^ t.width) = t.nonFinite x := by
  cases t with
  | float f =>
    have hd : 2 ^ (f.width - 1) ∣ 2 ^ f.width := Nat.pow_dvd_pow 2 (Nat.sub_le _ _)
    simp only [Ty.nonFinite, Fmt.nonFinite, Ty.width, Nat.mod_mod_of_dvd x hd]
  | int t => rfl
  | vq2 => rfl

/-- Whether a slice made of elements holds a non-finite one is a matter of the elements. -/
theorem Ty.anyNonFinite_of_elem {t : Ty} {x : Word} {res : Nat → Nat} (ht : 0 < t.width)
    (hx : ∀ e, e < 32 / t.width → elem t.width x e = res e % 2 ^ t.width) :
    t.anyNonFinite x = (List.range (32 / t.width)).any fun e => t.nonFinite (res e) := by
  rw [Ty.anyNonFinite, Bool.eq_iff_iff, List.any_eq_true, List.any_eq_true]
  refine exists_congr fun e => and_congr_right fun he => ?_
  rw [hx e (List.mem_range.1 he), Ty.nonFinite_mod t ht]

section Typed

variable {s : State} {i : Instr} {set : TypeSet} {rsr : Bool} {f : Ty → Rounding → Nat → Nat → Nat → Nat} {d a b : Nat} {lat : Option Nat}

theorem State.refusesOperand_typed (h : exec i s = s.typed set rsr f d a b lat) (ha : s.active ≠ 0) (hm : modeType s.regs.gmode ∉ set.codes) :
    s.refusesOperand i := by
  rw [State.refusesOperand, State.exec_vector_active h ha, TypeSet.pick_eq_none hm]
  rfl

theorem State.idle_typed (h : exec i s = s.typed set rsr f d a b lat) (ha : s.active = 0) : exec i s = .next s.retire :=
  State.exec_vector_idle h ha

/-- What a typed elementwise instruction does under a type that it accepts (R187). -/
theorem State.answersElements_typed {t : Ty} (h : exec i s = s.typed set rsr f d a b lat) (ha : s.active ≠ 0)
    (hp : set.pick s.regs.gmode = some t) (ht : 0 < t.width) :
    s.answersElements i t.width d lat (rsr && t.isFloat) t.nonFinite fun l e =>
      f t (modeRounding s.regs.gmode (s.draw (l + 32 * e) l)) (elem t.width (s.rdV a l) e) (elem t.width (s.rdV b l) e)
        (elem t.width (s.rdV d l) e) := by
  have hlane : ∀ l e, e < 32 / t.width → elem t.width (s.typedLane t (f t) d a b l) e =
      f t (modeRounding s.regs.gmode (s.draw (l + 32 * e) l)) (elem t.width (s.rdV a l) e) (elem t.width (s.rdV b l) e)
        (elem t.width (s.rdV d l) e) % 2 ^ t.width := fun l e he => elem_perElem _ _ _ _ _ _ he
  refine s.answersElements_of i t.width d lat _ _ _ (s.typedLane t (f t) d a b)
    (lanes.any fun l => s.active.has l && t.anyNonFinite (s.typedLane t (f t) d a b l)) ha ?_ (fun l _ => hlane l) ?_
  · rw [State.exec_vector_active h ha, hp]
    cases t <;> rfl
  · exact congrArg lanes.any (funext fun l => congrArg _ (Ty.anyNonFinite_of_elem ht (hlane l)))

end Typed

theorem State.refusesOperand_compare {s : State} {i : Instr} {c : Cond} {d a b : Nat} (h : exec i s = s.compare c d a b) (ha : s.active ≠ 0)
    (hm : modeType s.regs.gmode ∉ arithCodes) : s.refusesOperand i := by
  rw [State.refusesOperand, State.exec_vector_active h ha, TypeSet.pick_eq_none hm]
  rfl

theorem State.refusesOperand_convert {s : State} {i : Instr} {dst : Ty} {d a : Nat} (h : exec i s = s.convert dst d a) (ha : s.active ≠ 0)
    (hm : modeType s.regs.gmode ∉ arithCodes) : s.refusesOperand i := by
  rw [State.refusesOperand, State.exec_vector_active h ha, TypeSet.pick_eq_none hm]
  rfl

theorem State.refusesOperand_reduction {s : State} {i : Instr} {rsr : Bool} {f : Ty → Rounding → Nat → Nat → Nat → Nat} {d a : Nat}
    (h : exec i s = s.reduction rsr f d a) (hm : modeType s.regs.gmode ∉ arithCodes) : s.refusesOperand i := by
  rw [State.refusesOperand, h, State.reduction, TypeSet.pick_eq_none hm]
  rfl

theorem tyOf_width_pos {k : Nat} {t : Ty} (h : tyOf k = some t) : 0 < t.width := by
  unfold tyOf at h
  split at h <;> cases h <;> decide

/-- The integer magnitude of `vabs` (R188). -/
theorem absOp_eq : absOp = elementwise (fun _ x _ _ => x.abs) (fun x _ _ => (x.natAbs : Int)) := by
  unfold absOp
  congr 1
  funext x y z
  split <;> omega

section Elementwise

variable {s : State} {i : Instr} {rsr : Bool} {fl : Bool → Fl → Fl → Fl → Fl} {int : Int → Int → Int → Int} {d a b : Nat}

/-- What an elementwise instruction computes: the exact value of each element, rounded or reduced once. -/
theorem State.answersElements_elementwise {ty : Ty} (h : exec i s = s.typed .arith rsr (elementwise fl int) d a b latAlu)
    (ha : s.active ≠ 0) (hm : modeType s.regs.gmode ∈ arithCodes) (ht : tyOf (modeType s.regs.gmode) = some ty) :
    s.answersElements i ty.width d (some 4) (rsr && ty.isFloat) ty.nonFinite (s.elementOf ty fl int d a b) := by
  have hp := s.answersElements_typed h ha (TypeSet.pick_arith hm ht) (tyOf_width_pos ht)
  refine Eq.mp (congrArg (s.answersElements i ty.width d (some 4) (rsr && ty.isFloat) ty.nonFinite) ?_) hp
  funext l e
  cases ty <;> rfl

theorem State.elementwise_idle_or {ty : Ty} (h : exec i s = s.typed .arith rsr (elementwise fl int) d a b latAlu) :
    (s.active = 0 → exec i s = .next s.retire) ∧
      (s.active ≠ 0 → modeType s.regs.gmode ∈ arithCodes → tyOf (modeType s.regs.gmode) = some ty →
        s.answersElements i ty.width d (some 4) (rsr && ty.isFloat) ty.nonFinite (s.elementOf ty fl int d a b)) :=
  ⟨State.idle_typed h, State.answersElements_elementwise h⟩

end Elementwise

/-- What a function of R190 computes: each element its rounded value, of the inputs as FTZ leaves them. -/
theorem State.function_idle_or {s : State} {i : Instr} {g : Fmt → Rounding → Fl → Fl → Nat} {d a b : Nat} (f : Fmt)
    (h : exec i s = s.typed .wide true (functionOp g) d a b latTrans) :
    (s.active = 0 → exec i s = .next s.retire) ∧
      (s.active ≠ 0 → tyOf (modeType s.regs.gmode) = some (.float f) → 16 ≤ f.width →
        s.answersElements i f.width d (some 8) true f.nonFinite fun l e =>
          g f (modeRounding s.regs.gmode (s.draw (l + 32 * e) l)) (f.input (modeFtz s.regs.gmode) (elem f.width (s.rdV a l) e))
            (f.input (modeFtz s.regs.gmode) (elem f.width (s.rdV b l) e))) :=
  ⟨State.idle_typed h, fun ha ht hw => s.answersElements_typed (t := .float f) h ha (TypeSet.pick_wide ht hw) (tyOf_width_pos ht)⟩

end Sys2Proof.Machine

open Sys2Proof Sys2Proof.Machine

/-- Settles O15: the test of TYPE comes before anything else that an instruction with an active lane does. -/
theorem typeRefused : Obligations.TypeRefused := by
  unfold Obligations.TypeRefused
  intro s st d a b g p
  simp only [List.forall_mem_cons, List.not_mem_nil, false_implies, implies_true, and_true]
  refine ⟨fun hm ha => ?_, fun hm ha => ?_, fun hm ha => ?_, fun hm ha => ?_, fun hm ha => ?_, fun hm ha => ?_, fun hm => ?_⟩
  · have hr := fun {i rsr f b} (h : exec i s = s.typed .arith rsr f d.toNat a.toNat b latAlu) => State.refusesOperand_typed h ha hm
    exact ⟨hr rfl, hr rfl, hr rfl, hr rfl, hr rfl, hr rfl, hr rfl, hr rfl, hr rfl, hr rfl⟩
  · exact State.refusesOperand_typed (set := .integer) (f := mulhOp) rfl ha hm
  · have hr := fun {i b} (g : Fmt → Rounding → Fl → Fl → Nat)
        (h : exec i s = s.typed .wide true (functionOp g) d.toNat a.toNat b latTrans) => State.refusesOperand_typed h ha hm
    exact ⟨hr Fmt.div rfl, hr (fun f r x _ => f.div r (.fin false 1 0) x) rfl, hr (fun f r x _ => f.sqrt r x) rfl,
      hr (fun f r x _ => f.rsqrt r x) rfl, hr (fun f r x _ => f.exp2 r x) rfl, hr (fun f r x _ => f.log2 r x) rfl⟩
  · refine (State.exec_vector_active rfl ha).trans ?_
    rw [TypeSet.pick_eq_none (set := .f32) hm]
    rfl
  · have hr := fun {i c} (h : exec i s = s.compare c p.toNat a.toNat b.toNat) => State.refusesOperand_compare h ha hm
    exact ⟨hr rfl, hr rfl, hr rfl, hr rfl, hr rfl, hr rfl, hr rfl⟩
  · have hr := fun {i dst} (h : exec i s = s.convert dst d.toNat a.toNat) => State.refusesOperand_convert h ha hm
    exact ⟨hr rfl, hr rfl, hr rfl, hr rfl, hr rfl, hr rfl, hr rfl, hr rfl, hr rfl, hr rfl, hr rfl⟩
  · have hr := fun {i rsr f} (h : exec i s = s.reduction rsr f g.toNat a.toNat) => State.refusesOperand_reduction h hm
    exact ⟨hr rfl, hr rfl, hr rfl⟩

/-- Settles O10: each instruction is the one typed operation with its exact value. -/
theorem vectorArithmetic : Obligations.VectorArithmetic := by
  unfold Obligations.VectorArithmetic
  intro s st d a b ty
  refine ⟨State.elementwise_idle_or rfl, State.elementwise_idle_or rfl, State.elementwise_idle_or rfl, State.elementwise_idle_or rfl,
    State.elementwise_idle_or rfl, State.elementwise_idle_or rfl, State.elementwise_idle_or rfl, State.elementwise_idle_or rfl,
    ?_, State.elementwise_idle_or rfl, State.idle_typed rfl, fun t ha ht => ?_⟩
  · refine State.elementwise_idle_or (fl := fun _ x _ _ => x.abs) (int := fun x _ _ => (x.natAbs : Int)) ?_
    rw [← absOp_eq]
    rfl
  · exact s.answersElements_typed (t := .int t) (i := .vmulh st d a b) (rsr := false) (f := mulhOp) (d := d.toNat) (a := a.toNat) (b := b.toNat)
      (lat := latAlu) rfl ha (TypeSet.pick_integer ht) (tyOf_width_pos ht)

/-- Settles O11: each function is the typed operation of latency 8 on the inputs as FTZ leaves them. -/
theorem vectorFunctions : Obligations.VectorFunctions := by
  unfold Obligations.VectorFunctions
  intro s st d a b f
  exact ⟨State.function_idle_or (g := Fmt.div) f rfl, State.function_idle_or (g := fun f r x _ => f.div r (.fin false 1 0) x) f rfl,
    State.function_idle_or (g := fun f r x _ => f.sqrt r x) f rfl, State.function_idle_or (g := fun f r x _ => f.rsqrt r x) f rfl,
    State.function_idle_or (g := fun f r x _ => f.exp2 r x) f rfl, State.function_idle_or (g := fun f r x _ => f.log2 r x) f rfl⟩

/-! PROOFS. Pairs, conversions and reductions (R179, R180, R192, R198 to R200, R205). -/

namespace Sys2Proof.Machine

/-- An instruction that writes registers, sets the non-finite mark where its result asks for it, and retires. -/
theorem State.completes_nonFinite (s : State) (r : Regs) (l : List Inflight) (w : Writes) (bad : Bool)
    (hl : ∀ e ∈ l, w.names e.reg = true) (hr : Regs.leaves w s.regs r) (hm : w.mode = false) :
    let t := ((s.setGrp (s.grp.wrote r l)).nonFinite bad).retire
    t.regs = r.tick ∧ s.nonFiniteMark t bad ∧ (∀ e ∈ l, e ∈ t.grp.inflight) ∧ s.completes t s.nextSplit w true := by
  obtain ⟨-, -, -, -, -, hgm, -, -, -, hts, -⟩ := id hr
  rw [s.nonFinite_eq (s.grp.wrote r l) bad rfl (hgm hm) hts]
  refine ⟨State.retire_regs _ |>.trans (by simp [Group.wrote, Group.marked]), ?_, fun e he => ?_, s.completes_group _ _ _ rfl ?_ hr⟩
  · simp [State.nonFiniteMark, Group.marked, Group.wrote]
  · simp [Group.marked, Group.wrote, he]
  · exact ⟨rfl, rfl, rfl, rfl, rfl, rfl, rfl, by simp, l, rfl, hl⟩

/-! `vtwosum`. -/

theorem State.exec_vtwosum {s : State} (st : BitVec 3) (d a b : BitVec 7) (ha : s.active ≠ 0) (hm : modeType s.regs.gmode = 0) :
    exec (.vtwosum st d a b) s = (s.twoSumEffect d.toNat a.toNat b.toNat).done := by
  refine (State.exec_vector_active rfl ha).trans ?_
  rw [TypeSet.pick_f32 hm]

/-- Whether the sum is finite is a matter of its 32 bits. -/
theorem nonFinite_twoSum (ftz : Bool) (x y : Word) (n : Nat) (h : (twoSum ftz x y).1 = BitVec.ofNat 32 n) :
    Fmt.f32.nonFinite (twoSum ftz x y).1.toNat = Fmt.f32.nonFinite (n % 2 ^ 32) := by
  rw [h, BitVec.toNat_ofNat]

/-! Conversions. -/

/-- Does the source or the destination of a conversion take part in its rounding (R165)? -/
theorem convertRounds_eq {src dst : Ty} (hs : src ≠ .vq2) (hd : dst ≠ .vq2) :
    convertRounds src dst = (decide (src ≠ dst) && (src.isFloat || dst.isFloat)) := by
  cases src <;> cases dst <;> simp_all [convertRounds, Ty.isFloat]

theorem State.elem_convertLane (s : State) (src dst : Ty) (a l : Nat) {e : Nat} (hd : 0 < dst.width) :
    elem dst.width (s.convertLane src dst a l) e =
      (if 32 / max src.width dst.width ≤ e then 0
       else convertElem src dst (modeRounding s.regs.gmode (s.draw (l + 32 * e) l)) (elem src.width (s.rdV a l) e)) % 2 ^ dst.width := by
  have hlen : dst.width * (32 / max src.width dst.width) ≤ 32 :=
    (Nat.mul_le_mul_right _ (Nat.le_max_right _ _)).trans (Nat.mul_div_le 32 _)
  by_cases he : 32 / max src.width dst.width ≤ e
  · rw [if_pos he, State.convertLane, elem_fromElems_above _ _ _ (by simpa using he) (by simpa using hlen), Nat.zero_mod]
  · rw [if_neg he, State.convertLane, elem_fromElems _ _ _ (by simpa using Nat.not_le.1 he) (by simpa using hlen)]
    simp [List.getD_eq_getElem?_getD, Nat.not_le.1 he]

theorem State.answersElements_convert {s : State} {i : Instr} {dst src : Ty} {d a : Nat} (h : exec i s = s.convert dst d a)
    (ha : s.active ≠ 0) (hm : modeType s.regs.gmode ∈ arithCodes) (ht : tyOf (modeType s.regs.gmode) = some src) (hd : 0 < dst.width) :
    s.answersElements i dst.width d (some 4) (convertRounds src dst) dst.nonFinite fun l e =>
      if 32 / max src.width dst.width ≤ e then 0
      else convertElem src dst (modeRounding s.regs.gmode (s.draw (l + 32 * e) l)) (elem src.width (s.rdV a l) e) := by
  refine s.answersElements_of i dst.width d _ _ _ _ (s.convertLane src dst a)
    (lanes.any fun l => s.active.has l && dst.anyNonFinite (s.convertLane src dst a l)) ha ?_ (fun l _ e _ => s.elem_convertLane src dst a l hd) ?_
  · rw [State.exec_vector_active h ha, TypeSet.pick_arith hm ht]
    rfl
  · exact congrArg lanes.any (funext fun l => congrArg _ (Ty.anyNonFinite_of_elem hd fun e _ => s.elem_convertLane src dst a l hd))

/-- Clamping a bound of a type gives it back (R200). -/
theorem IntTy.result_bound (t : IntTy) (neg : Bool) :
    t.result true (if neg then t.low else t.high) = ((if neg then t.low else t.high) % 2 ^ t.width).toNat := by
  have hp : (1 : Int) ≤ 2 ^ (t.width - 1) := one_le_pow₀ (by norm_num)
  have hq : (1 : Int) ≤ 2 ^ t.width := one_le_pow₀ (by norm_num)
  have hle : t.low ≤ t.high := by
    unfold IntTy.low IntTy.high
    split <;> omega
  cases neg <;> simp [IntTy.result, hle]

/-- A floating element rounded to an integer (R200). -/
theorem convertElem_float_int (g : Fmt) (t : IntTy) (r : Rounding) (x : Nat) :
    convertElem (.float g) (.int t) r x = match roundInt r (g.input r.ftz x) with
      | none => 0
      | some (.error neg) => ((if neg then t.low else t.high) % 2 ^ t.width).toNat
      | some (.ok k) => (max t.low (min t.high k) % 2 ^ t.width).toNat := by
  simp only [convertElem, Ty.exact]
  rcases roundInt r (g.input r.ftz x) with _ | neg | k
  · rfl
  · exact t.result_bound neg
  · rfl

/-! Reductions. -/

/-- One level combines neighbours, and tells the operation the number of the node (R180). -/
theorem treeLevel_map (op : Nat → Nat → Nat → Nat) (x : Nat → Nat) : ∀ n o j,
    treeLevel op j ((List.range' o (2 * n)).map x) = (List.range' 0 n).map fun i => op (j + i) (x (o + 2 * i)) (x (o + 2 * i + 1))
  | 0, _, _ => rfl
  | n + 1, o, j => by
    rw [show 2 * (n + 1) = 2 * n + 1 + 1 by omega, List.range'_succ, List.range'_succ, List.map_cons, List.map_cons, treeLevel,
      treeLevel_map op x n (o + 1 + 1) (j + 1), List.range'_succ, List.map_cons]
    have hshift : List.range' (0 + 1) n = (List.range' 0 n).map (1 + ·) := (List.map_add_range' 0 n 1).symm
    refine congrArg₂ _ (by simp) ?_
    rw [hshift, List.map_map]
    refine List.map_congr_left fun i _ => ?_
    simp only [Function.comp_apply]
    rw [show j + 1 + i = j + (1 + i) by omega, show o + 1 + 1 + 2 * i = o + 2 * (1 + i) by omega]

/-- The five levels give the root of any values that follow the operation from level to level. -/
theorem tree_eq {op : Nat → Nat → Nat → Nat → Nat} {x : Nat → Nat → Nat}
    (h : ∀ lev i, lev < 5 → i < 2 ^ (4 - lev) → x (lev + 1) i = op (lev + 1) i (x lev (2 * i)) (x lev (2 * i + 1))) :
    tree op (lanes.map (x 0)) = x 5 0 := by
  have hstep : ∀ lev n, lev < 5 → n = 2 ^ (4 - lev) →
      treeLevel (op (lev + 1)) 0 ((List.range (2 * n)).map (x lev)) = (List.range n).map (x (lev + 1)) := by
    rintro lev n hlev rfl
    rw [List.range_eq_range', treeLevel_map, List.range_eq_range']
    refine List.map_congr_left fun i hi => ?_
    rw [h lev i hlev (by simpa using hi)]
    simp
  have h0 := hstep 0 16 (by omega) rfl
  have h1 := hstep 1 8 (by omega) rfl
  have h2 := hstep 2 4 (by omega) rfl
  have h3 := hstep 3 2 (by omega) rfl
  have h4 := hstep 4 1 (by omega) rfl
  change ((treeLevel (op 5) 0 (treeLevel (op 4) 0 (treeLevel (op 3) 0 (treeLevel (op 2) 0 (treeLevel (op 1) 0
    ((List.range 32).map (x 0))))))).headD 0) = x 5 0
  rw [h0, h1, h2, h3, h4]
  rfl

theorem State.elem_crossRead (s : State) (w a l e : Nat) :
    elem w (s.crossRead a l) e = if s.active.has l then elem w (s.rdV a l) e else 0 := by
  rw [State.crossRead]
  split <;> simp [elem]

/-- The elements of a reduction over at least one active lane (R180, R205). -/
theorem State.elem_reduce {s : State} {t : Ty} {f : Rounding → Nat → Nat → Nat → Nat} {a e : Nat} {x : Nat → Nat → Nat}
    (ha : s.active ≠ 0) (he : e < 32 / t.width)
    (h0 : ∀ i, i < 32 → x 0 i = if s.active.has i then elem t.width (s.rdV a i) e else 0)
    (h : ∀ lev i, lev < 5 → i < 2 ^ (4 - lev) → x (lev + 1) i =
      f (modeRounding s.regs.gmode (s.draw (256 * e + 32 * (lev + 1) + i) (lowestLane s.active))) (x lev (2 * i)) (x lev (2 * i + 1)) 0) :
    elem t.width (s.reduce t f a) e = x 5 0 % 2 ^ t.width := by
  have hleaf : (lanes.map fun l => elem t.width (s.crossRead a l) e) = lanes.map (x 0) :=
    List.map_congr_left fun i hi => by rw [State.elem_crossRead, h0 i (by simpa [lanes] using hi)]
  rw [State.reduce, if_neg ha, elem_fromElems _ _ _ (by simpa using he) (by simpa using Nat.mul_div_le 32 _)]
  simp only [List.getD_eq_getElem?_getD, List.getElem?_map, List.getElem?_range he, Option.map_some, Option.getD_some]
  rw [hleaf, tree_eq (x := x) h]

/-- What a reduction does but for its value: one group register, the counters, the mark, and nothing else. -/
theorem State.completes_reduceEffect (s : State) (t : Ty) (rsr : Bool) (f : Rounding → Nat → Nat → Nat → Nat) (d a : Nat) :
    let u := (s.reduceEffect t rsr f d a).retire
    u.regs.getG d = zext 64 (s.reduce t f a) ∧ s.pends u (.g d) (some 6) ∧ s.counters u (rsr && t.isFloat) ∧
      s.nonFiniteMark u (t.anyNonFinite (s.reduce t f a)) ∧
      s.completes u s.nextSplit { g := (· == d), scount := rsr && t.isFloat && modeRnd s.regs.gmode == 5 } true := by
  intro u
  have hround : (rsr && match t with | .float _ => true | _ => false) = (rsr && t.isFloat) := by cases t <;> rfl
  obtain ⟨e, he, h1⟩ := s.mark_eq (.g d) 0 latCross (s.regs.setG d (zext 64 (s.reduce t f a)))
  obtain ⟨l, hl, h2⟩ := s.bumpCounters_eq (s.grp.wrote (s.regs.setG d (zext 64 (s.reduce t f a))) [e]) (rsr && t.isFloat) s.active
  set r := s.regs.setG d (zext 64 (s.reduce t f a)) with hr
  have hgm : (s.grp.wrote r [e]).ctx.regs.gmode = s.regs.gmode := rfl
  rw [hgm] at hl h2
  set r' := if (rsr && t.isFloat && modeRnd s.regs.gmode == 5) = true then r.bumpSc s.active lanes else r with hr'
  have hw : u = ((s.setGrp (s.grp.wrote r' (l ++ [e]))).nonFinite (t.anyNonFinite (s.reduce t f a))).retire := by
    have h3 : (s.grp.wrote r [e]).wrote r' l = s.grp.wrote r' (l ++ [e]) := by simp [Group.wrote]
    have h2' : (s.setGrp (s.grp.wrote r [e])).bumpCounters (rsr && t.isFloat) s.active = s.setGrp ((s.grp.wrote r [e]).wrote r' l) := h2
    rw [← h3, ← h2', ← h1, ← hround]
    rfl
  have hsetG : Regs.leaves { g := (· == d), scount := rsr && t.isFloat && modeRnd s.regs.gmode == 5 } s.regs r := by
    refine ⟨fun _ _ _ _ => rfl, fun n hn => ?_, by simp [hr]⟩
    rw [hr, Regs.getG_setG, if_neg (by simpa using hn)]
  have hleave : Regs.leaves { g := (· == d), scount := rsr && t.isFloat && modeRnd s.regs.gmode == 5 } s.regs r' := by
    rw [hr']
    split
    · next hc => exact Regs.leaves_trans hsetG (Regs.bumpSc_leaves _ _ hc _ _)
    · exact hsetG
  have hnames : ∀ x ∈ l ++ [e], Writes.names
      { g := (· == d), scount := rsr && t.isFloat && modeRnd s.regs.gmode == 5 } x.reg = true := by
    intro x hx
    rcases List.mem_append.1 hx with hx | hx
    · rw [(hl x hx).1]
      exact (hl x hx).2
    · rw [List.mem_singleton.1 hx, he.1]
      exact beq_self_eq_true d
  obtain ⟨hregs, hmark, hfl, hcompl⟩ := s.completes_nonFinite r' (l ++ [e]) _ (t.anyNonFinite (s.reduce t f a)) hnames hleave rfl
  rw [← hw] at hregs hmark hfl hcompl
  refine ⟨?_, ⟨e, hfl e (by simp), he⟩, fun k hk => ?_, hmark, hcompl⟩
  · have hg : r'.getG d = r.getG d := by
      rw [hr']
      split
      · exact (Regs.bumpSc_leaves s.active { scount := true } rfl lanes r).2.1 d rfl
      · rfl
    rw [hregs, Regs.getG_tick, hg, hr, Regs.getG_setG, if_pos rfl]
  · rw [hregs, Regs.getSc_tick, hr']
    by_cases hc : (rsr && t.isFloat && modeRnd s.regs.gmode == 5) = true
    · rw [if_pos hc, Regs.getSc_bumpSc _ _ _ _ List.nodup_range, hc]
      simp [hk, hr]
    · rw [if_neg hc]
      simp [hc, hr]

end Sys2Proof.Machine

open Sys2Proof Sys2Proof.Machine

/-- Settles O14: two results in flight, and a mark that looks at the first. -/
theorem vectorTwoSum : Obligations.VectorTwoSum := by
  unfold Obligations.VectorTwoSum
  intro s st d a b
  refine ⟨rfl, fun ha => State.exec_vector_idle rfl ha, fun ha hm => ?_, fun ha hm => ?_⟩
  · refine (State.exec_vector_active rfl ha).trans ?_
    rw [TypeSet.pick_eq_none (set := .f32) (by simpa [TypeSet.codes] using hm)]
    rfl
  · obtain ⟨e, e', he, he', heq⟩ := s.wrV_wrV_eq d.toNat (d.toNat + 1) s.active
      (fun l => (twoSum (modeFtz s.regs.gmode) (s.rdV a.toNat l) (s.rdV b.toNat l)).1)
      (fun l => (twoSum (modeFtz s.regs.gmode) (s.rdV a.toNat l) (s.rdV b.toNat l)).2) latAlu
    have hleave := Regs.leaves_trans (w := { v := fun n l => (n == d.toNat || n == d.toNat + 1) && s.active.has l })
      (s.regs.setLanes_leaves d.toNat s.active (fun l => (twoSum (modeFtz s.regs.gmode) (s.rdV a.toNat l) (s.rdV b.toNat l)).1) _ (by simp))
      (Regs.setLanes_leaves _ (d.toNat + 1) s.active
        (fun l => (twoSum (modeFtz s.regs.gmode) (s.rdV a.toNat l) (s.rdV b.toNat l)).2) _ (by simp))
    obtain ⟨hregs, hmark, hfl, hcompl⟩ := s.completes_nonFinite _ [e', e] _
      (lanes.any fun l => s.active.has l && Fmt.f32.nonFinite (twoSum (modeFtz s.regs.gmode) (s.rdV a.toNat l) (s.rdV b.toNat l)).1.toNat)
      (by
        simp only [List.forall_mem_cons, List.not_mem_nil, false_implies, implies_true, and_true, he.1, he'.1]
        exact ⟨Writes.names_v ha (by simp), Writes.names_v ha (by simp)⟩) hleave rfl
    rw [← heq] at hregs hmark hfl hcompl
    refine ⟨_, State.exec_vtwosum st d a b ha hm, fun l hl => ?_, ⟨e, hfl e (by simp), he⟩, ⟨e', hfl e' (by simp), he'⟩, ?_, hcompl⟩
    · have hl' := Mask.lt_of_has hl
      have hregs' : (s.twoSumEffect d.toNat a.toNat b.toNat).retire.regs = _ := hregs
      rw [hregs', Regs.getV_tick, Regs.getV_tick, Regs.getV_setLanes _ _ _ _ hl', if_neg (by simp), Regs.getV_setLanes _ _ _ _ hl',
        if_pos ⟨rfl, hl⟩, Regs.getV_setLanes _ _ _ _ hl', if_pos ⟨rfl, hl⟩]
      exact ⟨rfl, rfl⟩
    · refine Eq.mp (congrArg (s.nonFiniteMark _) ?_) hmark
      exact congrArg lanes.any (funext fun l => congrArg _ (nonFinite_twoSum _ _ _ _ rfl))

/-- Settles O16: each conversion is the one typed operation, its elements those of the rule. -/
theorem vectorConvert : Obligations.VectorConvert := by
  unfold Obligations.VectorConvert
  intro s st d a src m converts
  have hconv : ∀ (i : Instr) (dst : Ty), exec i s = s.convert dst d.toNat a.toNat → dst ≠ .vq2 → 0 < dst.width → converts i dst := by
    intro i dst h hd hw
    refine ⟨fun ha => State.exec_vector_idle h ha, fun ha hm ht => ?_⟩
    have hs : src ≠ .vq2 := by
      rintro rfl
      exact tyOf_ne_vq2 _ hm ht
    have hr := State.answersElements_convert h ha hm ht hw
    rw [convertRounds_eq hs hd] at hr
    refine Eq.mp (congrArg (s.answersElements i dst.width d.toNat (some 4) _ dst.nonFinite) ?_) hr
    funext l e
    refine if_congr Iff.rfl rfl ?_
    cases src with
    | vq2 => exact absurd rfl hs
    | float g =>
      cases dst with
      | vq2 => exact absurd rfl hd
      | float f => rfl
      | int t => exact convertElem_float_int g t _ _
    | int u =>
      cases dst with
      | vq2 => exact absurd rfl hd
      | float f => rfl
      | int t => rfl
  have hwf : ∀ {f : Fmt}, 0 < f.width → ∀ i, exec i s = s.convert (.float f) d.toNat a.toNat → converts i (.float f) :=
    fun hw i h => hconv i _ h (by simp) hw
  have hwi : ∀ {t : IntTy}, 0 < t.width → ∀ i, exec i s = s.convert (.int t) d.toNat a.toNat → converts i (.int t) :=
    fun hw i h => hconv i _ h (by simp) hw
  exact ⟨hwf (by decide) _ rfl, hwf (by decide) _ rfl, hwf (by decide) _ rfl, hwf (by decide) _ rfl, hwf (by decide) _ rfl,
    hwi (by decide) _ rfl, hwi (by decide) _ rfl, hwi (by decide) _ rfl, hwi (by decide) _ rfl, hwi (by decide) _ rfl,
    hwi (by decide) _ rfl⟩

/-- Settles O19: the model's tree is the one of the rule, level by level. -/
theorem vectorReduce : Obligations.VectorReduce := by
  unfold Obligations.VectorReduce
  intro s st d a ty m reduces node
  have hred : ∀ (i : Instr) (rounds : Bool) (f : Ty → Rounding → Nat → Nat → Nat → Nat) (op : Rounding → Nat → Nat → Nat),
      exec i s = s.reduction rounds f d.toNat a.toNat → (∀ r x y, op r x y = f ty r x y 0) → reduces i rounds op := by
    intro i rounds f op h hop hm ht
    obtain ⟨hg, hpend, hcount, hmark, hcompl⟩ := s.completes_reduceEffect ty rounds (f ty) d.toNat a.toNat
    have hlow : (zext 64 (s.reduce ty (f ty) a.toNat)).extractLsb' 0 32 = s.reduce ty (f ty) a.toNat := by
      refine BitVec.eq_of_getLsbD_eq fun k hk => ?_
      simp [zext, hk]
      omega
    refine ⟨(s.reduceEffect ty rounds (f ty) d.toNat a.toNat).retire, ?_, fun ha => ?_, fun x h0 hx ha e he => ?_, ?_, hpend, hcount, ?_,
      hcompl⟩
    · rw [h, State.reduction, TypeSet.pick_arith hm ht]
      rfl
    · rw [hg, State.reduce, if_pos ha]
      rfl
    · rw [hg, hlow]
      refine State.elem_reduce ha he (h0 e) fun lev i hl hi => ?_
      rw [hx e lev i hl hi, hop]
      rfl
    · rw [hg]
      refine BitVec.eq_of_getLsbD_eq fun k hk => ?_
      simp [zext]
    · rw [hg, hlow]
      exact hmark
  have hnode : ∀ (fl : Bool → Fl → Fl → Fl) (int : Int → Int → Int) (r : Rounding) (x y : Nat),
      node fl int r x y = elementwise (fun rdn x y _ => fl rdn x y) (fun x y _ => int x y) ty r x y 0 := by
    intro fl int r x y
    cases ty <;> rfl
  exact ⟨hred _ _ addOp _ rfl (hnode Fl.add (· + ·)), hred _ _ minOp _ rfl (hnode (fun _ => Fl.min) min),
    hred _ _ maxOp _ rfl (hnode (fun _ => Fl.max) max)⟩

/-! PROOFS. The special inputs of the functions (R191), and the first statements on words and steps. -/

namespace Sys2Proof.Machine

section Specials

variable (f : Fmt) (r : Rounding)

theorem Fmt.div_zero_divisor (s t : Bool) {m : Nat} (hm : m ≠ 0) (e g : Int) : f.div r (.fin s m e) (.fin t 0 g) = f.roundTo r (.inf (s != t)) := by
  simp [Fmt.div, hm]

theorem Fmt.div_zero_dividend (s t : Bool) {n : Nat} (hn : n ≠ 0) (e g : Int) : f.div r (.fin s 0 e) (.fin t n g) = f.roundTo r (.fin (s != t) 0 0) := by
  simp [Fmt.div, hn]

theorem Fmt.sqrt_zero (s : Bool) (e : Int) : f.sqrt r (.fin s 0 e) = f.roundTo r (.fin s 0 0) := by simp [Fmt.sqrt]
theorem Fmt.sqrt_negative {m : Nat} (hm : m ≠ 0) (e : Int) : f.sqrt r (.fin true m e) = f.nanCode := by simp [Fmt.sqrt, hm]
theorem Fmt.rsqrt_zero (s : Bool) (e : Int) : f.rsqrt r (.fin s 0 e) = f.roundTo r (.inf s) := by simp [Fmt.rsqrt]
theorem Fmt.rsqrt_negative {m : Nat} (hm : m ≠ 0) (e : Int) : f.rsqrt r (.fin true m e) = f.nanCode := by simp [Fmt.rsqrt, hm]
theorem Fmt.log2_zero (s : Bool) (e : Int) : f.log2 r (.fin s 0 e) = f.roundTo r (.inf true) := by simp [Fmt.log2]
theorem Fmt.log2_negative {m : Nat} (hm : m ≠ 0) (e : Int) : f.log2 r (.fin true m e) = f.nanCode := by simp [Fmt.log2, hm]

/-- The power of either zero is 1, whatever exponent the zero is written with. -/
theorem Fmt.exp2_zero (s : Bool) (e : Int) : f.exp2 r (.fin s 0 e) = f.roundTo r (.fin false (2 ^ 80) (-80)) := by
  by_cases he : e ≥ 0 <;> simp [Fmt.exp2, Fmt.roundTo, he]

end Specials

/-! A group as it starts (R18, R20). -/

/-- Group registers written from a list, where its entries are not 0. -/
def Regs.withBases (g : List DWord) (l : List Nat) (r : Regs) : Regs :=
  l.foldl (fun r k => if g.getD k 0 == 0 then r else r.setG k (g.getD k 0)) r

theorem Regs.getG_withBases (g : List DWord) (n : Nat) : ∀ (l : List Nat) (r : Regs),
    (r.withBases g l).getG n = if n ∈ l ∧ g.getD n 0 ≠ 0 then g.getD n 0 else r.getG n
  | [], r => by simp [Regs.withBases]
  | k :: l, r => by
    rw [Regs.withBases, List.foldl_cons, ← Regs.withBases, Regs.getG_withBases g n l]
    by_cases hl : n ∈ l ∧ g.getD n 0 ≠ 0
    · rw [if_pos hl, if_pos ⟨List.mem_cons_of_mem _ hl.1, hl.2⟩]
    · rw [if_neg hl]
      by_cases hk : g.getD k 0 = 0
      · rw [if_pos (by simpa using hk), if_neg]
        rintro ⟨h1, h2⟩
        rcases List.mem_cons.1 h1 with rfl | h1
        · exact h2 hk
        · exact hl ⟨h1, h2⟩
      · rw [if_neg (by simpa using hk), Regs.getG_setG]
        by_cases hn : n = k
        · subst hn
          rw [if_pos rfl, if_pos ⟨List.mem_cons_self, hk⟩]
        · rw [if_neg hn, if_neg]
          rintro ⟨h1, h2⟩
          exact hl ⟨(List.mem_cons.1 h1).resolve_left hn, h2⟩

theorem Regs.withBases_leaves (g : List DWord) : ∀ (l : List Nat) (r : Regs), r.withBases g l = { r with g := (r.withBases g l).g }
  | [], _ => rfl
  | k :: l, r => by
    rw [Regs.withBases, List.foldl_cons, ← Regs.withBases, Regs.withBases_leaves g l]
    split <;> rfl

theorem newGroup_regs (core : Nat) (entry : Addr) (threads : Mask) (g : List DWord) :
    (newGroup core entry threads g []).ctx.regs = Regs.withBases g (List.range g.length) {} := rfl

/-- A group that starts without arguments has nothing in its registers but the bases (R18). -/
theorem newGroup_getG (core : Nat) (entry : Addr) (threads : Mask) (g : List DWord) (n : Nat) :
    (newGroup core entry threads g []).ctx.regs.getG n = g.getD n 0 := by
  rw [newGroup_regs, Regs.getG_withBases]
  by_cases hn : n < g.length
  · by_cases h0 : g.getD n 0 = 0
    · rw [if_neg (fun h => h.2 h0), h0]; rfl
    · rw [if_pos ⟨List.mem_range.2 hn, h0⟩]
  · rw [if_neg (fun h => hn (List.mem_range.1 h.1)), List.getD_eq_default _ _ (Nat.not_lt.1 hn)]; rfl

end Sys2Proof.Machine

open Sys2Proof Sys2Proof.Machine

/-- Settles O13: each special input is a branch of its function's definition. -/
theorem functionSpecials : Obligations.FunctionSpecials := by
  unfold Obligations.FunctionSpecials
  intro f r neg m e n
  have hone : (1 : Nat) ≠ 0 := Nat.one_ne_zero
  refine ⟨⟨rfl, rfl, rfl, rfl, rfl⟩, ⟨?_, rfl, rfl, rfl, rfl, rfl, rfl, rfl, rfl⟩,
    fun hm => ⟨f.sqrt_negative r hm e, f.rsqrt_negative r hm e, f.log2_negative r hm e⟩,
    ⟨?_, f.sqrt_zero r neg e, f.rsqrt_zero r neg e, f.log2_zero r neg e, f.exp2_zero r neg e⟩, ⟨rfl, rfl, rfl⟩,
    fun hm => ⟨f.div_zero_divisor r neg n hm e e, f.div_zero_dividend r neg n hm e e⟩, rfl, rfl⟩
  · exact congrArg (fun s => f.roundTo r (.fin s 0 0)) (Bool.false_bne neg)
  · exact (f.div_zero_divisor r false neg hone 0 e).trans (congrArg (fun s => f.roundTo r (.inf s)) (Bool.false_bne neg))

/-- Settles O1: each word is decoded. -/
theorem decodeWords : Obligations.DecodeWords := by
  unfold Obligations.DecodeWords
  decide

/-- Settles O4: the two branches of a step. -/
theorem stepRunsEvent : Obligations.StepRunsEvent := by
  unfold Obligations.StepRunsEvent
  intro s
  refine ⟨fun e rest h => ?_, fun h hn => ?_⟩
  · rw [step, h]
  · rw [step, h]
    change s.advance exec = _
    rw [State.advance, hn]

/-- Settles O5: the reset state is evaluated, and the registers of a new group are the model's defaults but for its bases. -/
theorem resetState : Obligations.ResetState := by
  unfold Obligations.ResetState
  refine ⟨⟨rfl, fun _ => rfl, rfl, rfl, rfl, rfl, rfl, rfl, fun d => ?_, rfl, rfl, rfl, rfl, rfl, rfl, fun q => ⟨rfl, rfl, rfl, rfl, rfl, rfl, rfl⟩⟩,
    fun core entry threads bases hb => ?_⟩
  · simp [State.inService, State.reset]
  · intro r
    have hr : r = { ({} : Regs) with g := (Regs.withBases bases (List.range bases.length) {}).g } :=
      (newGroup_regs core entry threads bases).trans (Regs.withBases_leaves _ _ _)
    refine ⟨?_, fun n _ => newGroup_getG core entry threads bases n, ?_, ?_, ?_, ?_, ?_⟩
    all_goals rw [hr]
    · exact fun _ _ _ => rfl
    · intro n l hl
      by_cases hn : n = 0
      · subst hn
        exact Mask.has_full hl
      · simp [Regs.getP, hn, Mask.has, AMap.get]
    · intro n _
      by_cases hn : n = 0 <;> simp [Regs.getQ, hn]
    · exact fun _ _ _ => rfl
    · exact fun _ => rfl
    · exact ⟨rfl, rfl, rfl, rfl⟩

/-! PROOFS. The registers of the queues (R42, R43, R459, R460, R477). -/

namespace Sys2Proof.Machine

/-- The register at an offset into a queue's registers, as a write of BAR0 finds it (R459). -/
def State.queueRegister (s : State) (q k : Nat) (w : BitVec 64) : Out :=
  match k with
  | 0x00 => execQbaseWrite q w s
  | 0x08 => execQctlWrite q (loWord w) s
  | 0x0C => execQtailDoorbell q (loWord w) s
  | 0x20 => execQstatClear q (loWord w) s
  | _ => .next s

theorem State.queueRegister_other {s : State} {k : Nat} (q : Nat) (w : BitVec 64) (h : k ∉ [0x00, 0x08, 0x0C, 0x20]) :
    s.queueRegister q k w = .next s := by
  simp only [List.mem_cons, List.not_mem_nil, or_false, not_or] at h
  obtain ⟨h0, h8, hC, h20⟩ := h
  rw [State.queueRegister]
  all_goals assumption

section Queues

variable {s : State} {q : Nat} (hq : q < 64)

include hq

theorem exec_qctlWrite (v : BitVec 32) : exec (.qctlWrite q v) s =
    if qctlEn (s.queue q).ctl then
      if qctlAsid (qctlBits v) != qctlAsid (s.queue q).ctl || qctlLogn (qctlBits v) != qctlLogn (s.queue q).ctl then
        .next (s.setQueue q { s.queue q with stat := (s.queue q).stat ||| 4 })
      else .next (s.setQueue q { s.queue q with ctl := qctlBits v })
    else if !qctlEn (qctlBits v) then .next (s.setQueue q { s.queue q with ctl := qctlBits v })
    else if qctlLogn (qctlBits v) < 4 || 12 < qctlLogn (qctlBits v) then
      .next (s.setQueue q { s.queue q with ctl := qctlBits v &&& 0xFFFFFFFE#32, stat := (s.queue q).stat ||| 4 })
    else .next (s.noteMet.setQueue q { s.queue q with
      ctl := qctlBits v, head := 0, tail := 0, done := 0, doneSet := [], hostNum := 0, enGen := (s.queue q).enGen + 1 }) := by
  change execQctlWrite q v s = _
  rw [execQctlWrite, if_neg (by omega)]

theorem exec_qbaseWrite (v : BitVec 64) : exec (.qbaseWrite q v) s =
    if !qctlEn (s.queue q).ctl then .next (s.setQueue q { s.queue q with base := qbaseBits v })
    else if qbaseBits v == (s.queue q).base then .next s
    else .next (s.setQueue q { s.queue q with stat := (s.queue q).stat ||| 4 }) := by
  change execQbaseWrite q v s = _
  rw [execQbaseWrite, if_neg (by omega)]

theorem exec_qtailDoorbell (v : BitVec 32) : exec (.qtailDoorbell q v) s =
    if s.level == 0 || !qctlEn (s.queue q).ctl then .next (s.setQueue q { s.queue q with stat := (s.queue q).stat ||| 2 })
    else if 2 ^ qctlLogn (s.queue q).ctl ≤ (v.extractLsb' 0 12).toNat then
      .next (s.setQueue q { s.queue q with stat := (s.queue q).stat ||| 1 })
    else .next (s.setQueue q { s.queue q with tail := v.extractLsb' 0 12, stopped := false }) := by
  change execQtailDoorbell q v s = _
  rw [execQtailDoorbell, if_neg (by omega)]
  simp only [BitVec.ofNat_toNat, BitVec.setWidth_eq]

theorem exec_qstatClear (v : BitVec 32) : exec (.qstatClear q v) s =
    .next (s.setQueue q { s.queue q with stat := (s.queue q).stat &&& ~~~v, stopped := (s.queue q).stopped && !v.getLsbD 4 }) := by
  change execQstatClear q v s = _
  rw [execQstatClear, if_neg (by omega)]

/-- A write of BAR0 at an offset into a queue's registers (R459). -/
theorem exec_registerWrite_queue {off k : Nat} (hk : k < 64) (ho : off = 0x10000 + 64 * q + k) (w : BitVec 64) :
    exec (.registerWrite off w) s = s.queueRegister q k w := by
  have hin : (decide (0x10000 ≤ off) && decide (off < 0x10000 + 0x40 * 64)) = true := by
    simp
    omega
  change execRegisterWrite off w s = _
  rw [execRegisterWrite, if_neg (by omega), if_pos hin, show (off - 0x10000) % 0x40 = k by omega,
    show (off - 0x10000) / 0x40 = q by omega]
  rfl

end Queues

/-- Every other offset of BAR0 takes no write (R8, R459). -/
theorem exec_registerWrite_other {s : State} {off : Nat} (w : BitVec 64) (hoff : off < 2 ^ 24) (h : off ≠ 0x100)
    (hq : off < 0x10000 ∨ 0x11000 ≤ off ∨ off % 64 ∉ [0x00, 0x08, 0x0C, 0x20]) : exec (.registerWrite off w) s = .next s := by
  by_cases hin : 0x10000 ≤ off ∧ off < 0x11000
  · have hmod : off % 64 ∉ [0x00, 0x08, 0x0C, 0x20] :=
      (hq.resolve_left (Nat.not_lt.2 hin.1)).resolve_left (Nat.not_le.2 hin.2)
    rw [exec_registerWrite_queue (q := (off - 0x10000) / 64) (k := off % 64) (by omega) (by omega) (by omega) w]
    exact State.queueRegister_other _ w hmod
  · change execRegisterWrite off w s = _
    rw [execRegisterWrite, if_neg h, if_neg (by simp only [Bool.and_eq_true, decide_eq_true_eq]; omega), if_pos hoff]

end Sys2Proof.Machine

open Sys2Proof Sys2Proof.Machine

/-- Settles O55: each register's write, branch by branch, and the offsets of BAR0 that lead to them. -/
theorem queueRegisters : Obligations.QueueRegisters := by
  unfold Obligations.QueueRegisters
  intro s q off v w x en y z same logn tail off_ hq
  have hsame : (qctlAsid (qctlBits v) != qctlAsid (s.queue q).ctl || qctlLogn (qctlBits v) != qctlLogn (s.queue q).ctl) = true ↔ ¬same := by
    simp only [Bool.or_eq_true, bne_iff_ne, ne_eq, qctlAsid, qctlLogn, ← BitVec.toNat_eq]
    exact not_and_or.symm
  have hon : en = true → qctlEn (s.queue q).ctl = true := id
  have hoff : en = false → ¬qctlEn (s.queue q).ctl = true := Bool.eq_false_iff.1
  have hset : y.getLsbD 0 = true → ¬(!qctlEn (qctlBits v)) = true := fun h => by
    rw [Bool.not_eq_true', Bool.not_eq_false]
    exact h
  have hlogn : (decide (qctlLogn (qctlBits v) < 4) || decide (12 < qctlLogn (qctlBits v))) = true ↔ logn < 4 ∨ 12 < logn := by
    simp only [Bool.or_eq_true, decide_eq_true_eq]
    rfl
  refine ⟨fun he hs => ?_, fun h => ?_, fun he hy hl => ?_, fun he hy h4 h12 => ?_, fun he => ?_, fun he hz => ?_, fun he hz => ?_,
    fun h => ?_, fun hl he => ⟨fun ht => ?_, fun ht => ?_⟩, exec_qstatClear hq v, rfl,
    exec_registerWrite_queue (k := 0) hq (by omega) rfl w, exec_registerWrite_queue (k := 8) hq (by omega) rfl w,
    exec_registerWrite_queue (k := 12) hq (by omega) rfl w, exec_registerWrite_queue (k := 32) hq (by omega) rfl w,
    exec_registerWrite_other w⟩
  · rw [exec_qctlWrite hq, if_pos (hon he), if_pos (hsame.2 hs)]
  · rw [exec_qctlWrite hq]
    rcases h with ⟨he, hs⟩ | ⟨he, hy⟩
    · rw [if_pos (hon he), if_neg fun h => hsame.1 h hs]
      rfl
    · have hy' : (!qctlEn (qctlBits v)) = true := by rw [Bool.not_eq_true']; exact hy
      rw [if_neg (hoff he), if_pos hy']
      rfl
  · rw [exec_qctlWrite hq, if_neg (hoff he), if_neg (hset hy), if_pos (hlogn.2 hl)]
    rfl
  · refine ⟨s.noteMet.setQueue q { x with
      ctl := y, head := 0, tail := 0, done := 0, doneSet := [], hostNum := 0, enGen := x.enGen + 1 }, ?_, ?_, fun j hj => ?_, rfl, rfl⟩
    · rw [exec_qctlWrite hq, if_neg (hoff he), if_neg (hset hy), if_neg fun h => by have := hlogn.1 h; omega]
      rfl
    · exact AMap.get_set_same _ _ _ _
    · exact AMap.get_set_other _ _ _ hj
  · rw [exec_qbaseWrite hq, if_pos (by rw [Bool.not_eq_true']; exact he)]
    rfl
  · have hz' : (qbaseBits w == (s.queue q).base) = true := beq_iff_eq.2 hz
    rw [exec_qbaseWrite hq, if_neg (by rw [Bool.not_eq_true', Bool.not_eq_false]; exact hon he), if_pos hz']
  · have hz' : ¬(qbaseBits w == (s.queue q).base) = true := fun h => hz (beq_iff_eq.1 h)
    rw [exec_qbaseWrite hq, if_neg (by rw [Bool.not_eq_true', Bool.not_eq_false]; exact he), if_neg hz']
  · rw [exec_qtailDoorbell hq, if_pos]
    rw [Bool.or_eq_true, beq_iff_eq, Bool.not_eq_true']
    exact h
  all_goals
    have hlive : ¬(s.level == 0 || !qctlEn (s.queue q).ctl) = true := by
      rw [Bool.or_eq_true, beq_iff_eq, Bool.not_eq_true']
      exact not_or.2 ⟨hl, by rw [hon he]; exact Bool.noConfusion⟩
    rw [exec_qtailDoorbell hq, if_neg hlive]
  · exact if_pos ht
  · exact if_neg (Nat.not_le.2 ht)

/-! PROOFS. What the work of the memory system leaves as it is: the operations of the homes and of the L1s change memory, the cores
and the count of free values alone (R356 to R368). -/

namespace Sys2Proof.Machine

/-- A state without what the memory system works on: memory, the cores, and the count of free values drawn. -/
def State.frame (s : State) : State := { s with mem := {}, cores := [], time := { s.time with free := 0 } }

@[simp] theorem State.withMem_frame (s : State) (m : MemState) : State.frame { s with mem := m } = s.frame := rfl
@[simp] theorem State.withCores_frame (s : State) (c : AMap CoreState) : State.frame { s with cores := c } = s.frame := rfl
@[simp] theorem State.withFree_frame (s : State) (n : Nat) : State.frame { s with time := { s.time with free := n } } = s.frame := rfl

section Homes
variable (s : State) (line a x die : Nat) (mask : BitVec 128) (data : BitVec 1024) (r : Request) (m : Msg)

@[simp] theorem State.setDir_frame (e : DirEntry) : (s.setDir line e).frame = s.frame := rfl
@[simp] theorem State.send_frame : (s.send m).frame = s.frame := rfl
@[simp] theorem State.putHome_frame : (s.putHome line mask data).frame = s.frame := rfl
@[simp] theorem State.setPeer_frame (st : BitVec 3) : (s.setPeer line st).frame = s.frame := rfl
@[simp] theorem State.dropSwitch_frame : (s.dropSwitch line).frame = s.frame := rfl
@[simp] theorem State.setWick_frame (w : Wick) : (s.setWick line w).frame = s.frame := rfl
@[simp] theorem State.setCoreAt_frame (c : CoreState) : (s.setCoreAt x c).frame = s.frame := rfl
@[simp] theorem State.setCore_frame (c : CoreState) : (s.setCore c).frame = s.frame := rfl
@[simp] theorem State.touch_frame : (s.touch line).frame = s.frame := by rw [State.touch]; split <;> rfl
@[simp] theorem State.shareSwitch_frame : (s.shareSwitch line).frame = s.frame := by rw [State.shareSwitch]; split <;> rfl
@[simp] theorem State.leaves_frame : (s.leaves line a).frame = s.frame := by rw [State.leaves]; split <;> rfl
@[simp] theorem State.unpoison_frame (c : Bool) : (s.unpoison line mask c).frame = s.frame := by rw [State.unpoison]; split <;> rfl
@[simp] theorem State.dropPeer_frame : (s.dropPeer line).frame = s.frame := by rw [State.dropPeer]; split <;> rfl

/-- A fold of operations that keep the frame keeps it. -/
theorem State.foldl_frame {α : Type} {f : State → α → State} (h : ∀ t b, (f t b).frame = t.frame) (l : List α) (s : State) :
    (l.foldl f s).frame = s.frame :=
  foldl_keeps (p := fun t : State => t.frame = s.frame) (fun t b ht => (h t b).trans ht) l rfl

@[simp] theorem State.beginService_frame (l : List Msg) : (s.beginService line r l).frame = s.frame :=
  (State.foldl_frame State.send_frame l _).trans rfl
@[simp] theorem State.merge_frame : (s.merge line).frame = s.frame :=
  State.foldl_frame (fun t b => State.putHome_frame t line _ _) (s.dirEntry line).holders s
@[simp] theorem State.performHome_frame (c : Bool) : (s.performHome line mask data c).frame = s.frame := by simp [State.performHome]
@[simp] theorem State.sendBack_frame : (s.sendBack line x).frame = s.frame := by
  rw [State.sendBack]
  split
  · simp
  · dsimp only; split <;> rfl
@[simp] theorem State.handBack_frame : (s.handBack line x).frame = s.frame := by
  rw [State.handBack]
  split <;> simp
@[simp] theorem State.trimL2_frame : (s.trimL2 die line).frame = s.frame := by
  rw [State.trimL2]
  split
  · rfl
  · dsimp only; split
    · rfl
    · split <;> simp
@[simp] theorem State.grantRead_frame : (s.grantRead line a).frame = s.frame := by simp [State.grantRead]
@[simp] theorem State.grantOwn_frame : (s.grantOwn line a mask data).frame = s.frame := by simp [State.grantOwn]
@[simp] theorem State.claimRead_frame : (s.claimRead line a mask).frame = s.frame := by
  unfold State.claimRead
  dsimp only
  split
  · rfl
  · split <;> simp
@[simp] theorem State.claimOwn_frame : (s.claimOwn line a mask data).frame = s.frame := by
  unfold State.claimOwn
  dsimp only
  split <;> simp
@[simp] theorem State.privatise_frame : (s.privatise line x a mask data).frame = s.frame := rfl
@[simp] theorem State.serveHeld_frame : (s.serveHeld line r).frame = s.frame := by
  unfold State.serveHeld
  rw [State.touch_frame]
  cases r <;> dsimp only <;> (repeat' split) <;> simp
@[simp] theorem State.serve_frame : (s.serve line r).frame = s.frame := by
  unfold State.serve
  dsimp only
  (repeat' split) <;> simp
@[simp] theorem State.wake_frame : (s.wake line).frame = s.frame := by
  rw [State.wake]
  split
  · rfl
  · exact (State.foldl_frame (fun t (e : Nat × Request) => State.serve_frame t e.1 e.2) _ _).trans rfl
theorem State.serves_frame (l : List Request) : (l.foldl (fun s r => s.serve line r) s).frame = s.frame :=
  State.foldl_frame (fun t r => State.serve_frame t line r) l s
@[simp] theorem State.endService_frame : (s.endService line).frame = s.frame := by
  simp [State.endService, State.serves_frame]
@[simp] theorem State.proceed_frame : (s.proceed line).frame = s.frame := by
  unfold State.proceed
  dsimp only
  split <;> simp [State.serves_frame]
@[simp] theorem State.onFwd_frame : (s.onFwd line x).frame = s.frame := by
  unfold State.onFwd
  dsimp only
  (repeat' split) <;> simp
@[simp] theorem State.onFwdData_frame (own : Bool) : (s.onFwdData line a data mask own).frame = s.frame := by
  unfold State.onFwdData
  dsimp only
  split <;> simp
@[simp] theorem State.gaveBack_frame : (s.gaveBack line x).frame = s.frame := by
  unfold State.gaveBack
  dsimp only
  (repeat' split) <;> simp
@[simp] theorem State.onWbData_frame (keep : Bool) : (s.onWbData line x data mask keep).frame = s.frame := by
  unfold State.onWbData
  dsimp only
  (repeat' split) <;> simp
@[simp] theorem State.onInv_frame : (s.onInv line a).frame = s.frame := by
  unfold State.onInv
  dsimp only
  (repeat' split) <;> simp
@[simp] theorem State.onData_frame : (s.onData line a).frame = s.frame := by
  simp only [State.onData]; split <;> rfl
@[simp] theorem State.onMsg_frame : (s.onMsg m).frame = s.frame := by
  cases m <;> simp [State.onMsg]
theorem State.takeMsg_frame {t : State} {p : Msg → Bool} (ht : s.takeMsg p = some (m, t)) : t.frame = s.frame := by
  unfold State.takeMsg at ht
  split at ht
  · cases ht; rfl
  · cases ht
@[simp] theorem State.settle_frame (n : Nat) : (State.settle n line s).frame = s.frame := by
  induction n generalizing s with
  | zero => rfl
  | succ n ih =>
    rw [State.settle]
    split
    · next h => rw [ih, State.onMsg_frame, State.takeMsg_frame _ _ h]
    · rfl
@[simp] theorem State.request_frame : (s.request line r).frame = s.frame := by simp [State.request]
@[simp] theorem State.homeDieRead_frame : (s.homeDieRead line mask).frame = s.frame := by
  unfold State.homeDieRead
  rw [State.touch_frame]
  dsimp only
  (repeat' split) <;> simp
@[simp] theorem State.fetchLine_frame : (s.fetchLine die line mask).1.frame = s.frame := by
  unfold State.fetchLine
  dsimp only
  (repeat' split) <;> simp
  exacts [rfl, rfl]
@[simp] theorem State.performWrite_frame : (s.performWrite die line mask data).frame = s.frame := by
  unfold State.performWrite
  dsimp only
  (repeat' split) <;> simp
@[simp] theorem State.physWrite_frame (pa n : Nat) : (s.physWrite pa n x).frame = s.frame := State.request_frame ..

end Homes

end Sys2Proof.Machine

/-! PROOFS. The work of the L1s and the wick (R216, R217, R231, R345 to R351), of tiles (R225 to R229), and of accesses (R265 to R275):
whatever it does, it changes no more than the homes do, and keeps memory in canonical form. -/

namespace Sys2Proof.Machine

/-- The memory system has worked: the frame stands, and memory in canonical form is so still. -/
structure State.Works (s t : State) : Prop where
  frame : t.frame = s.frame
  wf : s.memoryWf = true → t.memoryWf = true

namespace State.Works
variable {s t u : State}

theorem refl (s : State) : s.Works s := ⟨rfl, id⟩
theorem trans (h : s.Works t) (k : t.Works u) : s.Works u := ⟨k.frame.trans h.frame, fun w => k.wf (h.wf w)⟩

/-- What is read of the frame alone stays. -/
theorem of_frame {α : Type} (h : s.Works t) (f : State → α) (hf : ∀ u : State, f u.frame = f u := by intros; rfl) : f t = f s := by
  rw [← hf t, h.frame, hf s]

/-- A fold of operations that work. -/
theorem foldl {α : Type} {f : State → α → State} (hf : ∀ (t : State) (a : α), t.Works (f t a)) (l : List α) (s : State) : s.Works (l.foldl f s) :=
  foldl_keeps (p := fun t : State => s.Works t) (fun t a h => h.trans (hf t a)) l (refl s)

theorem setCoreAt (s : State) (k : Nat) (c : CoreState) : s.Works (s.setCoreAt k c) := ⟨rfl, id⟩
theorem withCores (s : State) (c : AMap CoreState) : s.Works { s with cores := c } := ⟨rfl, id⟩
/-- A change of what memory keeps beside its bytes. -/
theorem withMem (s : State) (m : MemState) (hb : m.bytes = s.mem.bytes) (hc : m.scratch = s.mem.scratch) :
    s.Works { s with mem := m } := ⟨rfl, fun h => (State.memoryWf_of_mem hb hc).trans h⟩
theorem putTlb (s : State) (g : Nat) (l : List TlbEntry) : s.Works (s.putTlb g l) := ⟨rfl, id⟩
theorem request (s : State) (line : Nat) (r : Request) : s.Works (s.request line r) := ⟨by simp, fun h => State.request_wf h ..⟩
theorem settle (s : State) (n line : Nat) : s.Works (State.settle n line s) := ⟨by simp, State.settle_wf line n⟩
theorem fetchLine (s : State) (die line : Nat) (mask : BitVec 128) : s.Works (s.fetchLine die line mask).1 :=
  ⟨by simp, fun h => State.fetchLine_wf h ..⟩
theorem homeDieRead (s : State) (line : Nat) (mask : BitVec 128) : s.Works (s.homeDieRead line mask) :=
  ⟨by simp, fun h => State.homeDieRead_wf h ..⟩
theorem performWrite (s : State) (die line : Nat) (mask : BitVec 128) (data : BitVec 1024) :
    s.Works (s.performWrite die line mask data) := ⟨by simp, fun h => State.performWrite_wf h ..⟩
theorem physWrite (s : State) (pa n x : Nat) : s.Works (s.physWrite pa n x) := ⟨by simp, fun h => State.physWrite_wf h ..⟩

/-! Tiles (R225 to R229). -/

theorem physWriteRun (s : State) (pa : Nat) (l : List Byte) : s.Works (s.physWriteRun pa l) := by
  unfold State.physWriteRun
  dsimp only
  split
  · exact refl s
  · exact foldl (fun t i => request t _ _) _ s
theorem spoil (s : State) (t : TileRef) (h : Header) : s.Works (s.spoil t h) := by
  unfold State.spoil
  split
  · exact refl s
  · exact withMem s _ rfl rfl
theorem materialise (s : State) (t : TileRef) (h : Header) : s.Works (s.materialise t h).1 := by
  unfold State.materialise
  split
  · exact refl s
  · exact (physWriteRun ..).trans (spoil ..)
theorem commitHeader (s : State) (t : TileRef) (h g : Header) : s.Works (s.commitHeader t h g) := by
  unfold State.commitHeader
  split
  · exact refl s
  · exact physWrite ..
theorem plainTile (s : State) (t : TileRef) : s.Works (s.plainTile t) := (materialise ..).trans (commitHeader ..)
theorem tileWrite (s : State) (t : TileRef) (pa n x : Nat) : s.Works (s.tileWrite t pa n x) :=
  ((materialise ..).trans (commitHeader ..)).trans (physWrite ..)
theorem retype (s : State) (t : TileRef) (h : Header) (ty : Nat) : s.Works (s.retype t h ty).1 :=
  (materialise s t h).trans (physWriteRun ..)
theorem compose (s : State) (t : TileRef) (h : Header) (m : ShadeMap) : s.Works (s.compose t h m).1 := by
  unfold State.compose
  split
  · exact refl s
  · exact (materialise s t h).trans (physWriteRun ..)

/-! The L1s (R216, R217, R231, R350, R377). -/

theorem setL1 (s : State) (core line : Nat) (x : L1Line) : s.Works (s.setL1 core line x) := setCoreAt ..
theorem dropL1 (s : State) (core line : Nat) : s.Works (s.dropL1 core line) := setCoreAt ..
theorem performLine (s : State) (core line : Nat) (x : L1Line) : s.Works (s.performLine core line x) :=
  (foldl plainTile _ s).trans (performWrite ..)
theorem writeBack (s : State) (core line : Nat) : s.Works (s.writeBack core line) := by
  unfold State.writeBack
  dsimp only
  split
  · exact refl s
  · exact ((performLine ..).trans (setL1 ..)).trans (withMem _ _ rfl rfl)
theorem purge (s : State) (core line : Nat) : s.Works (s.purge core line) := by
  unfold State.purge
  split
  · exact refl s
  · exact (writeBack ..).trans (dropL1 ..)
theorem writeBackAll (s : State) (core : Nat) (p : Nat → L1Line → Bool) : s.Works (s.writeBackAll core p) :=
  foldl (fun t (e : Nat × L1Line) => writeBack t core e.1) _ s
theorem plainLine (s : State) (line : Nat) (mask : BitVec 128) : s.Works (s.plainLine line mask) := foldl plainTile _ s
theorem leaderWrites (s : State) (g line : Nat) : s.Works (s.leaderWrites g line) := by
  unfold State.leaderWrites
  split
  · exact writeBack ..
  · exact refl s
theorem selfInvalidate (s : State) (core : Nat) : s.Works (s.selfInvalidate core) :=
  (foldl (fun t (e : Nat × Nat) => leaderWrites t e.1 e.2) _ s).trans (setCoreAt ..)
theorem dropAliases (s : State) (core line : Nat) (virt : Nat × Nat) : s.Works (s.dropAliases core line virt) :=
  foldl (fun t c => purge t c line) _ s
theorem makeRoom (s : State) (core line : Nat) (keep : List Nat) : s.Works (s.makeRoom core line keep) := by
  unfold State.makeRoom
  dsimp only
  split
  · exact refl s
  · split
    · exact purge ..
    · exact refl s
theorem fullUp (s : State) (core : Nat) : s.Works (s.fullUp core) := by
  unfold State.fullUp
  dsimp only
  split
  · split
    · exact writeBack ..
    · exact refl s
  · split
    · exact setCoreAt ..
    · exact refl s
theorem setWick (s : State) (line : Nat) (w : Wick) : s.Works (s.setWick line w) := ⟨rfl, id⟩
theorem demand (s : State) (line : Nat) (w : Wick) : s.Works (s.demand line w) := by
  unfold State.demand
  dsimp only
  split
  · exact ((writeBackAll ..).trans (foldl (fun t l => settle t 64 l) _ _)).trans (setWick ..)
  · exact (writeBackAll ..).trans (foldl (fun t l => settle t 64 l) _ _)
theorem recordWick (s : State) (core line : Nat) : s.Works (s.recordWick core line) := by
  unfold State.recordWick
  dsimp only
  split
  · split
    · split
      · exact setCoreAt ..
      · exact (setCoreAt ..).trans (demand ..)
    · exact setCoreAt ..
  · exact refl s
theorem fillLine (s : State) (core line : Nat) (virt : Nat × Nat) (tile : Option TileRef) (need : BitVec 128) (keep : List Nat) :
    s.Works (s.fillLine core line virt tile need keep) :=
  ((((dropAliases s core line virt).trans (makeRoom _ core line keep)).trans (fetchLine _ (core / 72) line need)).trans
    (setL1 ..)).trans (recordWick ..)
theorem dropTile (s : State) (core : Nat) (t : TileRef) : s.Works (s.dropTile core t) :=
  (foldl (fun t l => purge t core l) _ s).trans (setCoreAt ..)
theorem takeHeaders (s : State) (core : Nat) (t : TileRef) : s.Works (s.takeHeaders core t) := setCoreAt ..
theorem dropTileAliases (s : State) (core asid : Nat) (t : TileRef) : s.Works (s.dropTileAliases core asid t) := by
  refine foldl (fun u c => ?_) _ s
  split
  · exact foldl (fun v (e : Nat × L1Line) => purge v c.1 e.1) _ u
  · exact refl u
theorem dropTileShadows (s : State) (core : Nat) (t : TileRef) : s.Works (s.dropTileShadows core t) := by
  unfold State.dropTileShadows
  dsimp only
  split
  · exact refl s
  · exact (foldl (fun t (e : Nat × Nat) => leaderWrites t e.1 e.2) _ s).trans (setCoreAt ..)
theorem fillTile (s : State) (core asid : Nat) (t : TileRef) (o n : Nat) (keep : List Nat) :
    s.Works (s.fillTile core asid t o n keep) := by
  unfold State.fillTile
  split
  · exact refl s
  · dsimp only
    have h1 : s.Works (if t.mates.any (s.stale core) then s.dropTile core t else s) := by
      split
      · exact dropTile ..
      · exact refl s
    have h2 := h1.trans (dropTileAliases _ core asid t)
    generalize State.dropTileAliases _ core asid t = u at h2 ⊢
    have h3 : u.Works (if (u.header t.header).identity then u else u.dropTileShadows core t) := by
      split
      · exact refl u
      · exact dropTileShadows ..
    refine ((h2.trans h3).trans (takeHeaders ..)).trans (foldl (fun v k => ?_) _ _)
    split
    · exact refl v
    · exact fillLine ..
theorem dropClean (s : State) (core : Nat) (t : TileRef) : s.Works (s.dropClean core t) := setCoreAt ..
theorem dropRead (s : State) (core : Nat) (tile : Option TileRef) (pa n : Nat) : s.Works (s.dropRead core tile pa n) := by
  unfold State.dropRead
  split
  · split
    · exact refl s
    · exact dropClean ..
  · split
    · exact setL1 ..
    · exact refl s
theorem l1Write (s : State) (core : Nat) (virt : Nat × Nat) (tile : Option TileRef) (owner : Option Nat) (keep : List Nat)
    (pa n x : Nat) : s.Works (s.l1Write core virt tile owner keep pa n x) := by
  unfold State.l1Write
  dsimp only
  have h := (dropAliases s core (pa / 128) virt).trans (makeRoom _ core (pa / 128) keep)
  split
  · exact (h.trans (writeBack ..)).trans (setL1 ..)
  · exact h.trans (setL1 ..)
theorem homeWrite (s : State) (tile : Option TileRef) (pa n x : Nat) : s.Works (s.homeWrite tile pa n x) := by
  unfold State.homeWrite
  split
  · exact tileWrite ..
  · exact physWrite ..
theorem demandLine (s : State) (core line : Nat) : s.Works (s.demandLine core line) := by
  unfold State.demandLine
  dsimp only
  split
  · exact demand ..
  · exact refl s
theorem newEpoch (s : State) (core : Nat) : s.Works (s.newEpoch core) := by
  unfold State.newEpoch
  dsimp only
  split
  · exact (setCoreAt ..).trans (withMem _ _ rfl rfl)
  · exact setCoreAt ..
theorem beforeHome (s : State) (core line : Nat) : s.Works (s.beforeHome core line) := (demandLine ..).trans (withCores ..)
theorem nameWick (s : State) (core line : Nat) : s.Works (s.nameWick core line) := (setCoreAt ..).trans (setWick ..)
theorem writeBackDirty (s : State) (core : Nat) : s.Works (s.writeBackDirty core) := writeBackAll ..
theorem acquireAt (s : State) (scope : Nat) (lines : List Nat) : s.Works (s.acquireAt scope lines) := by
  unfold State.acquireAt
  dsimp only
  split
  · exact refl s
  · have h := foldl (fun t l => demandLine t s.coreId l) (lines.filter fun l => kindOf (128 * l) == 0) s
    split
    · exact h.trans (selfInvalidate ..)
    · exact h
theorem acquireRecorded (s : State) : s.Works s.acquireRecorded :=
  ((foldl (fun t (e : Nat × Wick) => demand t e.1 e.2) _ s).trans (setCoreAt ..)).trans (selfInvalidate ..)

end State.Works

end Sys2Proof.Machine

/-! PROOFS. A step of an issue slot (R78, R79, R104 to R109, R141). -/

namespace Sys2Proof.Machine

/-- What beginning an issue leaves as it was: who executes, its program counter, and everything above the group. -/
structure State.Follows (s t : State) : Prop where
  gid : t.gid = s.gid
  slot : t.slot = s.slot
  pc : t.spl.pc = s.spl.pc
  clusters : t.clusters = s.clusters
  grids : t.grids = s.grids

namespace State.Follows
variable {s t u : State}

theorem refl (s : State) : State.Follows s s := ⟨rfl, rfl, rfl, rfl, rfl⟩
theorem trans (h : State.Follows s t) (k : State.Follows t u) : State.Follows s u :=
  ⟨k.gid.trans h.gid, k.slot.trans h.slot, k.pc.trans h.pc, k.clusters.trans h.clusters, k.grids.trans h.grids⟩

theorem grid (h : State.Follows s t) : t.grid = s.grid := by
  simp [State.grid, State.gridAt, State.gridId, State.cluster, State.clusterAt, State.clusterId, h.gid, h.clusters, h.grids]

/-- A word is accepted or not by the kernel alone. -/
theorem accepted (h : State.Follows s t) (w : Word) : t.accepted w = s.accepted w := by
  simp [State.accepted, h.grid]

theorem setSplitAt (s : State) (k : Nat) (x : Split) (h : k = s.slot → x.pc = s.spl.pc) : State.Follows s (s.setSplitAt k x) := by
  refine ⟨rfl, rfl, ?_, rfl, rfl⟩
  simp only [State.spl, State.setSplitAt_splitAt, State.setSplitAt_slot]
  split
  · next hk => exact h hk.symm
  · rfl

theorem release (s : State) (k : Nat) : State.Follows s (s.release k) := by
  have h := setSplitAt s k { s.splitAt k with demo := { (s.splitAt k).demo with
    held := false, set := 0, released := some s.time.releases } } (fun e => by rw [e]; rfl)
  exact ⟨h.gid, h.slot, h.pc, h.clusters, h.grids⟩

theorem foldl {α : Type} (l : List α) (f : State → α → State) (h : ∀ t a, State.Follows t (f t a)) (s : State) :
    State.Follows s (l.foldl f s) := by
  induction l generalizing s with
  | nil => exact refl s
  | cons a l ih => exact (h s a).trans (ih (f s a))

theorem leaveHolds (s : State) (gone : BitVec 4) : State.Follows s (s.leaveHolds gone) := by
  refine foldl _ _ (fun t k => ?_) s
  dsimp only
  split
  · split
    · exact release t k
    · exact setSplitAt t k _ (fun e => by rw [e]; rfl)
  · exact refl t

/-- The memory system leaves all of it. -/
theorem of_works (h : s.Works t) : State.Follows s t :=
  ⟨h.of_frame State.gid, h.of_frame State.slot, h.of_frame fun u => u.spl.pc, h.of_frame State.clusters, h.of_frame State.grids⟩

theorem setGrp (s : State) (g : Group) (h : g.ctx.splits = s.grp.ctx.splits) : State.Follows s (s.setGrp g) :=
  ⟨rfl, rfl, by simp [State.spl, State.splitAt, h], rfl, rfl⟩

theorem setRegs (s : State) (r : Regs) : State.Follows s (s.setRegs r) := ⟨rfl, rfl, by simp, rfl, rfl⟩
theorem withTime (s : State) (c : Clockwork) : State.Follows s { s with time := c } := ⟨rfl, rfl, rfl, rfl, rfl⟩

theorem acquireResumed (s : State) : State.Follows s s.acquireResumed := by
  unfold State.acquireResumed
  split
  · exact Follows.trans (setGrp s { s.grp with resumed := false } rfl) (of_works (.selfInvalidate ..))
  · exact refl s

theorem beginIssue (s : State) (stall : Nat) : State.Follows s (s.beginIssue stall) := by
  unfold State.beginIssue
  refine ((acquireResumed s).trans (leaveHolds _ (slotBit s.slot))).trans ?_
  generalize s.acquireResumed.leaveHolds (slotBit s.slot) = t
  dsimp only
  split
  · exact (withTime t _).trans (setSplitAt t.atIssue t.slot _ fun _ => rfl)
  · refine Follows.trans ?_ (setRegs _ _)
    exact (withTime t _).trans (setSplitAt t.atIssue t.slot _ fun _ => rfl)

end State.Follows

section Decoded
variable {s : State} {w : Word} {i : Instr}

/-- The bytes of a word read back in order are the word. -/
theorem decodeBytes_wordBytes (w : Word) :
    decodeBytes (wordBytes w) = match decode w with
      | .ok i => .ok (i, [])
      | .error r => .error r := by
  have h : (w.extractLsb' 24 8 ++ w.extractLsb' 16 8 ++ w.extractLsb' 8 8 ++ w.extractLsb' 0 8 : BitVec 32) = w := by
    ext k hk
    simp only [BitVec.getElem_append, BitVec.getElem_extractLsb']
    grind
  simp only [decodeBytes, wordBytes, h] <;> rfl

theorem State.accepted_eq_some : s.accepted w = some i ↔
    decodeBytes (wordBytes w) = .ok (i, []) ∧ inRegs i s.grid.kernel.regs = true := by
  rw [decodeBytes_wordBytes, State.accepted]
  cases decode w with
  | ok j => grind
  | error r => simp

theorem State.accepted_eq_none : s.accepted w = none ↔
    ∀ i, decodeBytes (wordBytes w) = .ok (i, []) → inRegs i s.grid.kernel.regs = false := by
  rw [Option.eq_none_iff_forall_ne_some]
  refine forall_congr' fun i => ?_
  rw [ne_eq, State.accepted_eq_some, not_and, Bool.not_eq_true]

/-- The word that the four bytes at an address hold is what a read of them returns. -/
theorem physRead_of_wordBytes {pa : Nat} (h : wordBytes w = (List.range 4).map fun j => s.coherentByte (pa + j)) :
    BitVec.ofNat 32 (s.physRead pa 4) = w := by
  obtain ⟨h0, h1, h2, h3⟩ : w.extractLsb' 0 8 = s.coherentByte (pa + 0) ∧ w.extractLsb' 8 8 = s.coherentByte (pa + 1) ∧
      w.extractLsb' 16 8 = s.coherentByte (pa + 2) ∧ w.extractLsb' 24 8 = s.coherentByte (pa + 3) := by
    simpa [wordBytes, List.range_succ] using h
  apply BitVec.eq_of_toNat_eq
  simp only [State.physRead, List.range_succ, List.range_zero, List.nil_append, List.cons_append, List.foldr_cons, List.foldr_nil,
    ← h0, ← h1, ← h2, ← h3, BitVec.toNat_ofNat, BitVec.extractLsb'_toNat, Nat.shiftRight_eq_div_pow]
  have := w.isLt
  omega

/-- A fetch outside the code pages, or where no leaf maps the address, is not one that poison refuses. -/
theorem State.fetchRefused_of_outside {pc : Addr} (h : s.grid.codePage pc.toNat = false ∨ s.leafOf pc.toNat = none) :
    s.fetchRefused pc = false := by
  rcases h with h | h <;> simp [State.fetchRefused, h]

end Decoded

section Issue
variable {s : State} {k g slot : Nat}

/-- The state in which a chosen split issues: the slots passed over and the splits not chosen have aged (R112). -/
def State.chosen (s : State) (k g slot : Nat) : State :=
  let passed := s.skipSlots fun j => decide (s.time.turn ≤ j) && decide (j < k)
  let grown := passed.grow (k / 4) (k % 4) (g, slot)
  ({ grown with time := { grown.time with turn := k + 1 } } : State).at_ g slot

/-- A step without an event is the issue of the chosen split. -/
theorem step_chosen (hn : s.events = []) (hk : s.nextIssue (s.groups.length + 1) s.time.turn = some (k, g, slot)) :
    step s = match (s.chosen k g slot).issue exec with
      | .next t => .next t.afterIssue
      | o => o := by
  rw [step, hn]
  simp only [State.advance, hk]
  rfl

/-- The group settles after an issue that goes on. -/
theorem step_of_issue {t : State} (hn : s.events = []) (hk : s.nextIssue (s.groups.length + 1) s.time.turn = some (k, g, slot))
    (h : (s.chosen k g slot).issue exec = .next t) : step s = .next t.afterIssue := by
  rw [step_chosen hn hk, h]

theorem step_of_issue_fault {e : Fault} (hn : s.events = [])
    (hk : s.nextIssue (s.groups.length + 1) s.time.turn = some (k, g, slot)) (h : (s.chosen k g slot).issue exec = .fault e) :
    step s = .fault e := by
  rw [step_chosen hn hk, h]

end Issue

section Tested
variable {s : State} {w : Word} {i : Instr} {run : Instr → State → Out}

theorem State.issue_decoded (hw : s.spl.word = some w) (hi : s.accepted w = some i) :
    s.issue run = ((s.beginIssue (stallOf w)).noteSolid w).tested i run := by
  have h : s.wordAt s.slot = some w := hw
  simp only [State.issue, h, hi]

theorem State.issue_rejected (hw : s.spl.word = some w) (hi : s.accepted w = none) :
    s.issue run = (s.beginIssue (stallOf w)).raise 0x01 := by
  have h : s.wordAt s.slot = some w := hw
  have hb := ((State.Follows.beginIssue s (stallOf w)).accepted w).trans hi
  simp only [State.issue, h, hi, execIllegalInstruction, hb, Option.isNone_none, if_true]

theorem State.issue_outside (hw : s.spl.word = none) (h : s.grid.codePage s.spl.pc.toNat = false ∨ s.leafOf s.spl.pc.toNat = none) :
    s.issue run = (s.beginIssue 0).raise 0x07 s.spl.pc := by
  have hn : s.wordAt s.slot = none := hw
  simp only [State.issue, hn, State.fetchRefused_of_outside h, (State.Follows.beginIssue s 0).pc]
  rfl

theorem State.tested_forced (h : s.compareDue = true) : s.tested i run = s.compareForced := if_pos h

theorem State.tested_block (h : s.compareDue = false) (hb : s.blockFits i = false) : s.tested i run = s.raise 0x01 := by
  simp [State.tested, h, hb]

/-- The safe-point bound stops a split at an instruction other than `safe`, outside a handler (R443). -/
def State.late (s : State) (i : Instr) : Prop := 4096 ≤ s.spl.dist ∧ s.handlerMode = false ∧ isSafe i = false

theorem State.late_iff : (decide (Config.safeBound ≤ s.spl.dist) && !s.handlerMode && !isSafe i) = true ↔ s.late i := by
  rw [Bool.and_eq_true, Bool.and_eq_true, decide_eq_true_eq, Bool.not_eq_true', Bool.not_eq_true', and_assoc]
  rfl

theorem State.tested_late (h : s.compareDue = false) (hb : s.blockFits i = true) (hl : s.late i) :
    s.tested i run = s.raise 0x0A := by
  rw [State.tested, h, hb, State.late_iff.mpr hl]
  rfl

theorem State.tested_early (h : s.compareDue = false) (hb : s.blockFits i = true) (hl : ¬s.late i) (he : s.early i = true) :
    s.tested i run = s.raise 0x03 := by
  rw [State.tested, h, hb, Bool.eq_false_iff.mpr (mt State.late_iff.mp hl), he]
  rfl

theorem State.tested_passed (h : s.compareDue = false) (hb : s.blockFits i = true) (hl : ¬s.late i) (he : s.early i = false) :
    s.tested i run = run i s := by
  rw [State.tested, h, hb, Bool.eq_false_iff.mpr (mt State.late_iff.mp hl), he]
  rfl

/-! What a replica keeps plays no part in what its instruction reads. -/

@[simp] theorem State.setRepl_nowV (s : State) (r : Replica) : (s.setRepl r).nowV = s.nowV := by
  funext n l; simp [State.nowV, State.readReg, State.freeIndex]
@[simp] theorem State.setRepl_nowG (s : State) (r : Replica) : (s.setRepl r).nowG = s.nowG := by
  funext n; simp [State.nowG, State.readReg, State.freeIndex]
@[simp] theorem State.setRepl_nowP (s : State) (r : Replica) : (s.setRepl r).nowP = s.nowP := by
  funext n
  simp only [State.nowP, State.readReg, State.freeIndex]
  rw [State.setRepl_grp, State.setRepl_regs]
  rfl
@[simp] theorem State.setRepl_nowQ (s : State) (r : Replica) : (s.setRepl r).nowQ = s.nowQ := by
  funext n; simp [State.nowQ, State.readReg, State.freeIndex]
@[simp] theorem State.setRepl_asRead (s : State) (r : Replica) : (s.setRepl r).asRead = s.asRead := by
  simp only [State.asRead, State.setRepl_nowV, State.setRepl_nowG, State.setRepl_nowP, State.setRepl_nowQ, State.setRepl_grp,
    State.setRepl_regs]
@[simp] theorem State.setRepl_spl (s : State) (r : Replica) : (s.setRepl r).spl = s.spl := by
  simp [State.spl, State.splitAt]

/-- A forced compare leaves its split waiting for the compare, with the forced mark set (R375, R381). -/
theorem State.compareForced_eq (s : State) :
    ∃ t, s.compareForced = .next t ∧ t.spl = (s.waitFor .compare).spl ∧ t.grp.repl.forced = true := by
  refine ⟨(s.setRepl { s.grp.repl.fold with
    sent := some (s.grp.repl.closed forcedRecord), forced := true, since := s.time.cycle }).waitFor .compare, rfl, ?_, ?_⟩
  · simp only [State.waitFor, State.setSpl_spl, State.setRepl_spl, State.setRepl_asRead]
  · simp [State.waitFor]

/-- A fetch from a code page that may be read brings the word that stands there. -/
theorem State.fetch_eq {pc : Addr} {leaf : Leaf} (hc : s.grid.codePage pc.toNat = true) (hl : s.leafOf pc.toNat = some leaf)
    (hr : leaf.rd = true) (hp : s.poisoned (leaf.phys pc.toNat / 128) = false)
    (hw : wordBytes w = (List.range 4).map fun j => s.coherentByte (leaf.phys pc.toNat + j)) : s.fetch pc = some w := by
  simp [State.fetch, hc, hl, hr, hp, physRead_of_wordBytes hw]

end Tested

/-- Settles O3: the chosen split's word goes through the tests of R106 in order; beginning the issue leaves the kernel and the
program counter, so that the word is accepted after it as before. -/
theorem stepRunsDecoded : Obligations.StepRunsDecoded := by
  refine ⟨fun s k g slot => ?_, fun s g slot leaf w => ?_⟩
  · intro passed grown turned u x traps hn hk
    have hu : s.chosen k g slot = u := rfl
    have go {t : State} (h : u.issue exec = .next t) : step s = .next t.afterIssue := step_of_issue hn hk h
    refine ⟨fun w hw => ?_, fun hw hout => go (State.issue_outside hw hout)⟩
    intro begun
    refine ⟨fun i hd hr => ?_, fun hno => go (State.issue_rejected hw (State.accepted_eq_none.mpr hno))⟩
    intro v late
    have hi : u.issue exec = v.tested i exec := State.issue_decoded hw (State.accepted_eq_some.mpr ⟨hd, hr⟩)
    refine ⟨fun hc => ?_, fun hc hb => ?_, fun hc hb => ⟨fun hl => ?_, fun hl he => ?_, fun hl he => ⟨fun t ht => ?_, fun e ht => ?_⟩⟩⟩
    · obtain ⟨t, ht, hs, hf⟩ := v.compareForced_eq
      exact ⟨t, ht, hs, hf, go (hi.trans ((State.tested_forced hc).trans ht))⟩
    · exact go (hi.trans (State.tested_block hc hb))
    · exact go (hi.trans (State.tested_late hc hb hl))
    · exact go (hi.trans (State.tested_early hc hb hl he))
    · exact go (hi.trans ((State.tested_passed hc hb hl he).trans ht))
    · exact step_of_issue_fault hn hk (hi.trans ((State.tested_passed hc hb hl he).trans ht))
  · intro t x hl hw hwait hc hleaf hr hp hb
    change execInstructionFetch g slot s = _
    have hf : (s.at_ g slot).fetch (s.at_ g slot).spl.pc = some w := State.fetch_eq hc hleaf hr hp hb
    have hno : (!(s.at_ g slot).spl.live || (s.at_ g slot).spl.word.isSome || (s.at_ g slot).spl.wait.isSome) = false := by
      simp [show (s.at_ g slot).spl.live = true from hl, show (s.at_ g slot).spl.word = none from hw,
        show (s.at_ g slot).spl.wait = none from hwait]
    simp only [execInstructionFetch, hno, hf]
    rfl

end Sys2Proof.Machine

/-! PROOFS. Poison that a write-back spreads (R227, R371, log 50): the statements that leave out what materialising a tile does to lines
whose bytes its view takes from a poisoned one. -/

namespace Sys2Proof.Machine

/-- A plain page at physical 0x100000, and a page of tiles of 32 KiB at the same place. -/
def plainLeaf : Leaf := { valid := true, rd := true, wr := true, pa := 0x100000 }
def tiledLeaf : Leaf := { plainLeaf with tiled := true, tcls := 10, hframe := 0x400000 }
/-- The first two tiles of the second, of type i8 under identity shades. -/
def firstTile : TileRef := { header := 0x400000, base := 0x100000, cls := 10, va := 0x30000 }
def secondTile : TileRef := { header := 0x400020, base := 0x108000, cls := 10, va := 0x38000 }
def plainShade : Header := (Header.ofBits (5 <<< 130)).toIdentity
/-- A tile of lines 0x2007 and 0x2008, its header elsewhere; the shade that exchanges them. -/
def twoLines : TileRef := { header := 0x300000, base := 0x100380, cls := 3, va := 0 }
def exchanging : Header := { plainShade with xor := 128 }
/-- A header in memory. -/
def State.withHeaderAt (s : State) (pa : Nat) (h : Header) : State :=
  let bytes := (List.range 32).foldl (fun m k => Store.set m (pa + k) (BitVec.ofNat 8 (h.bits >>> (8 * k)))) s.mem.bytes
  { s with mem := { s.mem with bytes := bytes } }

/-- One group on core 0, of whose split lane 0 is active, with some group registers from g1 on; the plain page at 0x20000 and the page
of tiles at 0x30000. The L1 holds a dirty byte of line 0x2007, under another address and as part of `twoLines`, whose shade exchanges
its two lines; line 0x2008 is poisoned. The core also keeps a verified shadow of the line for the group. -/
def spoiling (l : List DWord) : State :=
  let s := State.reset.placeProgram.at_ 0 0
  let s := s.setGrid { s.grid with
    ranges := [{ base := 0x20000, len := 0x20000, rights := 3 }], trans := AMap.set (AMap.set s.grid.trans 2 plainLeaf) 3 tiledLeaf }
  let s := s.putTlb 0 [{ grid := 0, page := 2, leaf := plainLeaf }, { grid := 0, page := 3, leaf := tiledLeaf }]
  let s := s.setCore { s.core with
    l1 := [(0x2007, { valid := 1, dirty := 1, virt := (9, 9), tile := some twoLines })], shadows := [(0, [(0x2007, { verified := true })])] }
  let s := s.setRegs ((l.zipIdx 1).foldl (fun r e => r.setG e.2 e.1) s.regs)
  let s := s.setSpl { s.spl with mask := 1 }
  let s := ((s.withHeaderAt 0x300000 exchanging).withHeaderAt 0x400000 plainShade).withHeaderAt 0x400020 plainShade
  { s with mem := { s.mem with poison := [0x2008] } }

/-- Does an outcome lead to a state in which line 0x2007 is poisoned? -/
def spoilsLine (o : Out) : Bool :=
  match o with
  | .next t => t.mem.poison.contains 0x2007
  | _ => false

theorem spoilsLine_next {o : Out} {t : State} (h : spoilsLine o = true) (ht : o = .next t) : 0x2007 ∈ t.mem.poison := by
  subst ht
  exact List.contains_iff_mem.mp h

/-- An instruction that completes as `completesMem` says poisons no line. -/
theorem State.completesMem.poison {s t : State} {y : Split} {w : Writes} {L S : Nat → Bool} (h : s.completesMem t y w L S) :
    ∀ k ∈ t.mem.poison, k ∈ s.mem.poison := h.1.poison

/-- With the address of line 0x2007 in g1. -/
def spoilingAt : State := spoiling [0x20380]
theorem spoilingAt_sound : 0x2007 ∉ spoilingAt.mem.poison := by decide +kernel

/-- Refutes O39: a load whose line the L1 holds under another address first writes that back (R217); the tile that the line is part of
is materialised (R227), and poison spreads to the line (log 50). -/
theorem not_loads : ¬ Obligations.Loads := by
  unfold Obligations.Loads
  intro h
  have hg := (h spoilingAt 0 0 0 3 1 2).2
  have clear : spoilingAt.accessClear 8 .read anyTarget false false [spoilingAt.groupAddr 1 2] := by
    unfold State.accessClear
    and_intros <;> decide +kernel
  obtain ⟨t, v, ht, -, -, -, hm⟩ := hg clear (by decide +kernel)
  exact spoilingAt_sound (hm.poison _ (spoilsLine_next (by decide +kernel) ht))

/-- Refutes O40: `ld.sys` gives its copy of the line up, with the same effect. -/
theorem not_homeReads : ¬ Obligations.HomeReads := by
  unfold Obligations.HomeReads
  intro h
  have hg := (h spoilingAt 0 2 3 1 (.ldSys 0 2 1 3, 8, 2, false) (by simp)).2
  have clear : spoilingAt.accessClear 8 .read anyTarget true true (spoilingAt.activeLanes.map fun l => spoilingAt.laneAddr 1 3 l) := by
    unfold State.accessClear
    and_intros <;> decide +kernel
  obtain ⟨t, x, ht, -, -, -, hm⟩ := hg (by decide +kernel) (fun _ => by decide +kernel) clear
  have hp : 0x2007 ∈ t.mem.poison := spoilsLine_next (by decide +kernel) ht
  exact spoilingAt_sound (hm.poison _ hp)

/-- Refutes O41: a store to a line that the L1 holds under another address (R217). -/
theorem not_stores : ¬ Obligations.Stores := by
  unfold Obligations.Stores
  intro h
  have hg := (h spoilingAt 0 2 3 3 1 2 (.gst 0 3 1 2, 8, 2, true) (by simp)).2
  have clear : spoilingAt.accessClear 8 .write anyTarget false false [spoilingAt.groupAddr 1 2] := by
    unfold State.accessClear
    and_intros <;> decide +kernel
  obtain ⟨t, ht, hm, -⟩ := (hg (by simp) (by decide +kernel) clear (by decide +kernel)).1 (by decide +kernel)
  exact spoilingAt_sound (hm.poison _ (spoilsLine_next (by decide +kernel) ht))

/-- Refutes O42: `st.sys` gives its copy of the line up. -/
theorem not_homeStores : ¬ Obligations.HomeStores := by
  unfold Obligations.HomeStores
  intro h
  have hg := h spoilingAt 0 2 3 1 (.stSys 0 2 1 3, 8, 2, true) (by simp)
  have clear : spoilingAt.accessClear 8 .write anyTarget (true || spoilingAt.spl.rel.isSome) true
      ((spoilingAt.activeLanes.map fun x => (spoilingAt.laneAddr 1 3 x, spoilingAt.readBlock 2 2 x % 2 ^ (8 * 8))).map Prod.fst) := by
    unfold State.accessClear
    and_intros <;> decide +kernel
  obtain ⟨t, ht, hm, -⟩ := hg (by decide +kernel) (by decide +kernel) (by decide +kernel) (.inl rfl) clear
    (fun hr => absurd hr (by decide +kernel)) (fun hf => absurd hf (by decide))
  exact spoilingAt_sound (hm.poison _ (spoilsLine_next (by decide +kernel) ht))

/-- Refutes O43: an atomic gives its core's copy of the line up. -/
theorem not_atomics : ¬ Obligations.Atomics := by
  unfold Obligations.Atomics
  intro h
  have hg := (h spoilingAt 0 0 4 1 3 0 (.atomAdd 0 0 0 4 1 3, 4, 1, 1, 0, fun old x => some ((old + x) % 2 ^ 32)) (by simp)).2
  have clear : spoilingAt.accessClear 4 .both (spoilingAt.atomicAllowed 0) true true
      ((spoilingAt.activeLanes.map fun x => (spoilingAt.laneAddr 1 3 x, spoilingAt.readBlock 4 1 x)).map Prod.fst) := by
    unfold State.accessClear
    and_intros <;> decide +kernel
  have rel : spoilingAt.releaseClear (spoilingAt.releaseScope (ordRelease 0)).isSome (spoilingAt.places .both
      ((spoilingAt.activeLanes.map fun x => (spoilingAt.laneAddr 1 3 x, spoilingAt.readBlock 4 1 x)).map Prod.fst)) := by
    unfold State.releaseClear
    and_intros <;> decide +kernel
  obtain ⟨t, ht, hm, -⟩ := hg (by decide +kernel) (by decide +kernel) (by decide +kernel) (by decide +kernel) (by decide +kernel)
    clear rel (by decide +kernel)
  exact spoilingAt_sound (hm.poison _ (spoilsLine_next (by decide +kernel) ht))

/-- Refutes O45: `fence.ar` writes its core's dirty bytes back. -/
theorem not_fencesAndScopes : ¬ Obligations.FencesAndScopes := by
  unfold Obligations.FencesAndScopes
  intro h
  have hg := (h spoilingAt 0 2 3 0 0 0 0 0).1
  obtain ⟨t, ht, hm, -⟩ := hg (.inl (by decide +kernel)) (fun _ => by decide +kernel) (fun _ _ => by decide +kernel)
  exact spoilingAt_sound (hm.poison _ (spoilsLine_next (by decide +kernel) ht))

/-- Refutes O46: an arrival at a cluster barrier releases, and writes its core's dirty bytes back. -/
theorem not_barrierArrivals : ¬ Obligations.BarrierArrivals := by
  unfold Obligations.BarrierArrivals
  intro h
  obtain ⟨-, -, hg⟩ := h spoilingAt 0 2 0
  obtain ⟨u, c, hu, hs, -⟩ := hg (by decide +kernel) (by decide +kernel) (by decide +kernel) (.inl (by decide +kernel))
    (by decide +kernel) (by decide +kernel)
  exact spoilingAt_sound (hs.poison _ (spoilsLine_next (t := (u.setBarrier 2 0 c).retire) (by decide +kernel) hu))

/-- Refutes O47: a member that ends the phase of a cluster barrier acquires; a verified shadow that goes has the leader's core write
its copy of the line back first (R377). -/
theorem not_barrierWaits : ¬ Obligations.BarrierWaits := by
  unfold Obligations.BarrierWaits
  intro h
  obtain ⟨-, hg, -⟩ := h spoilingAt 0 2 0 0
  obtain ⟨-, -, hb⟩ := hg (by decide +kernel) (by decide +kernel) (by decide +kernel)
  obtain ⟨u, hu, hs, -⟩ := (hb (by decide +kernel) (by decide +kernel) (by decide +kernel) (by decide +kernel) (by decide +kernel)
    (by decide +kernel) (by decide +kernel) (by decide +kernel)).1 (by decide +kernel)
  rw [if_pos rfl] at hu
  exact spoilingAt_sound (hs.poison _ (spoilsLine_next (t := (u.setBarrier 2 0 _).retire) (by decide +kernel) hu))

/-- Refutes O48: setting the ready mark of a tile writes the core's lines of it back. -/
theorem not_tileMarks : ¬ Obligations.TileMarks := by
  unfold Obligations.TileMarks
  intro h
  obtain ⟨-, -, hg⟩ := h (spoiling [0x30000]) 0 1 tiledLeaf 0x30000 0x100000 firstTile
  obtain ⟨hm, -⟩ := hg (by decide +kernel) (by decide +kernel) (by decide +kernel) (by decide +kernel) (by decide +kernel)
  obtain ⟨t, ht, hc, -⟩ := (hm (by decide +kernel) (by decide +kernel) (by decide +kernel) (by decide +kernel)).2 (by decide +kernel)
    (by decide +kernel)
  exact spoilingAt_sound (hc.poison _ (spoilsLine_next (by decide +kernel) ht))

/-- In deterministic mode, its wait for the first serial phase over. -/
def spoilingPeriod : State :=
  let s := spoilingAt.setGrid { spoilingAt.grid with launch := { spoilingAt.grid.launch with det := true } }
  s.setSpl { s.spl with wait := some (.period 0) }

/-- Refutes O49: a `dsync` whose wait is over acquires, and the leader's core writes back the line of a verified shadow (R377). -/
theorem not_clocksAndTokens : ¬ Obligations.ClocksAndTokens := by
  unfold Obligations.ClocksAndTokens
  intro h
  obtain ⟨-, -, ⟨-, -, -, -, hg⟩, -⟩ := h spoilingPeriod 0 0
  obtain ⟨t, ht, hm, -⟩ := hg 0 (by decide +kernel) (.inl (by decide +kernel))
  exact spoilingAt_sound (hm.poison _ (spoilsLine_next (by decide +kernel) ht))

/-- With command 1 of context 0 performed, and 1 in g1. -/
def spoilingTimeline : State := (spoiling [1]).setCtx 0 { counter := 1, issued := 1 }

/-- Refutes O51: a `tlw` whose number has been reached acquires, and the leader's core writes back the line of a verified shadow
(R377). -/
theorem not_timelinesAndPriority : ¬ Obligations.TimelinesAndPriority := by
  unfold Obligations.TimelinesAndPriority
  intro h
  obtain ⟨-, -, hg, -⟩ := h spoilingTimeline 0 1 0
  obtain ⟨-, -, -, hw⟩ := hg (by decide +kernel) (.inl (by decide +kernel))
  obtain ⟨t, ht, -, hm, -⟩ := hw (by decide +kernel) (by decide +kernel) (by decide +kernel)
  have hp : 0x2007 ∈ t.mem.poison := spoilsLine_next (by decide +kernel) ht
  exact spoilingAt_sound (hm.poison _ hp)


end Sys2Proof.Machine

/-! PROOFS. What leaves both memories alone (R18, R62, R109, R436 to R443, and the like): one lemma for each operation that registers, splits, groups,
teams, clusters, grids and cores are changed by. -/

namespace Sys2Proof.Machine

/-- A fold of operations that leave memory alone. -/
theorem State.foldl_mem {α : Type} {f : State → α → State} (hf : ∀ (t : State) (a : α), (f t a).mem = t.mem) (l : List α) (s : State) :
    (l.foldl f s).mem = s.mem :=
  foldl_keeps (p := fun t : State => t.mem = s.mem) (fun t a h => (hf t a).trans h) l rfl

@[simp] theorem State.at__mem (s : State) (gid slot : Nat) : (s.at_ gid slot).mem = s.mem := rfl
@[simp] theorem State.mark_mem (s : State) (r : Reg) (m : Mask) (lat : Option Nat) : (s.mark r m lat).mem = s.mem := rfl
@[simp] theorem State.wrV_mem (s : State) (n : Nat) (m : Mask) (f : Nat → Word) (lat : Option Nat) : (s.wrV n m f lat).mem = s.mem := rfl
@[simp] theorem State.wrG_mem (s : State) (n : Nat) (x : DWord) (lat : Option Nat) : (s.wrG n x lat).mem = s.mem := rfl
@[simp] theorem State.wrP_mem (s : State) (n : Nat) (m x : Mask) (lat : Option Nat) : (s.wrP n m x lat).mem = s.mem := rfl
@[simp] theorem State.wrQ_mem (s : State) (n : Nat) (b : Bool) (lat : Option Nat) : (s.wrQ n b lat).mem = s.mem := rfl
@[simp] theorem State.setCtx_mem (s : State) (x : Nat) (c : EngineCtx) : (s.setCtx x c).mem = s.mem := rfl
@[simp] theorem State.setBarrier_mem (s : State) (level num : Nat) (b : Barrier) : (s.setBarrier level num b).mem = s.mem := by
  unfold State.setBarrier
  split <;> rfl
@[simp] theorem State.retireTo_mem (s : State) (pc : Addr) : (s.retireTo pc).mem = s.mem := rfl
@[simp] theorem State.retire_mem (s : State) : (s.retire).mem = s.mem := rfl
@[simp] theorem State.waitFor_mem (s : State) (w : Wait) : (s.waitFor w).mem = s.mem := rfl
@[simp] theorem State.logAt_mem (s : State) (kind : BitVec 16) (die core : BitVec 8) (detail : Word) (value : DWord) :
    (s.logAt kind die core detail value).mem = s.mem := rfl
@[simp] theorem State.logGroup_mem (s : State) (kind : BitVec 16) (detail : Word) (value : DWord) :
    (s.logGroup kind detail value).mem = s.mem := rfl
@[simp] theorem State.logDevice_mem (s : State) (kind : BitVec 16) (detail : Word) (value : DWord) :
    (s.logDevice kind detail value).mem = s.mem := rfl
@[simp] theorem State.discardCommands_mem (s : State) (g : Nat) : (s.discardCommands g).mem = s.mem := by
  refine State.foldl_mem (fun t k => ?_) _ s
  dsimp only
  split <;> rfl
@[simp] theorem State.failGridWith_mem (s : State) (g status detail logClass : Nat) (pc : Addr) (tseq : Word) (adda : Addr) :
    (s.failGridWith g status detail logClass pc tseq adda).mem = s.mem := by
  unfold State.failGridWith
  dsimp only
  split
  · rfl
  · split <;> simp
@[simp] theorem State.failGrid_mem (s : State) (g cls : Nat) (pc : Addr) (tseq : Word) (adda : Addr) :
    (s.failGrid g cls pc tseq adda).mem = s.mem := by simp [State.failGrid]
@[simp] theorem State.enterHandler_mem (s : State) (f : PendingFault) (handler : Addr) : (s.enterHandler f handler).mem = s.mem := rfl
@[simp] theorem State.deliver_mem (s : State) (f : PendingFault) : (s.deliver f).mem = s.mem := by
  unfold State.deliver
  split
  · rfl
  · exact State.failGrid_mem ..
@[simp] theorem State.fault_mem (s : State) (f : PendingFault) : (s.fault f).mem = s.mem := by
  unfold State.fault
  split
  · exact State.failGrid_mem ..
  · split
    · exact State.deliver_mem ..
    · dsimp only
      split
      · exact (State.failGrid_mem ..).trans (State.logGroup_mem ..)
      · rfl
@[simp] theorem State.deliverNext_mem (s : State) : (s.deliverNext).mem = s.mem := by
  unfold State.deliverNext
  split <;> simp
@[simp] theorem State.endHandler_mem (s : State) : (s.endHandler).mem = s.mem := by simp [State.endHandler]
@[simp] theorem State.returnFromTrap_mem (s : State) : (s.returnFromTrap).mem = s.mem := by simp [State.returnFromTrap]
@[simp] theorem State.nonFinite_mem (s : State) (bad : Bool) : (s.nonFinite bad).mem = s.mem := by
  unfold State.nonFinite
  split
  · split
    · split <;> rfl
    · rfl
  · rfl
@[simp] theorem State.bumpCounters_mem (s : State) (rounds : Bool) (m : Mask) : (s.bumpCounters rounds m).mem = s.mem := by
  unfold State.bumpCounters
  split <;> rfl
@[simp] theorem State.typedEffect_mem (s : State) (t : Ty) (rsr : Bool) (f : Rounding → Nat → Nat → Nat → Nat) (d a b : Nat) (lat : Option Nat) :
    (s.typedEffect t rsr f d a b lat).mem = s.mem := by
  unfold State.typedEffect
  split <;> simp
@[simp] theorem State.twoSumEffect_mem (s : State) (d a b : Nat) : (s.twoSumEffect d a b).mem = s.mem := by simp [State.twoSumEffect]
@[simp] theorem State.convertEffect_mem (s : State) (src dst : Ty) (d a : Nat) :
    (s.convertEffect src dst d a).mem = s.mem := by simp [State.convertEffect]
@[simp] theorem State.setL1_mem (s : State) (core line : Nat) (x : L1Line) : (s.setL1 core line x).mem = s.mem := rfl
@[simp] theorem State.dropL1_mem (s : State) (core line : Nat) : (s.dropL1 core line).mem = s.mem := rfl
@[simp] theorem State.takeHeaders_mem (s : State) (core : Nat) (t : TileRef) : (s.takeHeaders core t).mem = s.mem := rfl
@[simp] theorem State.dropClean_mem (s : State) (core : Nat) (t : TileRef) : (s.dropClean core t).mem = s.mem := rfl
@[simp] theorem State.sign_mem (s : State) (l : List Byte) : (s.sign l).mem = s.mem := by
  unfold State.sign
  split <;> rfl
@[simp] theorem State.releaseClocks_mem (s : State) (now : DWord) (p : Nat → Nat → Split → Bool) : (s.releaseClocks now p).mem = s.mem := by
  unfold State.releaseClocks
  split <;> rfl
@[simp] theorem State.forgetUnseen_mem (s : State) (key n : Nat) : (s.forgetUnseen key n).mem = s.mem := by
  unfold State.forgetUnseen
  split <;> rfl
@[simp] theorem State.noteMiss_mem (s : State) (va line : Nat) : (s.noteMiss va line).mem = s.mem := by
  unfold State.noteMiss
  dsimp only
  split <;> rfl
@[simp] theorem State.noteRequest_mem (s : State) (t : Target) : (s.noteRequest t).mem = s.mem := by
  unfold State.noteRequest
  split <;> rfl
@[simp] theorem State.noteHeard_mem (s : State) (n : Nat) (l : List Target) : (s.noteHeard n l).mem = s.mem := by
  unfold State.noteHeard
  dsimp only
  split <;> split <;> rfl
@[simp] theorem State.unbuffer_mem (s : State) (pa n : Nat) : (s.unbuffer pa n).mem = s.mem := by
  unfold State.unbuffer
  split <;> rfl
@[simp] theorem State.bufferWrite_mem (s : State) (agent num pa n x : Nat) : (s.bufferWrite agent num pa n x).mem = s.mem := rfl
@[simp] theorem State.noteRelease_mem (s : State) (n : Nat) (l : List (DWord × Target)) : (s.noteRelease n l).mem = s.mem := by
  unfold State.noteRelease
  split <;> rfl
@[simp] theorem State.noteReleased_mem (s : State) (scope : Option Nat) (n : Nat) (l : List (DWord × Target)) :
    (s.noteReleased scope n l).mem = s.mem := by
  unfold State.noteReleased
  split <;> simp
@[simp] theorem State.atIssue_mem (s : State) : (s.atIssue).mem = s.mem := rfl
@[simp] theorem State.release_mem (s : State) (k : Nat) : (s.release k).mem = s.mem := rfl
@[simp] theorem State.demote_mem (s : State) (n : Word) : (s.demote n).mem = s.mem := by
  unfold State.demote
  dsimp only
  split <;> rfl
@[simp] theorem State.leaveHolds_mem (s : State) (gone : BitVec 4) : (s.leaveHolds gone).mem = s.mem := by
  refine State.foldl_mem (fun t k => ?_) _ s
  dsimp only
  split
  · split <;> rfl
  · rfl
@[simp] theorem State.refreshHolds_mem (s : State) : (s.refreshHolds).mem = s.mem := by
  unfold State.refreshHolds
  split <;> simp
@[simp] theorem State.grow_mem (s : State) (core q : Nat) (chosen : Nat × Nat) : (s.grow core q chosen).mem = s.mem := by
  refine State.foldl_mem (fun t g => State.foldl_mem (fun u k => ?_) _ t) _ s
  dsimp only
  split
  · rfl
  · split
    · rfl
    · split <;> rfl
@[simp] theorem State.noteSolid_mem (s : State) (w : Word) : (s.noteSolid w).mem = s.mem := by
  unfold State.noteSolid
  split <;> rfl
@[simp] theorem State.arrive_mem (n : Nat) (s : State) : (State.arrive n s).mem = s.mem := by
  induction n generalizing s with
  | zero => rfl
  | succ n ih =>
    unfold State.arrive
    dsimp only
    split
    · rfl
    · split
      · rfl
      · split
        · rfl
        · split
          · rfl
          · exact ih _
@[simp] theorem State.mergePair_mem (s : State) (a b : Nat) : (s.mergePair a b).mem = s.mem := by
  unfold State.mergePair
  dsimp only
  split
  · simp
  · rfl
@[simp] theorem State.settleSplits_mem (s : State) : (s.settleSplits).mem = s.mem := by
  unfold State.settleSplits
  extract_lets slot u pairs pass
  have hu : u.mem = s.mem := by
    refine State.foldl_mem (fun t k => ?_) _ s
    dsimp only
    split <;> rfl
  have hp : ∀ t : State, (pass t).mem = t.mem := fun t =>
    (State.foldl_mem (fun _ _ => by simp) _ _).trans (State.foldl_mem (fun _ _ => by simp) _ t)
  split
  · exact hu
  · rw [State.at_mem, hp, hp, hp, hp, hu]
@[simp] theorem State.settleGroup_mem (s : State) : (s.settleGroup).mem = s.mem := (State.setGrp_mem ..).trans (State.settleSplits_mem s)
@[simp] theorem State.writeBlock_mem (s : State) (d k : Nat) (m : Mask) (value : Nat → Nat) : (s.writeBlock d k m value).mem = s.mem :=
  State.foldl_mem (fun _ _ => by rfl) _ s
@[simp] theorem State.clearRelease_mem (s : State) : (s.clearRelease).mem = s.mem := rfl
@[simp] theorem State.forward_mem (s : State) (f : Forward) : (s.forward f).mem = s.mem := by
  refine State.foldl_mem (fun t g => ?_) _ s
  dsimp only
  split <;> rfl
@[simp] theorem State.markDemotes_mem (s : State) (tseq : Word) : (s.markDemotes tseq).mem = s.mem := rfl
@[simp] theorem State.countAtomic_mem (s : State) : (s.countAtomic).mem = s.mem := by
  unfold State.countAtomic
  split <;> rfl
@[simp] theorem State.enqueue_mem (s : State) (ctx : Nat) (c : Cmd) : (s.enqueue ctx c).mem = s.mem := rfl
@[simp] theorem State.toMatrix_mem (s : State) (c : MatrixCmd) : (s.toMatrix c).mem = s.mem := rfl
@[simp] theorem State.queuedNonFinite_mem (s : State) (c : MatrixCmd) (bad : Bool) : (s.queuedNonFinite c bad).mem = s.mem := by
  unfold State.queuedNonFinite
  split
  · split
    · split <;> simp
    · split <;> rfl
  · rfl
@[simp] theorem State.editAcc_mem (s : State) (c : MatrixCmd) (blk : Nat) (mask : Mask) (f : Nat → Nat → Word → Word) :
    (s.editAcc c blk mask f).mem = s.mem := by simp [State.editAcc]
@[simp] theorem State.closeAcc_mem (s : State) (blk : Nat) : (s.closeAcc blk).mem = s.mem := rfl
@[simp] theorem State.giveDrain_mem (s : State) (num : Nat) (data : List Word) : (s.giveDrain num data).mem = s.mem := rfl
@[simp] theorem State.accept_mem (s : State) (c : MatrixCmd) : (s.accept c).mem = s.mem := by
  unfold State.accept
  split <;> simp
@[simp] theorem State.testBarrier_mem (s : State) (level num : Nat) : (s.testBarrier level num).mem = s.mem := by
  unfold State.testBarrier
  extract_lets b m c groups t
  split
  · rfl
  · exact (State.releaseClocks_mem ..).trans (State.setBarrier_mem ..)
@[simp] theorem State.noteArrival_mem (s : State) (level num : Nat) (phase : Word) : (s.noteArrival level num phase).mem = s.mem := by
  unfold State.noteArrival
  split <;> rfl
@[simp] theorem State.engineArrival_mem (s : State) (num : Nat) : (s.engineArrival num).mem = s.mem := by
  unfold State.engineArrival
  extract_lets b
  split <;> simp
@[simp] theorem State.leaveBarriers_mem (s : State) (member : Nat) (levels : List Nat) :
    (s.leaveBarriers member levels).mem = s.mem := by
  refine State.foldl_mem (fun t level => State.foldl_mem (fun u num => ?_) _ t) _ s
  extract_lets b c
  split <;> simp
@[simp] theorem State.joinBarriers_mem (s : State) :
    (s.joinBarriers).mem = s.mem := State.foldl_mem (fun t _ => State.foldl_mem (fun _ _ => by simp) _ t) _ s
@[simp] theorem State.setBin_mem (s : State) (core k : Nat) (b : Bin) : (s.setBin core k b).mem = s.mem := rfl
@[simp] theorem State.tickBins_mem (s : State) : (s.tickBins).mem = s.mem := rfl
@[simp] theorem State.unlease_mem (s : State) (pa : Nat) : (s.unlease pa).mem = s.mem := rfl
@[simp] theorem State.setHostPage_mem (s : State) (asid page : Nat) (valid : Bool) : (s.setHostPage asid page valid).mem = s.mem := rfl
@[simp] theorem State.setHostPages_mem (s : State) (asid page : Nat) (large valid : Bool) :
    (s.setHostPages asid page large valid).mem = s.mem := by
  unfold State.setHostPages
  split
  · exact State.foldl_mem (fun _ _ => by rfl) _ s
  · rfl
@[simp] theorem State.numberDone_mem (s : State) (sub : Submission) : (s.numberDone sub).mem = s.mem := by
  unfold State.numberDone
  dsimp only
  split
  · rfl
  · split <;> rfl
@[simp] theorem State.divide_mem (s : State) (taken : Mask) (target rpc : Addr) (slot : Nat) :
    (s.divide taken target rpc slot).mem = s.mem := rfl
@[simp] theorem State.finishMatrix_mem (n : Nat) (s : State) : (State.finishMatrix n s).mem = s.mem := by
  induction n generalizing s with
  | zero => rfl
  | succ n ih =>
    unfold State.finishMatrix
    split
    · rfl
    · split
      · exact (ih _).trans (State.accept_mem ..)
      · rfl
@[simp] theorem State.acquireRecords_mem (s : State) (ctx n : Nat) : (s.acquireRecords ctx n).mem = s.mem := by
  unfold State.acquireRecords
  split <;> rfl
@[simp] theorem State.shareStop_mem (s : State) (n : Nat) : (s.shareStop n).mem = s.mem := State.foldl_mem (fun _ _ => by rfl) _ s
@[simp] theorem State.waited_mem (s : State) (p : Unwaited → Bool) : (s.waited p).mem = s.mem := rfl
@[simp] theorem State.editCmd_mem (s : State) (ctx num : Nat) (f : Cmd → Cmd) : (s.editCmd ctx num f).mem = s.mem := rfl
@[simp] theorem State.commandArrival_mem (s : State) (c : Cmd) : (s.commandArrival c).mem = s.mem := by
  unfold State.commandArrival
  split
  · dsimp only
    split
    · split <;> simp
    · rfl
  · split <;> simp
@[simp] theorem State.bufferEngine_mem (s : State) (ctx num pa n x : Nat) : (s.bufferEngine ctx num pa n x).mem = s.mem := rfl
@[simp] theorem State.bufferPend_mem (s : State) (ctx num pa n x : Nat) : (s.bufferPend ctx num pa n x).mem = s.mem := by
  unfold State.bufferPend
  split
  · exact State.foldl_mem (fun _ _ => by rfl) _ s
  · rfl
@[simp] theorem State.completeCmd_mem (s : State) (ctx : Nat) (c : Cmd) : (s.completeCmd ctx c).mem = s.mem := by
  unfold State.completeCmd
  extract_lets freed pended bar r recorded team named done x y cleared
  have hp : pended.mem = s.mem := State.foldl_mem (fun _ _ => by simp) _ freed
  have hr : recorded.mem = pended.mem := by
    unfold recorded
    split <;> simp
  have hn : named.mem = recorded.mem := by
    unfold named
    split <;> simp
  have hd : done.mem = named.mem := State.editCmd_mem ..
  have hc : cleared.mem = done.mem := State.foldl_mem (fun _ _ => by simp) _ done
  rw [State.setTeam_mem, State.commandArrival_mem, State.setCtx_mem, hc, hd, hn, hr, hp]
@[simp] theorem State.engineFault_mem (s : State) (ctx : Nat) (c : Cmd) (detail : Nat) (a : DWord) :
    (s.engineFault ctx c detail a).mem = s.mem := by simp [State.engineFault]
@[simp] theorem State.noteElement_mem (s : State) (ctx num : Nat) (a : DWord) (n x : Nat) : (s.noteElement ctx num a n x).mem = s.mem := by
  unfold State.noteElement
  split <;> rfl
@[simp] theorem State.takeLocks_mem (s : State) (l : List (Nat × RangeLock)) :
    (s.takeLocks l).mem = s.mem := State.foldl_mem (fun _ _ => by rfl) _ s
@[simp] theorem State.meetCollective_mem (s : State) (table : List Nat) : (s.meetCollective table).mem = s.mem := by
  unfold State.meetCollective
  dsimp only
  split
  · rfl
  · refine State.foldl_mem (fun t e => ?_) _ _
    split
    · rfl
    · split
      · split <;> simp
      · simp
@[simp] theorem State.noteRefused_mem (s : State) (c : Cmd) (f : Nat × DWord) : (s.noteRefused c f).mem = s.mem := by
  unfold State.noteRefused
  extract_lets several
  split <;> rfl
@[simp] theorem State.startPeer_mem (s : State) (c : Cmd) (blk : Nat) : (s.startPeer c blk).mem = s.mem := by
  unfold State.startPeer
  dsimp only
  split
  · simp
  · rfl
@[simp] theorem State.ofTeam_mem (s : State) (team : Nat) : (s.ofTeam team).mem = s.mem := rfl
@[simp] theorem State.resolveGuards_mem (s : State) (p : Cmd → Bool) (ctx : Nat) : (s.resolveGuards p ctx).mem = s.mem := rfl
@[simp] theorem State.leaderView_mem (s : State) : (s.leaderView).mem = s.mem := rfl
@[simp] theorem State.noteMet_mem (s : State) : (s.noteMet).mem = s.mem := rfl
@[simp] theorem State.answer_mem (s : State) (data : BitVec 1024) (poison : Bool) : (s.answer data poison).mem = s.mem := rfl
@[simp] theorem State.answerEmpty_mem (s : State) : (s.answerEmpty).mem = s.mem := rfl
@[simp] theorem State.endEntry_mem (s : State) (e : LogEntry) : (s.endEntry e).mem = s.mem := by simp [State.endEntry]
@[simp] theorem State.keepLive_mem (s : State) : (s.keepLive).mem = s.mem := rfl
@[simp] theorem State.goOn_mem (s : State) (c : Nat) (moved : Bool) : (s.goOn c moved).mem = s.mem := rfl
@[simp] theorem State.holdTeam_mem (s : State) (t : Nat) : (s.holdTeam t).mem = s.mem := rfl
@[simp] theorem State.settleCluster_mem (s : State) (c : Nat) : (s.settleCluster c).mem = s.mem := State.foldl_mem (fun _ _ => by rfl) _ s
@[simp] theorem State.dropShadows_mem (s : State) (c : Nat) : (s.dropShadows c).mem = s.mem := rfl
@[simp] theorem State.takeBins_mem (s : State) (c : Nat) : (s.takeBins c).mem = s.mem := by
  refine State.foldl_mem (fun t k => State.foldl_mem (fun u j => ?_) _ t) _ s
  dsimp only
  split <;> rfl
@[simp] theorem State.reactivate_mem (s : State) (c : Nat) : (s.reactivate c).mem = s.mem := State.foldl_mem (fun _ _ => by rfl) _ s
@[simp] theorem State.discardUnverified_mem (s : State) (p : Nat → Bool) : (s.discardUnverified p).mem = s.mem := rfl
@[simp] theorem State.setReplAt_mem (s : State) (g : Nat) (r : Replica) : (s.setReplAt g r).mem = s.mem := rfl
@[simp] theorem State.atReplica_mem (s : State) (g : Nat) : (s.atReplica g).mem = s.mem := rfl
@[simp] theorem State.verify_mem (s : State) (g : Nat) : (s.verify g).mem = s.mem := rfl
@[simp] theorem State.forgetShadows_mem (s : State) (g : Nat) (lines : List Nat) (tiles : List TileRef) :
    (s.forgetShadows g lines tiles).mem = s.mem := rfl
@[simp] theorem State.discardShadows_mem (s : State) (g : Nat) (all : Bool) : (s.discardShadows g all).mem = s.mem := rfl
@[simp] theorem State.reload_mem (s : State) (g : Nat) (c : Checkpoint) : (s.reload g c).mem = s.mem := rfl
@[simp] theorem State.restart_mem (s : State) (g : Nat) : (s.restart g).mem = s.mem := by
  unfold State.restart
  split <;> rfl
@[simp] theorem State.mismatch_mem (s : State) (group : Nat) : (s.mismatch group).mem = s.mem := by
  unfold State.mismatch
  extract_lets l lead n u v w
  have hu : u.mem = s.mem := State.foldl_mem (fun _ _ => by simp) _ s
  have hv : v.mem = u.mem := State.foldl_mem (fun _ _ => by simp) _ u
  split
  · simp [w, hv, hu]
  · exact (State.foldl_mem (fun _ _ => by simp) _ v).trans (hv.trans hu)
@[simp] theorem State.promote_mem (s : State) (g : Nat) : (s.promote g).mem = s.mem := State.foldl_mem (fun _ _ => by rfl) _ s
@[simp] theorem State.setService_mem (s : State) (level dies : Nat) : (s.setService level dies).mem = s.mem := rfl
@[simp] theorem State.endGrid_mem (s : State) (grid detail : Nat) : (s.endGrid grid detail).mem = s.mem := by simp [State.endGrid]
@[simp] theorem State.setClocks_mem (s : State) (new : List Nat) : (s.setClocks new).mem = s.mem := rfl
@[simp] theorem State.clockStep_mem (s : State) (sensor die : Nat) (up : Bool) : (s.clockStep sensor die up).mem = s.mem := by
  unfold State.clockStep
  extract_lets old new t
  split <;> rfl
@[simp] theorem State.halve_mem (s : State) (stack : Nat) (hot : Bool) : (s.halve stack hot).mem = s.mem := rfl
@[simp] theorem State.shutdown_mem (s : State) : (s.shutdown).mem = s.mem :=
  State.foldl_mem (fun t g => by simp) _ s
@[simp] theorem State.setPolicy_mem (s : State) : (s.setPolicy).mem = s.mem := rfl
@[simp] theorem State.fixLink_mem (s : State) : (s.fixLink).mem = s.mem := rfl
@[simp] theorem State.resolveWritten_mem (s : State) (l : List Inflight) : (s.resolveWritten l).mem = s.mem := rfl
@[simp] theorem State.cancelFrom_mem (s : State) (tseq : Word) (b : Split) : (s.cancelFrom tseq b).mem = s.mem := rfl
@[simp] theorem State.setMiss_mem (s : State) (core idx : Nat) (m : Miss) : (s.setMiss core idx m).mem = s.mem := rfl
@[simp] theorem State.refreshCore_mem (s : State) (core : Nat) :
    (s.refreshCore core).mem = s.mem := State.foldl_mem (fun _ _ => by simp) _ s
@[simp] theorem State.skipSlots_mem (s : State) (passed : Nat → Bool) : (s.skipSlots passed).mem = s.mem := rfl
@[simp] theorem State.refreshAll_mem (s : State) : (s.refreshAll).mem = s.mem := State.foldl_mem (fun _ _ => by simp) _ s
@[simp] theorem State.deliverFaults_mem (s : State) : (s.deliverFaults).mem = s.mem := by
  refine State.foldl_mem (fun t g => ?_) _ s
  dsimp only
  split <;> simp
@[simp] theorem State.reduceEffect_mem (s : State) (t : Ty) (rsr : Bool) (f : Rounding → Nat → Nat → Nat → Nat) (d a : Nat) :
    (s.reduceEffect t rsr f d a).mem = s.mem := by
  unfold State.reduceEffect
  split <;> simp
@[simp] theorem State.setMode_mem (s : State) (m : Word) : (s.setMode m).mem = s.mem := rfl

end Sys2Proof.Machine

/-! PROOFS. Memory in canonical form under accesses (R265 to R275), and the outcomes of instructions that go on (R106 to R109). -/

namespace Sys2Proof.Machine

/-- Where memory was in canonical form, it is so still (log 2). -/
structure State.Keeps (s t : State) : Prop where
  wf : s.memoryWf = true → t.memoryWf = true

namespace State.Keeps
variable {s t u : State}

theorem refl (s : State) : s.Keeps s := ⟨id⟩
theorem trans (h : s.Keeps t) (k : t.Keeps u) : s.Keeps u := ⟨k.wf ∘ h.wf⟩
theorem of_works (h : s.Works t) : s.Keeps t := ⟨h.wf⟩
theorem of_mem (h : t.mem = s.mem) : s.Keeps t :=
  ⟨fun k => (State.memoryWf_of_mem (congrArg _ h) (congrArg _ h)).trans k⟩
/-- A change of what memory keeps beside its bytes. -/
theorem of_bytes (hb : t.mem.bytes = s.mem.bytes) (hc : t.mem.scratch = s.mem.scratch) : s.Keeps t :=
  ⟨fun k => (State.memoryWf_of_mem hb hc).trans k⟩
theorem ite {c : Bool} (h : s.Keeps t) (k : s.Keeps u) : s.Keeps (if c then t else u) := by
  split
  · exact h
  · exact k
theorem iteProp {c : Prop} [Decidable c] (h : s.Keeps t) (k : s.Keeps u) : s.Keeps (if c then t else u) := by
  split
  · exact h
  · exact k
theorem foldl {α : Type} {f : State → α → State} (hf : ∀ (t : State) (a : α), t.Keeps (f t a)) (l : List α) (s : State) :
    s.Keeps (l.foldl f s) :=
  foldl_keeps (p := fun t : State => s.Keeps t) (fun t a h => h.trans (hf t a)) l (refl s)

theorem scratchWrite (s : State) (team off n x : Nat) : s.Keeps (s.scratchWrite team off n x) := ⟨fun h => State.scratchWrite_wf h ..⟩
theorem refill (s : State) (va : Nat) : s.Keeps (s.refill va) := by
  unfold State.refill
  split
  · exact refl s
  · split
    · exact of_works (.putTlb ..)
    · exact refl s
theorem releaseAround (s : State) (scope : Nat) (lines : List Nat) (perform : State → State) (h : ∀ t : State, t.Keeps (perform t)) :
    s.Keeps (s.releaseAround scope lines perform) := by
  unfold State.releaseAround
  extract_lets core hbm a b c
  split
  · exact h s
  · have ha : s.Keeps a := ite (of_works (.writeBackDirty ..)) (refl s)
    have hb : a.Keeps b := ite (refl a) (of_works (.newEpoch ..))
    have hc : b.Keeps c := foldl (fun t l => of_works (.beforeHome ..)) _ b
    exact (((ha.trans hb).trans hc).trans (h c)).trans (foldl (fun t l => of_works (.nameWick ..)) _ _)
theorem forgetUnseen (s : State) (key n : Nat) : s.Keeps (s.forgetUnseen key n) := of_mem (State.forgetUnseen_mem ..)
theorem prepare (s : State) (t : Target) (n : Nat) (keep : List Nat) : s.Keeps (s.prepare t n keep) := by
  unfold State.prepare
  split
  · exact refl s
  · next leaf va pa =>
    split
    · exact refl s
    · split
      · exact refill ..
      · extract_lets a b
        have hb : s.Keeps b := (refill s va).trans (foldl (fun u l => of_mem (State.noteMiss_mem ..)) _ a)
        split
        · exact hb.trans (of_works (.fillTile ..))
        · exact hb.trans (of_works (.fillLine ..))
theorem dropShadow (s : State) (tile : Option TileRef) (line : Nat) : s.Keeps (s.dropShadow tile line) := by
  unfold State.dropShadow
  extract_lets gone old a
  split
  · exact (foldl (fun t e => of_works (.leaderWrites ..)) _ s).trans (of_mem (State.setCore_mem ..))
  · exact refl s
theorem giveUp (s : State) (leaf : Leaf) (va pa : Nat) : s.Keeps (s.giveUp leaf va pa) := by
  unfold State.giveUp
  split
  · exact (of_works (.dropTile ..)).trans (dropShadow ..)
  · exact (of_works (.purge ..)).trans (dropShadow ..)
theorem giveUps (s : State) (p : List (DWord × Target)) : s.Keeps (s.giveUps p) := by
  refine foldl (fun t e => ?_) _ s
  split
  · exact refl t
  · exact giveUp ..
theorem homeReads (s : State) (tile : Option TileRef) (pa n : Nat) : s.Keeps (s.homeReads tile pa n) :=
  foldl (fun t l => of_works (.homeDieRead ..)) _ s
theorem readHome (s : State) (t : Target) (n : Nat) : s.Keeps (s.readHome t n).1 := by
  unfold State.readHome
  split
  · exact refl s
  · exact (((refill ..).trans (of_mem (State.noteRequest_mem ..))).trans (giveUp ..)).trans (homeReads ..)
theorem polled (s : State) (t : Target) (n : Nat) (wick : Bool) : s.Keeps (s.polled t n wick) := by
  unfold State.polled
  split
  · exact refl s
  · next leaf va pa =>
    extract_lets a b
    have ha : s.Keeps a := (refill s va).trans (of_mem (State.noteRequest_mem ..))
    have hb : a.Keeps b := ite (refl a) (ite (of_works (.fetchLine ..)) (homeReads ..))
    have hw : b.Keeps (if wick then b.recordWick b.coreId (pa / 128) else b) := ite (of_works (.recordWick ..)) (refl b)
    exact (((ha.trans hb).trans hw).trans (of_works (.dropRead ..))).trans (of_mem (State.noteHeard_mem ..))
theorem writeHome (s : State) (t : Target) (n x : Nat) : s.Keeps (s.writeHome t n x) := by
  unfold State.writeHome
  refine (forgetUnseen s t.key n).trans ?_
  dsimp only
  split
  · exact scratchWrite ..
  · exact (((refill ..).trans (giveUp ..)).trans (of_works (.homeWrite ..))).trans (of_mem (State.unbuffer_mem ..))
theorem shadowWrite (s : State) (virt : Nat × Nat) (tile : Option TileRef) (keep : List Nat) (pa n x : Nat) :
    s.Keeps (s.shadowWrite virt tile keep pa n x) := by
  unfold State.shadowWrite
  extract_lets held old a b c m y mask z
  have ha : s.Keeps a := ite (of_works (.leaderWrites ..)) (refl s)
  have hb : a.Keeps b := ite (refl a) (of_works (.makeRoom ..))
  exact (ha.trans hb).trans (of_mem (State.setCore_mem ..))
theorem withHeader (s : State) (leaf : Leaf) (va : Nat) : s.Keeps (s.withHeader leaf va) := by
  unfold State.withHeader
  split
  · exact ite (refl s) ((of_works (.dropTile ..)).trans (of_mem (State.takeHeaders_mem ..)))
  · exact refl s
theorem storePlain (s : State) (t : Target) (keep : List Nat) (n x : Nat) : s.Keeps (s.storePlain t keep n x) := by
  unfold State.storePlain
  refine (forgetUnseen s t.key n).trans ?_
  generalize s.forgetUnseen t.key n = s
  dsimp only
  split
  · exact scratchWrite ..
  · next leaf va pa =>
    have h : s.Keeps (if s.holdsLine va pa then s else s.refill va) := ite (refl s) (refill ..)
    refine h.trans ?_
    generalize (if s.holdsLine va pa then s else s.refill va) = s
    split
    · exact of_mem (State.bufferWrite_mem ..)
    · split
      · exact of_mem (State.setGrp_mem ..)
      · split
        · exact shadowWrite ..
        · exact (withHeader ..).trans (ite (writeHome ..) (of_works (.l1Write ..)))
theorem fullUp (s : State) (core : Nat) : s.Keeps (s.fullUp core) := of_works (.fullUp ..)

end State.Keeps

/-! Outcomes. -/

/-- The instruction goes on, to a state whose memory is in canonical form where that of `s` is. -/
def State.Runs (s : State) (o : Out) : Prop := ∃ t, o = .next t ∧ s.Keeps t

namespace State.Runs
variable {s t : State} {o p : Out}

theorem next (h : s.Keeps t) : s.Runs (.next t) := ⟨t, rfl, h⟩
/-- An outcome from a state that memory is kept to. -/
theorem after (h : s.Keeps t) (k : t.Runs o) : s.Runs o :=
  let ⟨u, hu, ku⟩ := k
  ⟨u, hu, h.trans ku⟩
/-- A step to a state with the memory that it came from. -/
theorem same (h : t.mem = s.mem) : s.Runs (.next t) := next (.of_mem h)
theorem retire (h : s.Keeps t) : s.Runs (.next t.retire) := next (h.trans (.of_mem (State.retire_mem t)))
theorem done (h : s.Keeps t) : s.Runs t.done := retire h
theorem ite {c : Bool} (h : s.Runs o) (k : s.Runs p) : s.Runs (if c then o else p) := by
  split
  · exact h
  · exact k
theorem iteProp {c : Prop} [Decidable c] (h : s.Runs o) (k : s.Runs p) : s.Runs (if c then o else p) := by
  split
  · exact h
  · exact k

theorem raise (s : State) (cls : Nat) (a b : Addr) : s.Runs (s.raise cls a b) := same (State.fault_mem ..)
theorem illegalOperand (s : State) : s.Runs s.illegalOperand := raise ..
theorem raiseAddr (s : State) (f : AddrFault) : s.Runs (s.raiseAddr f) := raise ..
theorem waitFor (s : State) (w : Wait) : s.Runs (.next (s.waitFor w)) := same (State.waitFor_mem ..)
theorem checked {ok : Bool} (h : s.Runs o) : s.Runs (s.checked ok o) := ite h (illegalOperand s)
theorem vector (h : s.Runs o) : s.Runs (s.vector o) := iteProp (done (.refl s)) h
theorem typed (s : State) (accepts : TypeSet) (rsr : Bool) (f : Ty → Rounding → Nat → Nat → Nat → Nat) (d a b : Nat) (lat : Option Nat) :
    s.Runs (s.typed accepts rsr f d a b lat) := by
  refine vector ?_
  split
  · exact illegalOperand s
  · exact done (.of_mem (State.typedEffect_mem ..))
theorem compareForced (s : State) : s.Runs s.compareForced := same (by simp)
theorem compareFirst (ht : t.mem = s.mem) (closing : List Byte) (h : s.Runs o) : s.Runs (t.compareFirst closing o) :=
  ite h (ite (same (by simp [ht])) (same (by simp [ht])))
theorem afterLeader (h : s.Runs o) : s.Runs (s.afterLeader o) := ite (waitFor ..) h
theorem inTurn (sync : Bool) (h : s.Runs o) : s.Runs (s.inTurn sync o) := ite (waitFor ..) h
theorem withRoom (lines : List Nat) (h : s.Runs o) : s.Runs (s.withRoom lines o) := by
  refine ite h ?_
  extract_lets t
  have ht : s.Keeps t := .fullUp ..
  split
  · refine ite (after ht (waitFor ..)) (ite ?_ (after ht (compareForced t)))
    obtain ⟨u, rfl, hu⟩ := h
    exact next (hu.trans (.of_mem (State.setCoreAt_mem ..)))
  · exact after ht (waitFor ..)
theorem afterPhases (scope : Option Nat) (n : Nat) (l : List Target) (h : s.Runs o) : s.Runs (s.afterPhases scope n l o) := by
  refine ite h (ite (waitFor ..) ?_)
  split
  · exact waitFor ..
  · exact h
theorem afterAtomics (all : Bool) (h : s.Runs o) : s.Runs (s.afterAtomics all o) := ite (waitFor ..) h
theorem afterDemands (l : List Wick) (h : s.Runs o) : s.Runs (s.afterDemands l o) := by
  unfold State.afterDemands
  split
  · exact waitFor ..
  · exact h
theorem waits (n : Nat) (k : Need) (atHome : Bool) (p : List (DWord × Target)) (h : s.Runs o) : s.Runs (s.waits n k atHome p o) := by
  refine ite (waitFor ..) (ite (compareForced s) (ite (waitFor ..) ?_))
  split
  · exact waitFor ..
  · exact h
theorem access {n : Nat} {k : Need} {more : Target → Bool} {sync atHome : Bool} {l : List DWord} {perform : List (DWord × Target) → Out}
    (h : ∀ p, s.Runs (perform p)) : s.Runs (s.access n k more sync atHome l perform) := by
  unfold State.access
  split
  · exact raiseAddr ..
  · extract_lets p out
    have hw : s.Runs (s.waits n k atHome p (match p.findSome? (fun e => s.dataFault n k e.1 e.2) with
        | some f => s.raiseAddr f
        | none => perform p)) := by
      refine waits _ _ _ _ ?_
      split
      · exact raiseAddr ..
      · exact h p
    refine inTurn _ ?_
    split
    · exact afterLeader hw
    · exact hw

end State.Runs

end Sys2Proof.Machine

/-! PROOFS. Loads, stores, atomics, shade instructions, paired stores and matrix instructions at issue go on, and keep memory in canonical
form (R268 to R314). -/

namespace Sys2Proof.Machine

namespace State.Keeps
variable {s t : State}

theorem selfInvalidate (s : State) (core : Nat) : s.Keeps (s.selfInvalidate core) := of_works (.selfInvalidate ..)
theorem giveUpsIf (s : State) (p : List (DWord × Target)) : s.Keeps (s.alongside p) := ite (giveUps ..) (refl s)
theorem prepareAll (s : State) (n : Nat) (p : List (DWord × Target)) : s.Keeps (s.prepareAll n p) := by
  unfold State.prepareAll
  extract_lets keep once
  have h : ∀ t : State, t.Keeps (once t) := fun t => foldl (fun u e => prepare ..) _ t
  exact ((h s).trans (h _)).trans (of_mem (State.noteHeard_mem ..))
theorem releasing (s : State) (scope : Option Nat) (p : List (DWord × Target)) {perform : State → State}
    (h : ∀ t : State, t.Keeps (perform t)) : s.Keeps (s.releasing scope p perform) := by
  unfold State.releasing
  split
  · exact h s
  · next sc =>
    extract_lets a
    have ha : s.Keeps a := ite (of_works (.writeBackDirty ..)) (refl s)
    split
    · exact ha.trans (h a)
    · exact ha.trans (ite (h a) (releaseAround _ _ _ _ h))
theorem releasingHere (s : State) (scope : Option Nat) (p : List (DWord × Target)) {perform : State → State}
    (h : ∀ t : State, t.Keeps (perform t)) : s.Keeps (s.releasingHere scope p perform) := ite (h s) (releasing s scope p h)
theorem storeLanes (s : State) (home : Bool) (n : Nat) (p : List (Target × Nat)) : s.Keeps (s.storeLanes home n p) :=
  foldl (fun t e => ite (writeHome ..) (storePlain ..)) _ s
theorem readWick (s : State) (t : Target) : s.Keeps (s.readWick t) := by
  unfold State.readWick
  extract_lets a
  have ha : s.Keeps a := of_mem (State.noteHeard_mem ..)
  split
  · exact ha
  · exact ha.trans (of_works (.recordWick ..))
/-- A fold over lanes that carries results along. -/
theorem foldl_pair {α β : Type} {f : State × β → α → State × β} (hf : ∀ (x : State × β) (a : α), x.1.Keeps (f x a).1) (l : List α) (x : State × β) :
    x.1.Keeps (l.foldl f x).1 :=
  foldl_keeps (p := fun y : State × β => x.1.Keeps y.1) (fun y a h => h.trans (hf y a)) l (refl x.1)
theorem sysReads (s : State) (a b : Nat) : s.Keeps (s.sysReads a b).1 := by
  refine foldl_pair (fun x l => ?_) lanes (s, [])
  split
  · exact (readWick ..).trans (readHome ..)
  · exact refl x.1
theorem rmw (s : State) (t : Target) (n op x : Nat) : s.Keeps (s.rmw t n op x).1 := by
  unfold State.rmw
  split
  · exact ite (refl s) ((scratchWrite ..).trans (forgetUnseen ..))
  · next leaf va pa =>
    extract_lets a b old c d
    have ha : s.Keeps a := (of_mem (State.noteRequest_mem ..)).trans (giveUp ..)
    have hb : a.Keeps b := by
      unfold b
      split
      · exact of_works (.plainTile ..)
      · exact refl a
    have hd : c.Keeps d := ite (of_works (.performWrite ..)) (of_works (.physWrite ..))
    exact ((ha.trans hb).trans ((of_mem (State.unbuffer_mem ..)).trans hd)).trans (ite (refl d) (forgetUnseen ..))
theorem rmwLanes (s : State) (n op a b : Nat) (m : Mask) (operand : Nat → Nat) : s.Keeps (s.rmwLanes n op a b m operand).1 := by
  refine foldl_pair (fun x l => ?_) lanes (s, [])
  split
  · exact rmw ..
  · exact refl x.1
theorem acquired (s : State) (goes : Bool) : s.Keeps (s.acquired goes) := ite (selfInvalidate ..) (refl s)
theorem atHomes (s : State) (f : AtomicForm) (scope : Option Nat) (p : List (DWord × Target)) (a b : Nat) (m : Mask)
    (operand : Nat → Nat) : s.Keeps (s.atHomes f scope p a b m operand).1 := by
  have h : ∀ (l : List Nat) (t : State), t.Keeps ((l.foldl (fun s l => s.beforeHome s.coreId l) t).rmwLanes f.bytes f.op a b m operand).1 :=
    fun l t => (foldl (fun u l => of_works (.beforeHome ..)) l t).trans (rmwLanes ..)
  unfold State.atHomes
  extract_lets lines around u
  show s.Keeps (around fun u => (u.rmwLanes f.bytes f.op a b m operand).1)
  cases scope with
  | none =>
    simp only [around]
    exact h lines s
  | some sc =>
    simp only [around]
    split
    · exact h lines s
    · exact releasing s (some sc) p fun t => rmwLanes t f.bytes f.op a b m operand
theorem sendAtomics (s : State) (f : AtomicForm) (r : BitVec 3) (scope : Option Nat) (p : List (DWord × Target)) (v a b : Nat)
    (operand : Nat → Nat) : s.Keeps (s.sendAtomics f r scope p v a b operand) := by
  have h := atHomes s f scope p a b (s.active &&& ~~~(s.lanesAt a b s.byAtomicOp)) operand
  unfold State.sendAtomics
  extract_lets sent pa item
  generalize s.atHomes f scope p a b (s.active &&& ~~~sent) operand = x at h ⊢
  obtain ⟨t, olds⟩ := x
  dsimp -zeta only
  extract_lets value u failed w
  have hu : t.Keeps u := foldl (fun t i => of_mem (State.wrV_mem ..)) _ t
  have hw : u.Keeps w := ite (of_mem (State.markDemotes_mem ..)) (refl u)
  exact ((h.trans hu).trans hw).trans (of_mem rfl)
theorem sendEntry (s : State) (f : AtomicForm) (scope : Option Nat) (p : List (DWord × Target)) (a b : Nat) (operand : Nat → Nat)
    (e : LogEntry) : s.Keeps (s.sendEntry f scope p a b operand e) :=
  ((atHomes ..).trans (of_mem (State.noteReleased_mem ..))).trans (of_mem rfl)

end State.Keeps

end Sys2Proof.Machine

/-! PROOFS. The same of whole instructions that act on memory, tiles and the matrix queue (R268 to R314). -/

namespace Sys2Proof.Machine

namespace State.Keeps
variable {s t : State}

theorem putHeader (s : State) (pa : Nat) (h : Header) : s.Keeps (s.putHeader pa h) := of_works (.physWrite ..)
/-- An edit of the headers of some tiles. -/
theorem headers (s : State) (ts : List TileRef) (f : Header → Header) :
    s.Keeps (ts.foldl (fun s t => s.putHeader t.header (f (s.header t.header)).bump) s) := foldl (fun u t => putHeader ..) ts s
theorem pairCommit (s : State) (tiles : List TileRef) (parts : List (Nat × Nat × Nat)) : s.Keeps (s.pairCommit tiles parts) := by
  unfold State.pairCommit
  extract_lets ts edit a b c
  have ha : s.Keeps a := headers s ts fun h => { h with lock := true }
  have hb : a.Keeps b := foldl (fun v t => of_works (.plainTile ..)) ts a
  have hc : b.Keeps c := foldl (fun v e => of_works (.physWrite ..)) _ b
  exact ((ha.trans hb).trans hc).trans (headers c ts fun h => { h with lock := false })
theorem pairTorn (s : State) (tiles : List TileRef) : s.Keeps (s.pairTorn tiles) := foldl (fun u t => putHeader ..) _ s

end State.Keeps

namespace State.Runs
variable {s t : State} {o : Out}

theorem settled (p : List (DWord × Target)) (h : s.Runs o) : s.Runs (s.settled p o) := ite (compareForced s) h
theorem once {e : LogEntry} {perform : State → State × LogEntry} {finish : State → LogEntry → Out}
    (hp : ∀ t : State, t.Keeps (perform t).1) (hf : ∀ (t : State) (r : LogEntry), t.Runs (finish t r)) : s.Runs (s.once e perform finish) := by
  unfold State.once
  split
  · exact after (hp s) (hf _ _)
  · extract_lets n
    split
    · exact ite (after (Keeps.of_mem (State.setRepl_mem ..)) (hf _ _)) (.same (State.failGridWith_mem ..))
    · refine ite (compareForced s) (ite ?_ (.same (by simp)))
      exact after ((hp s).trans (Keeps.of_mem (by simp))) (hf _ _)
theorem storeReady (scope : Option Nat) (p : List (DWord × Target)) (h : s.Runs o) : s.Runs (s.storeReady scope p o) :=
  withRoom _ (ite (afterAtomics _ (afterDemands _ h)) h)
/-- What follows a store's performance: the release is noted and taken, and the record signed. -/
theorem stored (h : s.Keeps t) (scope : Option Nat) (n : Nat) (p : List (DWord × Target)) (record : List Byte) :
    s.Runs ((t.noteReleased scope n p).clearRelease.sign record).done := done (h.trans (Keeps.of_mem (by simp)))

theorem vectorLoad (s : State) (n k d a b : Nat) : s.Runs (s.vectorLoad n k d a b) :=
  vector (access fun p => withRoom _ (done ((Keeps.prepareAll s n p).trans (Keeps.of_mem (State.writeBlock_mem ..)))))
theorem vectorStore (s : State) (n k d a b : Nat) : s.Runs (s.vectorStore n k d a b) := by
  refine vector (access fun p => ?_)
  extract_lets scope records lanes t go
  refine storeReady _ p ?_
  have h : s.Runs go := stored (Keeps.releasingHere s scope p fun u => Keeps.storeLanes ..) scope n p _
  exact ite (compareFirst rfl _ (afterLeader h)) h
theorem execGld (s : State) (st : BitVec 3) (d a b : BitVec 6) : s.Runs (execGld st d a b s) := by
  unfold Machine.execGld
  extract_lets x
  refine access fun p => withRoom _ ?_
  exact done ((Keeps.prepareAll s 8 p).trans (Keeps.of_mem (State.wrG_mem ..)))
theorem execGst (s : State) (st : BitVec 3) (d a b : BitVec 6) : s.Runs (execGst st d a b s) := by
  unfold Machine.execGst
  extract_lets x scope record
  refine access fun p => ?_
  extract_lets t go
  refine storeReady _ p ?_
  have h : s.Runs go := stored (Keeps.releasingHere s scope p fun u => Keeps.storeLanes ..) scope 8 p _
  exact ite (compareFirst rfl _ (afterLeader h)) h
theorem pollLoad (s : State) (n k d a b : Nat) : s.Runs (s.pollLoad n k d a b) := by
  refine iteProp (.same (by simp)) (access fun p => ?_)
  extract_lets t
  have ht : s.Keeps t := Keeps.foldl (fun u e => Keeps.polled ..) p s
  exact next (ht.trans (Keeps.of_mem (by simp)))
theorem execLdSys (s : State) (st : BitVec 3) (d : BitVec 7) (a : BitVec 6) (b : BitVec 7) : s.Runs (execLdSys st d a b s) := by
  refine vector (access fun p => settled p (once (fun t => ?_) fun t r => ?_))
  · have h := Keeps.sysReads t a.toNat b.toNat
    generalize t.sysReads a.toNat b.toNat = x at h ⊢
    exact h
  · exact done ((Keeps.giveUpsIf t p).trans (Keeps.of_mem (State.writeBlock_mem ..)))
theorem execStSys (s : State) (st : BitVec 3) (d : BitVec 7) (a : BitVec 6) (b : BitVec 7) : s.Runs (execStSys st d a b s) := by
  refine vector (access fun p => ?_)
  extract_lets scope entry records go
  have h : s.Runs go := settled p (once
    (fun t => (Keeps.releasing t scope p fun u => Keeps.foldl (fun v l => Keeps.writeHome ..) _ u).trans (Keeps.of_mem (State.noteReleased_mem ..)))
    fun t r => done ((Keeps.giveUpsIf t p).trans (Keeps.of_mem (by simp))))
  exact ite (afterAtomics _ (afterDemands _ (compareFirst rfl _ h))) h
theorem atomic (s : State) (f : AtomicForm) (r : BitVec 3) (v a b : Nat) : s.Runs (s.atomic f r v a b) := by
  refine iteProp (done (Keeps.of_mem (State.countAtomic_mem s))) (access fun p => ?_)
  extract_lets own scope operand entry first goes n go
  refine afterPhases _ _ _ (ite (.same (State.failGrid_mem ..)) (afterAtomics _ (afterDemands _ (ite ?_ ?_))))
  · exact done (Keeps.sendAtomics ..)
  · have h : s.Runs go := by
      refine settled p (ite ?_ (once (fun t => ?_) fun t e => ?_))
      · exact after (Keeps.ite (.refl s) (Keeps.sendEntry ..)) (waitFor ..)
      · exact (Keeps.atHomes ..).trans (Keeps.of_mem (State.noteReleased_mem ..))
      · extract_lets u failed w
        have hu : t.Keeps u := (Keeps.giveUpsIf t p).trans (Keeps.of_mem (State.writeBlock_mem ..))
        have hw : u.Keeps w := (Keeps.ite (Keeps.of_mem (State.markDemotes_mem ..)) (.refl u)).trans (Keeps.acquired ..)
        exact done (((hu.trans hw).trans (Keeps.ite (.refl w) (Keeps.of_mem (State.countAtomic_mem w)))).trans (Keeps.of_mem (State.clearRelease_mem ..)))
    exact ite (compareFirst (State.countAtomic_mem s) _ h) h
theorem shadeCommand (s : State) (op : Instr) (d a : Nat) (ops : List DWord) (legal : Bool) : s.Runs (s.shadeCommand op d a ops legal) :=
  checked (done (Keeps.of_mem (State.enqueue_mem ..)))
theorem execShdr (s : State) (st : BitVec 3) (d a : BitVec 6) : s.Runs (execShdr st d a s) := by
  refine ite (illegalOperand s) ?_
  split
  · exact raise ..
  · exact illegalOperand s
  · split
    · exact illegalOperand s
    · refine ite (compareForced s) (afterAtomics _ (ite (waitFor ..) (ite (raise ..) (done ?_))))
      exact (Keeps.refill s _).trans (Keeps.foldl (fun u i => Keeps.of_mem (State.wrG_mem ..)) _ _)
/-- What a paired store writes keeps memory in canonical form, whether it is buffered, held, a shadow's, or made at the homes. -/
theorem paired (s : State) (torn : Bool) (d : BitVec 7) (a b : BitVec 6) : s.Runs (s.paired torn d a b) := by
  unfold State.paired
  extract_lets ga gb ctl w pp tp rows p reached cells record scope
  refine iteProp (done (.refl s)) (ite (illegalOperand s) (ite (raise ..) (ite (raise ..) ?_)))
  split
  · exact raise ..
  · exact raise ..
  · next pa ta pb tb h1 h2 =>
    extract_lets parts write go
    refine inTurn _ (ite (waitFor ..) (ite (compareForced s) (ite (waitFor ..) ?_)))
    have hw : ∀ t : State, t.Keeps (write t) := fun t => by
      have hf : t.Keeps (p.foldl (fun s e => s.forgetUnseen e.2.key (8 * w)) t) := Keeps.foldl (fun u e => Keeps.forgetUnseen ..) p t
      refine hf.trans (Keeps.ite (Keeps.foldl (fun u e => Keeps.of_mem (State.bufferWrite_mem ..)) _ _)
        (Keeps.ite (Keeps.of_mem (State.setRepl_mem ..)) (Keeps.ite (Keeps.giveUps ..) ?_)))
      generalize p.foldl (fun s e => s.forgetUnseen e.2.key (8 * w)) t = u
      extract_lets v x
      have hv : u.Keeps v := Keeps.giveUps u p
      have hx : v.Keeps x := Keeps.ite (Keeps.pairTorn ..) (Keeps.pairCommit ..)
      exact (hv.trans hx).trans (Keeps.foldl (fun u e => Keeps.of_mem (State.unbuffer_mem ..)) _ x)
    have hg : s.Runs go := stored (Keeps.releasingHere s scope p hw) scope _ p _
    split
    · exact waitFor ..
    · split
      · exact raiseAddr ..
      · exact afterDemands _ (ite (compareFirst rfl _ (afterLeader hg)) hg)
  · exact illegalOperand s
theorem execMma (s : State) (st c : BitVec 3) (f : BitVec 4) (a b : BitVec 7) : s.Runs (execMma st c f a b s) :=
  vector (checked (ite (raise ..) (done (Keeps.of_mem (State.toMatrix_mem ..)))))
theorem execMdrain (s : State) (st : BitVec 3) (d : BitVec 7) (t : BitVec 4) (c : BitVec 3) (b : BitVec 6) :
    s.Runs (execMdrain st d t c b s) := by
  have h : ((List.range 8).foldl (fun s' i => s'.mark (.v (d.toNat + i)) s.active latVar) s).mem = s.mem := State.foldl_mem (by simp) _ s
  exact vector (checked (done (Keeps.of_mem (by simp [h]))))
theorem execMdrs (s : State) (st : BitVec 3) (d : BitVec 6) (t : BitVec 4) (c : BitVec 3) : s.Runs (execMdrs st d t c s) :=
  ite (illegalOperand s) (ite (raise ..) (ite (raise ..) (done (Keeps.of_mem (by simp)))))
theorem execMdrp (s : State) (st : BitVec 3) (d : BitVec 6) (c : BitVec 3) : s.Runs (execMdrp st d c s) :=
  checked (inTurn _ (afterLeader (done (Keeps.of_mem (by simp)))))
theorem execMcbk (s : State) (st : BitVec 3) (n : BitVec 2) (a b : BitVec 6) : s.Runs (execMcbk st n a b s) := by
  unfold Machine.execMcbk
  extract_lets x l
  refine access fun p => withRoom _ ?_
  extract_lets t data u c book
  have ht : s.Keeps t := Keeps.prepareAll s 128 p
  exact done (ht.trans (Keeps.of_mem (by simp [u])))

end State.Runs

end Sys2Proof.Machine

/-! PROOFS. The same of control flow, groups and bins, launches, engine commands, synchronisation and barriers at issue (R140 to R159, R315 to
R333, R398 to R421). -/

namespace Sys2Proof.Machine

namespace State.Keeps
variable {s t : State}

theorem physWriteRun (s : State) (pa : Nat) (l : List Byte) : s.Keeps (s.physWriteRun pa l) := of_works (.physWriteRun ..)
theorem keepCheckpoint (s : State) : s.Keeps s.keepCheckpoint := by
  unfold State.keepCheckpoint
  split
  · exact physWriteRun ..
  · exact refl s
theorem at_ (s : State) (g k : Nat) : s.Keeps (s.at_ g k) := of_mem rfl
theorem startBin (s : State) (core k : Nat) : s.Keeps (s.startBin core k) := by
  unfold State.startBin
  extract_lets b gid mask t old u
  have ht : s.Keeps t := of_mem rfl
  have hu : t.Keeps u := (of_mem (by simp)).trans (keepCheckpoint _)
  exact (ht.trans hu).trans (of_mem (by simp))
theorem startOrWait (s : State) (core k : Nat) : s.Keeps (s.startOrWait core k) :=
  ite (refl s) (ite (startBin ..) (of_mem (State.setBin_mem ..)))
theorem flushTeam (s : State) (core team : Nat) : s.Keeps (s.flushTeam core team) :=
  foldl (fun t k => ite (startOrWait ..) (refl t)) _ s
theorem findBin {core team k : Nat} {entry : Addr} (h : s.findBin core team entry = some (k, t)) : s.Keeps t := by
  unfold State.findBin at h
  split at h
  · obtain ⟨-, rfl⟩ := h
    exact refl s
  · split at h
    · obtain ⟨-, rfl⟩ := h
      exact refl s
    · split at h
      · obtain ⟨-, rfl⟩ := h
        exact startBin ..
      · cases h
theorem placeThread {entry : Addr} {g : List DWord} {args : BitVec 128} (h : s.placeThread entry g args = some t) : s.Keeps t := by
  unfold State.placeThread at h
  extract_lets core at h
  split at h
  · cases h
  · next k u hu =>
    obtain rfl := Option.some.inj h
    exact (findBin hu).trans ((of_mem (State.setBin_mem ..)).trans (iteProp (startOrWait ..) (refl _)))
theorem placeThreads (entry : Addr) (g : List DWord) (l : List (BitVec 128)) (s : State) : s.Keeps (State.placeThreads entry g l s).1 := by
  induction l generalizing s with
  | nil => exact refl s
  | cons a l ih =>
    unfold State.placeThreads
    split
    · next t ht => exact (placeThread ht).trans (ih t)
    · exact refl s
theorem endGroup (s : State) : s.Keeps s.endGroup := by
  unfold State.endGroup
  extract_lets a team core g c b d e
  have hd : d.mem = s.mem := (State.leaveBarriers_mem ..).trans ((State.setGrp_mem ..).trans (State.finishMatrix_mem ..))
  have he : d.Keeps e := ite (flushTeam ..) (refl d)
  exact ((of_mem hd).trans he).trans (ite (of_mem (State.setTeamAt_mem ..)) (refl e))
theorem endSplit (s : State) : s.Keeps s.endSplit := by
  unfold State.endSplit
  extract_lets a b g c d
  have hd : d.mem = s.mem := (State.leaveBarriers_mem ..).trans ((State.setGrp_mem ..).trans (State.leaveHolds_mem ..))
  exact (of_mem hd).trans (ite (refl d) (endGroup d))
theorem endLanes (s : State) : s.Keeps s.endLanes := by
  unfold State.endLanes
  extract_lets handler x stack a y b
  have hb : a.Keeps b := by
    clear_value stack
    cases stack with
    | nil => exact endSplit a
    | cons e r => exact of_mem (State.setSpl_mem ..)
  exact ((of_mem (State.retire_mem s)).trans hb).trans (ite (of_mem (State.endHandler_mem b)) (refl b))
theorem readRecord (s : State) (a : DWord) : s.Keeps (s.readRecord a).1 := by
  refine foldl_pair (fun x k => ?_) (List.range 3) (s, 0)
  exact readHome x.1 _ 128
theorem finishRecord (s : State) (sub : Submission) (status detail : Nat) : s.Keeps (s.finishRecord sub status detail) := by
  unfold State.finishRecord
  extract_lets t
  have ht : s.Keeps t := by
    unfold t
    split
    · exact of_works (.physWrite ..)
    · exact of_mem (State.logDevice_mem ..)
  exact ht.trans (of_mem (State.numberDone_mem ..))
theorem submit (s : State) (r asid : Nat) (sub : Submission) (pcap : Nat) : s.Keeps (s.submit r asid sub pcap) := by
  unfold State.submit
  extract_lets sub' cp t
  have ht : s.Keeps t := of_mem rfl
  refine ht.trans ?_
  split
  · exact finishRecord ..
  · exact finishRecord ..
  · split
    · exact finishRecord ..
    · exact of_mem (by rfl)
theorem launchRecord (s : State) (r : Nat) : s.Keeps (s.launchRecord r).1 := by
  unfold State.launchRecord
  extract_lets q x n t cp u after
  have hu : s.Keeps u := of_mem rfl
  split
  · exact of_mem (State.setQueue_mem ..)
  · split
    · exact of_mem (State.setQueue_mem ..)
    · exact hu.trans (submit ..)
theorem arriveBarrier (s : State) (level num : Nat) : s.Keeps (s.arriveBarrier level num) := by
  unfold State.arriveBarrier
  extract_lets a m k b t c
  have ha : s.Keeps a := ite (of_works (.writeBackDirty ..)) (refl s)
  exact ha.trans (of_mem (by simp))
theorem noticeStore (s : State) (t : Target) : s.Keeps (s.noticeStore t) := by
  unfold State.noticeStore
  split
  · exact ite (refl s) (of_bytes rfl rfl)
  · exact refl s
theorem shadowStore (s : State) (t : Target) (x : Nat) : s.Keeps (s.shadowStore t x) := by
  unfold State.shadowStore
  split
  · exact scratchWrite ..
  · exact ite (dropShadow ..) ((shadowWrite ..).trans (of_mem (State.setCore_mem ..)))
theorem drainCore (s : State) (core : Nat) : s.Keeps (s.drainCore core).1 := (of_works (.writeBackDirty ..)).trans (of_mem rfl)
theorem acquireRecorded (s : State) : s.Keeps s.acquireRecorded := of_works (.acquireRecorded ..)
theorem acquireAt (s : State) (scope : Nat) (lines : List Nat) : s.Keeps (s.acquireAt scope lines) := of_works (.acquireAt ..)
theorem commitHeader (s : State) (t : TileRef) (h g : Header) : s.Keeps (s.commitHeader t h g) := of_works (.commitHeader ..)

end State.Keeps

namespace State.Runs
variable {s t : State} {o : Out}

theorem execExit (s : State) (st : BitVec 3) : s.Runs (execExit st s) := by
  unfold Machine.execExit
  split
  · exact waitFor ..
  · extract_lets a r t
    have ht : t.mem = s.mem := by
      unfold t a
      split
      · exact (State.setRepl_mem ..).trans (State.finishMatrix_mem ..)
      · rfl
    exact compareFirst ht _ (next ((Keeps.of_mem ht).trans (Keeps.endLanes t)))
theorem execSpawn (s : State) (st : BitVec 3) (k : BitVec 4) (f : BitVec 15) : s.Runs (execSpawn st k f s) := by
  unfold Machine.execSpawn
  extract_lets target ker args g
  refine vector (checked (inTurn _ (afterAtomics _ (compareFirst rfl _ (afterLeader ?_)))))
  have h := Keeps.placeThreads target g args s
  generalize State.placeThreads target g args s = x at h ⊢
  exact ite (done h) (next (h.trans (Keeps.of_mem (State.waitFor_mem ..))))
theorem execBflush (s : State) (st : BitVec 3) : s.Runs (execBflush st s) := inTurn _ (afterLeader (done (Keeps.flushTeam ..)))
/-- The launch of a record, made once for a set of replicas (R153, R386). -/
theorem launchOnce (s : State) (e : LogEntry) (r : List (BitVec 256)) (g : BitVec 6) :
    s.Runs (s.once e (fun t => let (u, n) := t.launchRecord (recordOf r); (u, { e with result := n }))
      fun t e => (t.wrG g.toNat e.result latVar).done) := by
  refine once (fun t => ?_) fun t e => done (Keeps.of_mem (State.wrG_mem ..))
  have hl := Keeps.launchRecord t (recordOf r)
  generalize t.launchRecord (recordOf r) = x at hl ⊢
  exact hl
theorem execLaunch (s : State) (st : BitVec 3) (g : BitVec 6) : s.Runs (execLaunch st g s) := by
  unfold Machine.execLaunch
  extract_lets a l inLease p u
  refine ite (raise ..) ?_
  split
  · exact raise ..
  · refine inTurn _ (waits _ _ _ _ ?_)
    split
    · exact raiseAddr ..
    · refine afterAtomics _ (compareFirst rfl _ ?_)
      have hu : s.Keeps u := Keeps.of_works (.writeBackDirty ..)
      cases s.agreedRecord with
      | some l => exact after hu (launchOnce ..)
      | none =>
        have hr := Keeps.readRecord u a
        generalize u.readRecord a = x at hr ⊢
        exact after (hu.trans hr) (launchOnce ..)

theorem operandTests (l : List OperandTest) (h : s.Runs o) : s.Runs (s.operandTests l o) := by
  unfold State.operandTests
  split
  · exact raise ..
  · split
    · exact raise ..
    · exact h
theorem afterHeld (h : s.Runs o) : s.Runs (s.afterHeld o) := ite (compareForced s) h
theorem enqueued (s : State) (ctx : Nat) (c : Cmd) : s.Runs (s.enqueue ctx c).done := done (Keeps.of_mem (State.enqueue_mem ..))
theorem enqueueOnce (s : State) (e : LogEntry) (ctx : Nat) (c : Cmd) : s.Runs (s.enqueueOnce e ctx c) :=
  inTurn _ (compareFirst rfl _ (once (fun t => .refl t) fun t _ => enqueued ..))
theorem postCollective (s : State) (op : Instr) (q g : Nat) (u : ControlUse) : s.Runs (s.postCollective op q g u) :=
  checked (operandTests _ (enqueueOnce ..))
theorem execCpy (s : State) (st q : BitVec 3) (c : BitVec 1) (g : BitVec 6) : s.Runs (execCpy st q c g s) :=
  checked (operandTests _ (afterHeld (enqueued ..)))
theorem execCpyt (s : State) (st q : BitVec 3) (c : BitVec 1) (g : BitVec 6) : s.Runs (execCpyt st q c g s) :=
  checked (operandTests _ (afterHeld (enqueued ..)))
theorem execCpyx (s : State) (st q : BitVec 3) (c : BitVec 1) (g : BitVec 6) (v : BitVec 7) : s.Runs (execCpyx st q c g v s) :=
  checked (operandTests _ (afterHeld (enqueued ..)))
theorem execCpym (s : State) (st q : BitVec 3) (c : BitVec 1) (g : BitVec 6) : s.Runs (execCpym st q c g s) :=
  iteProp (raise ..) (checked (operandTests _ (afterHeld (enqueued ..))))
theorem execCpyr (s : State) (st q : BitVec 3) (c : BitVec 1) (g : BitVec 6) : s.Runs (execCpyr st q c g s) :=
  iteProp (raise ..) (checked (operandTests _ (enqueueOnce ..)))
theorem execCsred (s : State) (st q : BitVec 3) (g : BitVec 6) (v : BitVec 7) : s.Runs (execCsred st q g v s) :=
  checked (operandTests _ (enqueueOnce ..))
theorem execTlw (s : State) (st : BitVec 3) (g : BitVec 6) (x : BitVec 2) : s.Runs (execTlw st g x s) :=
  checked (inTurn _ (afterLeader (iteProp (waitFor ..) (ite (done (.refl s)) (ite (compareForced s)
    (done ((Keeps.acquireAt s 4 []).trans (Keeps.of_mem (by simp)))))))))

end State.Runs

end Sys2Proof.Machine

/-! PROOFS. The same of synchronisation: fences, acquiring and releasing accesses, barriers, ready marks and clocks (R398 to R421). -/

namespace Sys2Proof.Machine

namespace State.Runs
variable {s t : State} {o : Out}

theorem execFence (s : State) (st : BitVec 3) (k : BitVec 2) (e : BitVec 3) : s.Runs (execFence st k e s) := by
  unfold Machine.execFence
  extract_lets scope acquires releases both ready a b
  have hr : ∀ {o : Out}, s.Runs o → s.Runs (ready o) := fun h => by
    refine ite (waitFor ..) ?_
    split
    · exact waitFor ..
    · exact ite (waitFor ..) (ite (afterAtomics _ (afterDemands _ h)) h)
  have ha : s.Keeps a := Keeps.ite (.of_works (.writeBackDirty ..)) (.refl s)
  have hb : a.Keeps b := Keeps.ite (Keeps.acquireRecorded a) (.refl a)
  have hd : s.Runs (if releases then b.setSpl { b.spl with rel := b.releaseScope (some scope) } else b).done :=
    done ((ha.trans hb).trans (Keeps.ite (Keeps.of_mem (State.setSpl_mem ..)) (.refl b)))
  have hl : s.Runs ((if acquires then s.afterLeader else id)
      (if releases then b.setSpl { b.spl with rel := b.releaseScope (some scope) } else b).done) := by
    split
    · exact afterLeader hd
    · exact hd
  refine inTurn _ (hr ?_)
  split
  · exact compareFirst rfl _ hl
  · exact hl
theorem forwardedOr {take : State → DWord → Out} {again : State → State × DWord} (ht : ∀ (t : State) (v : DWord), s.Keeps t → s.Runs (take t v))
    (ha : ∀ t : State, t.Keeps (again t).1) : s.Runs (s.forwardedOr take again) := by
  unfold State.forwardedOr
  extract_lets r n
  split
  · exact ht _ _ (Keeps.of_mem (State.setRepl_mem ..))
  · exact ite (ht _ _ (ha s)) (same (by simp))
theorem lda (s : State) (scope d a b : Nat) : s.Runs (s.lda scope d a b) := by
  unfold State.lda
  extract_lets x t v
  refine access fun p => afterPhases _ _ _ (ite (forwardedOr (fun u v h => ?_) fun u => ?_) (afterDemands _ ?_))
  · exact done ((h.trans (Keeps.of_mem (State.wrG_mem ..))).trans (Keeps.selfInvalidate ..))
  · exact (Keeps.of_mem (State.leaderView_mem u)).trans ((Keeps.polled ..).trans (Keeps.of_mem (State.at_mem ..)))
  · extract_lets u w
    have ht : s.Keeps t := Keeps.polled ..
    have hu : t.Keeps u := Keeps.acquireAt ..
    have hw : u.Keeps w := Keeps.ite (Keeps.of_mem (State.forward_mem ..)) (.refl u)
    exact done (((ht.trans hu).trans hw).trans (Keeps.of_mem (State.wrG_mem ..)))
theorem stl (s : State) (own d a b : Nat) : s.Runs (s.stl own d a b) := by
  unfold State.stl
  extract_lets x scope at_
  refine access fun p => withRoom _ (afterAtomics _ (afterDemands _ (compareFirst rfl _ (afterLeader ?_))))
  extract_lets t
  have ht : s.Keeps t := Keeps.ite (Keeps.shadowStore ..)
    (Keeps.releasing s scope p fun u => (Keeps.writeHome ..).trans (Keeps.noticeStore ..))
  exact done (ht.trans (Keeps.of_mem (by simp)))
theorem execAcqr (s : State) (st : BitVec 3) (g h : BitVec 6) : s.Runs (execAcqr st g h s) := by
  refine checked (inTurn _ (once (fun t => ?_) fun t e => ?_))
  · split
    · exact Keeps.drainCore ..
    · exact .refl t
  · exact done ((Keeps.selfInvalidate ..).trans (Keeps.of_mem (State.wrG_mem ..)))
theorem finishWait (s : State) (level num : Nat) (phase : Word) (own : Bool) : s.Runs (s.finishWait level num phase own) := by
  unfold State.finishWait
  extract_lets b a engines c reached d r e
  have ha : s.Keeps a := Keeps.ite (Keeps.of_mem (State.setBarrier_mem ..)) (.refl s)
  have hc : a.Keeps c := Keeps.ite (Keeps.selfInvalidate ..) (.refl a)
  have hd : c.Keeps d := Keeps.ite (Keeps.of_mem (State.waited_mem ..)) (.refl c)
  have he : d.Keeps e := Keeps.ite (Keeps.of_mem (State.setRepl_mem ..)) (.refl d)
  exact done (((ha.trans hc).trans hd).trans he)
theorem waitPhase (s : State) (level num : Nat) (phase : Word) (own : Bool) : s.Runs (s.waitPhase level num phase own) :=
  ite (waitFor ..) (finishWait ..)
theorem arrival {level num : Nat} {k : State → Out} (h : ∀ t : State, t.Runs (k t)) : s.Runs (s.arrival level num k) :=
  checked (inTurn _ (afterAtomics _ (compareFirst rfl _ (afterLeader (after (Keeps.arriveBarrier ..) (h _))))))
theorem execBar (s : State) (st : BitVec 3) (l : BitVec 2) (n : BitVec 4) : s.Runs (execBar st l n s) := by
  unfold Machine.execBar
  split
  · exact waitPhase ..
  · exact arrival fun t => waitPhase ..
theorem execBarw (s : State) (st : BitVec 3) (l : BitVec 2) (n : BitVec 4) : s.Runs (execBarw st l n s) := by
  unfold Machine.execBarw
  split
  · exact waitPhase ..
  · exact checked (inTurn _ (afterLeader (waitPhase ..)))
theorem execBarc (s : State) (st : BitVec 3) (n : BitVec 4) (g : BitVec 6) : s.Runs (execBarc st n g s) :=
  checked (inTurn _ (afterLeader (done (Keeps.of_mem (State.setBarrier_mem ..)))))
theorem onTile {k : Need} {x reserved : DWord} {go : TileRef → Header → Out} (h : ∀ t e, s.Runs (go t e)) :
    s.Runs (s.onTile k x reserved go) := by
  refine checked ?_
  split
  · exact raise ..
  · exact illegalOperand s
  · split
    · exact illegalOperand s
    · exact ite (raise ..) (ite (raise ..) (h _ _))
theorem execTrdy (s : State) (st : BitVec 3) (g : BitVec 6) : s.Runs (execTrdy st g s) := by
  unfold Machine.execTrdy
  extract_lets x
  refine onTile fun t h => inTurn _ (afterAtomics _ (compareFirst rfl _ (afterLeader (ite (waitFor ..) (ite (done (.refl s)) ?_)))))
  split
  · exact waitFor ..
  · extract_lets u e v
    have hu : s.Keeps u := Keeps.foldl (fun w l => .of_works (.writeBack ..)) _ s
    have hv : u.Keeps v := Keeps.commitHeader ..
    exact done ((hu.trans hv).trans (Keeps.ite (.refl v) (Keeps.of_mem (by simp))))
theorem execTwt (s : State) (st : BitVec 3) (g : BitVec 6) : s.Runs (execTwt st g s) :=
  onTile fun t h => inTurn _ (afterLeader (ite (waitFor ..) (afterPhases _ _ _ (done (Keeps.of_mem (State.dropClean_mem ..))))))
theorem execSnuff (s : State) (st : BitVec 3) (g : BitVec 6) : s.Runs (execSnuff st g s) :=
  checked (inTurn _ (once (fun t => Keeps.of_mem rfl) fun t e => done (.refl t)))
theorem execDclk (s : State) (st : BitVec 3) (g : BitVec 6) : s.Runs (execDclk st g s) :=
  ite (inTurn _ (done (Keeps.of_mem (State.wrG_mem ..)))) (ite
    (forwardedOr (fun t v h => done (h.trans (Keeps.of_mem (State.wrG_mem ..)))) fun t => .refl t)
    (inTurn _ (done (Keeps.of_mem (by simp)))))
theorem execDsync (s : State) (st : BitVec 3) : s.Runs (execDsync st s) := by
  refine ite (done (.refl s)) (ite (afterLeader (done (Keeps.selfInvalidate ..))) ?_)
  split
  · exact iteProp (done (Keeps.selfInvalidate ..)) (waitFor ..)
  · exact inTurn _ (waitFor ..)

end State.Runs

end Sys2Proof.Machine

/-! PROOFS. Every instruction of a word goes on (R106, R108, R436 to R442), and keeps memory in canonical form. -/

namespace Sys2Proof.Machine

namespace State.Runs
variable {s t : State} {o : Out}

theorem bitwise (s : State) (f : Nat → Word) (d : Nat) : s.Runs (s.bitwise f d) := vector (done (Keeps.of_mem (State.wrV_mem ..)))
theorem compare (s : State) (c : Cond) (d a b : Nat) : s.Runs (s.compare c d a b) := by
  refine vector ?_
  split
  · exact illegalOperand s
  · exact done (Keeps.of_mem (State.wrP_mem ..))
theorem convert (s : State) (dst : Ty) (d a : Nat) : s.Runs (s.convert dst d a) := by
  refine vector ?_
  split
  · exact illegalOperand s
  · exact done (Keeps.of_mem (State.convertEffect_mem ..))
theorem crossMove (s : State) (src : Nat → Nat → Nat) (d a b : Nat) : s.Runs (s.crossMove src d a b) :=
  vector (checked (done (Keeps.of_mem (State.wrV_mem ..))))
theorem reduction (s : State) (rsr : Bool) (f : Ty → Rounding → Nat → Nat → Nat → Nat) (d a : Nat) : s.Runs (s.reduction rsr f d a) := by
  unfold State.reduction
  split
  · exact illegalOperand s
  · exact done (Keeps.of_mem (State.reduceEffect_mem ..))
theorem lanePred (s : State) (d : Nat) (x : Mask) : s.Runs (s.lanePred d x) := vector (done (Keeps.of_mem (State.wrP_mem ..)))
theorem groupResult (s : State) (d : BitVec 6) (x : DWord) : s.Runs (s.groupResult d x) := done (Keeps.of_mem (State.wrG_mem ..))
theorem execVtwosum (s : State) (st : BitVec 3) (d a b : BitVec 7) : s.Runs (execVtwosum st d a b s) := by
  refine vector ?_
  split
  · exact illegalOperand s
  · exact done (Keeps.of_mem (State.twoSumEffect_mem ..))
theorem execBrd (s : State) (st c : BitVec 3) (f : BitVec 21) : s.Runs (execBrd st c f s) := by
  unfold Machine.execBrd
  extract_lets x t rest target plain whole
  refine ite (done (Keeps.of_mem (State.setSpl_mem ..))) (ite (same (by simp [plain])) ?_)
  split
  · exact illegalOperand s
  · split
    · exact same (State.divide_mem ..)
    · exact checked (same (by simp))
theorem execRet (s : State) (st : BitVec 3) : s.Runs (execRet st s) := by
  unfold Machine.execRet
  extract_lets x
  split
  · exact checked (same (by simp))
  · exact illegalOperand s
theorem execSafe (s : State) (st : BitVec 3) (n : BitVec 12) : s.Runs (execSafe st n s) := by
  unfold Machine.execSafe
  extract_lets passed n t
  have hp : ∀ (u : State) (k : Option Nat), u.Runs (passed u k) := fun u k => next (Keeps.ite (Keeps.of_mem (by simp)) (Keeps.of_mem (by simp)))
  have ht : t.mem = s.mem := State.shareStop_mem ..
  have hs : ∀ k, s.Runs (passed t k) := fun k => after (Keeps.of_mem ht) (hp t k)
  exact checked (ite (hp s none) (ite (hp s _) (ite (compareFirst ht _ (hs _)) (hs none))))
theorem execTret (s : State) (st : BitVec 3) : s.Runs (execTret st s) := by
  unfold Machine.execTret
  split
  · exact checked (same (State.returnFromTrap_mem s))
  · exact illegalOperand s

/-- Whatever the operands and the state, the instruction has its effect, waits or traps, and memory in canonical form is so still. -/
theorem exec (i : Instr) (s : State) (h : i.coded = true) : s.Runs (exec i s) := by
  cases i with
  | vadd | vsub | vmul | vmulh | vfma | vfms | vfnma | vdiv | vmin | vmax | vabs | vneg | vrcp | vsqrt | vrsq | vexp2 | vlog2 => exact typed ..
  | vmix | vsel | vmov | vbc | vbcHi | vand | vor | vxor | vnot | vshl | vshr | vsar | vclz | vpop | vpack => exact bitwise ..
  | vcmpEq | vcmpNe | vcmpLt | vcmpLe | vcmpGt | vcmpGe | vcmpUn => exact compare ..
  | vcvtF32 | vcvtBf16 | vcvtF16 | vcvtE4m3 | vcvtE5m2 | vcvtI8 | vcvtN8 | vcvtI32 | vcvtN32 | vcvtI16 | vcvtN16 => exact convert ..
  | vbfly => exact crossMove s (fun l n => l ^^^ n) ..
  | vrot => exact crossMove s (fun l n => (l + n) % 32) ..
  | vbcl => exact crossMove s (fun _ n => n) ..
  | vredAdd | vredMin | vredMax => exact reduction ..
  | vtwosum st => exact execVtwosum s st ..
  | vunpk => exact vector (done (Keeps.of_mem ((State.wrV_mem ..).trans (State.wrV_mem ..))))
  | vperm => exact vector (checked (done (Keeps.of_mem (State.wrV_mem ..))))
  | vlane => exact checked (done (Keeps.of_mem (State.wrG_mem ..)))
  | pand | por | pxor | pnot | pmask => exact lanePred ..
  | qany | qall | gcmpEq | gcmpNe | gcmpLt | gcmpLe | gcmpLtn | gcmpLen | qand | qor | qxor | qnot => exact done (Keeps.of_mem (State.wrQ_mem ..))
  | pballot | tlr | rsig => exact done (Keeps.of_mem (State.wrG_mem ..))
  | gmov | gadd | gsub | gmul | gmulh | gand | gor | gxor | gshl | gshr | gsar | gmin | gmax | gminn | gmaxn | gsel | gclz | gpop | gmode
  | gldi | gldh | gaddi => exact groupResult ..
  | smode | smodi => exact checked (done (Keeps.of_mem (by simp)))
  | br => exact same (State.retireTo_mem ..)
  | brq => exact ite (same (State.retireTo_mem ..)) (done (.refl s))
  | brd st => exact execBrd s st ..
  | rcv => exact done (Keeps.of_mem (State.setSpl_mem ..))
  | call => exact checked (same (by simp))
  | ret st => exact execRet s st ..
  | jmpg => exact checked (same (by simp))
  | exit st => exact execExit s st ..
  | nop => exact done (.refl s)
  | pdem => exact same (by simp)
  | safe st => exact execSafe s st ..
  | spawn st => exact execSpawn s st ..
  | bflush st => exact execBflush s st ..
  | launch st => exact execLaunch s st ..
  | role => exact done (Keeps.of_mem (by simp))
  | trap => exact same (State.fault_mem ..)
  | tret st => exact execTret s st ..
  | rdsp => exact checked (ite (done (Keeps.of_mem (State.wrV_mem ..))) (ite (done (Keeps.of_mem (State.wrV_mem ..))) (done (Keeps.of_mem (State.wrG_mem ..)))))
  | wrsp => exact checked (done (Keeps.of_mem (State.setGrp_mem ..)))
  | ldB8 | ldB16 | ldB32 | ldB64 | ldB128 => exact vectorLoad ..
  | stB8 | stB16 | stB32 | stB64 | stB128 => exact vectorStore ..
  | ldPollB32 | ldPollB64 => exact pollLoad ..
  | gld st => exact execGld s st ..
  | gst st => exact execGst s st ..
  | ldSys st => exact execLdSys s st ..
  | stSys st => exact execStSys s st ..
  | atomAdd | atomSub | atomMin | atomMax | atomMinn | atomMaxn | atomAnd | atomOr | atomXor | atomExch | atomCas | atomfFaddF32
  | atomfFaddBf16x2 | atomfFminF32 | atomfFmaxF32 | cas128 | redAdd | redSub | redMin | redMax | redMinn | redMaxn | redAnd | redOr
  | redXor | redFaddF32 | redFaddBf16x2 | redFminF32 | redFmaxF32 => exact atomic ..
  | sfil | sscl | soff | sclp | spmt | smat => exact shadeCommand ..
  | shdr st => exact execShdr s st ..
  | pst => exact paired ..
  | mma => exact execMma ..
  | mscale => exact vector (done (Keeps.of_mem (State.toMatrix_mem ..)))
  | mzero | mzeroOpen => exact done (Keeps.of_mem (State.toMatrix_mem ..))
  | mdrain => exact execMdrain ..
  | mdrs => exact execMdrs ..
  | mdrp => exact execMdrp ..
  | mcbk => exact execMcbk ..
  | cpy => exact execCpy ..
  | cpyt => exact execCpyt ..
  | cpyx => exact execCpyx ..
  | cpym => exact execCpym ..
  | cpyr => exact execCpyr ..
  | collAr | collRs | collAg => exact postCollective ..
  | csred => exact execCsred ..
  | tlw st => exact execTlw s st ..
  | cprio => exact checked (done (Keeps.of_mem (State.setTeam_mem ..)))
  | fence st => exact execFence s st ..
  | ldaGrp | ldaTeam | ldaClu | ldaDie | ldaDev | ldaSys => exact lda ..
  | stlGrp | stlTeam | stlClu | stlDie | stlDev | stlSys => exact stl ..
  | acqr st => exact execAcqr s st ..
  | bar st => exact execBar s st ..
  | bara => exact arrival fun t => done (.refl t)
  | barw st => exact execBarw s st ..
  | barc st => exact execBarc s st ..
  | trdy st => exact execTrdy s st ..
  | twt st => exact execTwt s st ..
  | snuff st => exact execSnuff s st ..
  | dclk st => exact execDclk s st ..
  | dsync st => exact execDsync s st ..
  | rchk => exact compareFirst rfl _ (done (.refl s))
  | _ => cases h

end State.Runs

/-- Settles O7: the lemma above for each instruction that has a word. -/
theorem codedNeverStops : Obligations.CodedNeverStops := by
  unfold Obligations.CodedNeverStops
  intro i s h
  obtain ⟨t, ht, -⟩ := State.Runs.exec i s h
  exact ⟨t, ht⟩

end Sys2Proof.Machine

/-! PROOFS. Poison that a write-back spreads, of the matrix engine's codebook and of the paired store. -/

namespace Sys2Proof.Machine

/-- With the address of line 0x2000 in g1: line 0x2007 is the last of the codebook that is read from there. -/
def spoilingBook : State := spoiling [0x20000]

/-- Refutes O52: a codebook's load writes the line that the L1 holds under another address back, as any load does (R217, log 50). -/
theorem not_matrixIssue : ¬ Obligations.MatrixIssue := by
  unfold Obligations.MatrixIssue
  intro h
  obtain ⟨-, -, -, -, -, -, -, -, -, -, -, hg⟩ := h spoilingBook 0 0 0 0 0 0 1 2 0
  have clear : spoilingBook.accessClear 128 .read anyTarget false false
      ((List.range 8).map fun k => spoilingBook.groupAddr 1 2 + BitVec.ofNat 64 (128 * k)) := by
    unfold State.accessClear
    and_intros <;> decide +kernel
  obtain ⟨u, v, m, hs, -, -, hu⟩ := hg clear (by decide +kernel) (by decide +kernel)
  exact spoilingAt_sound (hs.poison _ (spoilsLine_next (t := (u.setCore _).retire) (by decide +kernel) hu))

end Sys2Proof.Machine

/-! PROOFS. The torn pair of two writes, whose release of the core's lines spreads poison as well. -/

namespace Sys2Proof.Machine

/-- `pst v0, g1, g2`. -/
def pstWord : Word := 0b000_01101_111_0000000_0000001_0000010
/-- The word stands ready in slot 0, with the addresses of the two tiles of `spoiling` and pitches of 8 and 16 bytes. -/
def spoilingPair : State :=
  let s := spoiling [0x30000, 0x38000, 0x00100008]
  s.setSpl { s.spl with word := some pstWord }

/-- The state in which the torn pair issues. -/
def spoilingTorn : State := ((spoilingPair.at_ 0 0).beginIssue 0).noteSolid pstWord

theorem spoilingTorn_pairs : spoilingTorn.pairs 0 1 2 0x100000 0x108000 firstTile secondTile where
  active := by decide +kernel
  plain := by decide +kernel
  control := by decide +kernel
  aligned := by decide +kernel
  outside := by decide +kernel
  first := ⟨tiledLeaf, 0x30000, by decide +kernel⟩
  second := ⟨tiledLeaf, 0x38000, by decide +kernel⟩
  tiles := by decide +kernel
  clear := by decide +kernel

theorem State.back_settleGroup_mem (s t : State) : (s.back t.settleGroup).mem = t.mem := by simp [State.back]

/-- What the statement says of the memory after a torn pair. -/
theorem tornPair_completesMem (h : Obligations.ProtocolEvents) (s : State) (group va vb k : Nat) (word : Word) (st : BitVec 3) (d : BitVec 7)
    (a b : BitVec 6) (p1 p2 : Nat) (ta tb : TileRef) (hk : (s.at_ group 0).pairSlot va vb = some k)
    (hw : (s.at_ group k).wordAt k = some word) (ha : (s.at_ group k).accepted word = some (.pst st d a b)) (u : State)
    (hu : u = ((s.at_ group k).beginIssue (word.extractLsb' 29 3).toNat).noteSolid word) (hd : u.spl.dist < 4096)
    (he : u.early (.pst st d a b) = false) (hp : u.pairs d a b p1 p2 ta tb) :
    ∃ t y L S, exec (.pairTorn group va vb) s = .next (s.back t.settleGroup) ∧ u.completesMem t y {} L S := by
  subst hu
  obtain ⟨-, -, -, -, -, -, -, -, -, -, -, -, -, -, -, hg, -⟩ := h s 0 0 0 0 0 va vb group 0 0 0 0 0 0 0 true
  have hc := hg k word st d a b hk hw ha hd he p1 p2 ta tb hp
  obtain ⟨t, ht, hm⟩ := hc
  exact ⟨t, _, _, _, ht, hm.1⟩

/-- Refutes O59: of the torn pair too the core gives up its copies of the two blocks' lines, and what it writes back spreads poison
(R227, log 50). -/
theorem not_protocolEvents : ¬ Obligations.ProtocolEvents := by
  intro h
  obtain ⟨t, y, L, S, ht, hm⟩ := tornPair_completesMem h spoilingPair 0 0x30000 0x38000 0 pstWord 0 0 1 2 0x100000 0x108000 firstTile
    secondTile (by decide +kernel) (by decide +kernel) (by decide +kernel) spoilingTorn (by decide +kernel) (by decide +kernel)
    (by decide +kernel) spoilingTorn_pairs
  have ht' : 0x2007 ∈ (spoilingPair.back t.settleGroup).mem.poison := spoilsLine_next (by decide +kernel) ht
  rw [State.back_settleGroup_mem] at ht'
  have hp : 0x2007 ∉ spoilingTorn.mem.poison := by decide +kernel
  exact hp (hm.poison _ ht')

end Sys2Proof.Machine

/-! PROOFS. The paired store, whose release of the core's lines spreads poison as well. -/

namespace Sys2Proof.Machine

/-- With the addresses of the two tiles and pitches of 8 and 16 bytes in g1 to g3. -/
def spoilingTiles : State := spoiling [0x30000, 0x38000, 0x00100008]

set_option maxRecDepth 1000 in
theorem spoilsLine_pst : spoilsLine (exec (.pst 0 0 1 2) spoilingTiles) = true := by decide +kernel

/-- Refutes O44: a paired store gives up the core's lines of its tiles, and what it writes back spreads poison (R227, log 50). -/
theorem not_headersAndPairs : ¬ Obligations.HeadersAndPairs := by
  unfold Obligations.HeadersAndPairs
  intro h
  obtain ⟨-, -, hg⟩ := h spoilingTiles 0 0 1 2 0 tiledLeaf 0 0x100000 0x108000 firstTile secondTile
  obtain ⟨t, ht, hm, -⟩ := hg {
    active := by decide +kernel
    plain := by decide +kernel
    control := by decide +kernel
    aligned := by decide +kernel
    outside := by decide +kernel
    first := ⟨tiledLeaf, 0x30000, by decide +kernel⟩
    second := ⟨tiledLeaf, 0x38000, by decide +kernel⟩
    tiles := by decide +kernel
    clear := by decide +kernel }
  exact spoilingAt_sound (hm.poison _ (spoilsLine_next spoilsLine_pst ht))

end Sys2Proof.Machine

/-! PROOFS. A record that replicas agreed on, in a group that has none. -/

namespace Sys2Proof.Machine

/-- Bytes placed in memory, each number `(address, bytes, value)` little-endian. -/
def State.placeNumbers (s : State) (l : List (Nat × Nat × Nat)) : State :=
  let bytes := l.foldl (fun m e => (List.range e.2.1).foldl (fun m k => Store.set m (e.1 + k) (BitVec.ofNat 8 (e.2.2 >>> (8 * k)))) m) s.mem.bytes
  { s with mem := { s.mem with bytes := bytes } }

/-- Page 2 of address space 1 at 0x100000, and a launch record there: the kernel at 0x10000, one cluster of one team of one group, its
completion record at 0x20200. -/
def recordBytes : List (Nat × Nat × Nat) :=
  [(0x400008, 8, 0x401001), (0x401000, 8, 0x402001), (0x402000, 8, 0x403001), (0x403000, 8, 0x404001), (0x404000, 8, 0x405001),
    (0x405020, 16, 0x10000F), (0x100000, 8, 0x10000), (0x10000A, 2, 0x0111), (0x100010, 8, 0x0020000100010001), (0x100020, 8, 0x20200)]
def onlyKernel : KernelEntry :=
  { entry := 0, limit := 16, regs := 32, replicas := 0, det := false, rights := [], bytes := 0, period := 0, handlers := [] }
def onlyImage : Image := { asid := 1, va := 0x20000, text := 0x10000, size := 16, kernels := [onlyKernel], masks := [] }

def emptyEntry : LogEntry := { word := 0, mask := 0, number := 1, ops := [], result := 0, addrs := [], operands := [], results := [] }

/-- A group with the record's address in g1, its queue enabled. It has no replica, but a number that replicas agreed on, and another
record with it. -/
def agreedAlone : State :=
  let s := (State.reset.placeProgram.at_ 0 0).placeNumbers recordBytes
  let s := s.setGrid { s.grid with
    asid := 1, ranges := [{ base := 0x20000, len := 0x10000, rights := 3 }], trans := AMap.set s.grid.trans 2 plainLeaf }
  let s := s.putTlb 0 [{ grid := 0, page := 2, leaf := plainLeaf }]
  let s := s.setRegs (s.regs.setG 1 0x20000)
  let s := (s.setQueue 0 { ctl := 0x9 }).setGrp { s.grp with
    repl := { s.grp.repl with agreed := some 1, operands := some emptyEntry } }
  { s with host := { s.host with asidtab := 0x400000 }, cp := { s.cp with images := [onlyImage] } }
def agreedLines : List DWord := [0x20000, 0x20080, 0x20100]
def agreedRecord : Nat :=
  numberOf 384 fun j => agreedAlone.byteAt ((agreedAlone.placeOf .read (0x20000 + BitVec.ofNat 64 (j / 128 * 128))).phys + j % 128)

theorem agreedAlone_quiet (j : Nat) : agreedAlone.quiet j = true := by
  have messages : agreedAlone.mem.msgs = [] := by decide +kernel
  have stalled : agreedAlone.mem.stalled = [] := by decide +kernel
  have directory : agreedAlone.mem.dir = [] := by decide +kernel
  have caches : ∀ c ∈ agreedAlone.cores, c.2.l1 = [] := by decide +kernel
  have entry : agreedAlone.dirEntry j = {} := by simp [State.dirEntry, directory, AMap.get]
  simp only [State.quiet, messages, stalled, directory, entry, List.all_nil, Bool.true_and, Bool.and_eq_true, List.all_eq_true]
  exact ⟨by decide, fun c hc => by simp [CoreState.idle, caches c hc]⟩

/-- Does an outcome number no further grid? -/
def keepsNextGrid (s : State) (o : Out) : Bool :=
  match o with
  | .next t => t.cp.nextGrid == s.cp.nextGrid
  | _ => false

/-- What the statement says of the launch of a legal record at rest. -/
theorem launch_taken (h : Obligations.SpawnAndLaunch) (s : State) (st : BitVec 3) (g : BitVec 6) (a : DWord) (ha : s.rdG g.toNat = a)
    (lines : List DWord) (hl : lines = (List.range 3).map fun k => a + BitVec.ofNat 64 (128 * k)) (aligned : a.toNat % 128 = 0)
    (leased : ∀ y ∈ lines, ∃ leaf va pa, s.target y .read = .ok (.memory leaf va pa))
    (clear : ∀ e ∈ s.places .read lines, s.needsForced e.2 128 false = false ∧ s.blocked e.2 128 true = none ∧
      s.dataFault 128 .read e.1 e.2 = none) (atomics : s.atomicsOpen s.gid true = false) (det : s.deterministic = false)
    (repl : s.replicated = false) (enabled : qctlEn (s.queue s.grid.sub.queue).ctl = true) (room : s.cp.stored < Config.deviceStore)
    (quiet : ∀ j, s.quiet j = true) (plain : ∀ e ∈ s.places .read lines, ∃ leaf va pa, e.2 = .memory leaf va pa ∧ leaf.tiled = false)
    (r : Nat) (hr : r = numberOf 384 fun j => s.byteAt ((s.placeOf .read (a + BitVec.ofNat 64 (j / 128 * 128))).phys + j % 128))
    (m : Image) (k : KernelEntry) (completion : s.completionOf s.grid.asid r ≠ none)
    (kernel : s.kernelAt s.grid.asid (field r 0 8) = some (m, k)) (legal : ∀ e ∈ s.recordFaults r true k, e.2 = false) :
    ∃ t, exec (.launch st g) s = .next t ∧ t.cp.nextGrid = s.cp.nextGrid + 1 := by
  subst ha hl hr
  obtain ⟨-, -, -, -, -, hg⟩ := h s st 0 0 g
  obtain ⟨t, ht, -, -, -, -, -, -, -, hn⟩ := hg aligned leased clear atomics det repl
  obtain ⟨-, -, hk⟩ := hn enabled room
  obtain ⟨⟨next, -⟩, -⟩ := hk quiet plain m k completion kernel legal
  exact ⟨t, ht, next⟩

/-- Refutes O54: `launch` takes the record that the replicas agreed on without asking whether there are any. -/
theorem not_spawnAndLaunch : ¬ Obligations.SpawnAndLaunch := by
  intro h
  obtain ⟨t, ht, next⟩ := launch_taken h agreedAlone 0 1 0x20000 (by decide +kernel) agreedLines (by decide) (by decide)
    (by
      intro y hy
      have leased : (agreedLines.map fun y => agreedAlone.target y .read) =
        agreedLines.map fun y => .ok (.memory plainLeaf y.toNat (plainLeaf.phys y.toNat)) := by decide +kernel
      exact ⟨_, _, _, List.map_inj_left.mp leased y hy⟩)
    (by decide +kernel) (by decide +kernel) (by decide +kernel) (by decide +kernel) (by decide +kernel) (by decide +kernel)
    agreedAlone_quiet
    (by
      have plain : agreedAlone.places .read agreedLines = agreedLines.map fun y => (y, .memory plainLeaf y.toNat (plainLeaf.phys y.toNat)) := by
        decide +kernel
      intro e he
      rw [plain, List.mem_map] at he
      obtain ⟨y, -, rfl⟩ := he
      exact ⟨_, _, _, rfl, rfl⟩)
    agreedRecord rfl onlyImage onlyKernel (by decide +kernel) (by decide +kernel) (by decide +kernel)
  have kept : keepsNextGrid agreedAlone (exec (.launch 0 1) agreedAlone) = true := by decide +kernel
  rw [ht] at kept
  have same : t.cp.nextGrid = agreedAlone.cp.nextGrid := eq_of_beq kept
  omega

end Sys2Proof.Machine

/-! PROOFS. Engine commands at issue (R285 to R287, R317). -/

namespace Sys2Proof.Machine

/-- Does an operand's address lie where its test wants it? -/
theorem State.scratchFails_eq_false (s : State) (t : OperandTest) : s.scratchFails t = false ↔
    (match s.aperture t.addr with
      | .scratch _ _ => True
      | .outside => False
      | _ => t.inScratch = false) := by
  unfold State.scratchFails
  cases s.aperture t.addr <;> simp

theorem List.find?_at {α : Type} {p : α → Bool} {a b : List α} {x : α} (ha : ∀ y ∈ a, p y = false) (hx : p x = true) :
    (a ++ x :: b).find? p = some x := by
  induction a with
  | nil => simp [hx]
  | cons y r ih =>
    rw [List.forall_mem_cons] at ha
    simp [ha.1, ih ha.2]

/-- An instruction that makes the tests of its operands, and then goes on as `k`. -/
theorem State.testsOperands_of {s : State} {i : Instr} {l : List OperandTest} {k : Out} {go : Prop}
    (h : exec i s = s.operandTests l k) (hg : exec i s = k → go) : s.testsOperands i l go := by
  unfold State.operandTests at h
  refine ⟨fun a t b hl ha ht => ?_, fun aligned => ⟨fun a t b hl ha ht => ?_, fun inside => ?_⟩⟩
  · have hf : l.find? (fun t => !alignedTo t.align t.addr) = some t := by
      rw [hl]
      exact List.find?_at (fun u hu => by simp [alignedTo, ha u hu]) (by simpa [alignedTo] using ht)
    rw [h, hf]
    rfl
  all_goals
    have hf : l.find? (fun t => !alignedTo t.align t.addr) = none := by
      rw [List.find?_eq_none]
      exact fun t ht => by simp [alignedTo, aligned t ht]
    rw [hf] at h
  · have hs : l.find? s.scratchFails = some t := by
      rw [hl]
      refine List.find?_at (fun u hu => (s.scratchFails_eq_false u).mpr (ha u hu)) ?_
      rw [← Bool.not_eq_false, s.scratchFails_eq_false t]
      exact ht
    rw [h, hs]
    rfl
  · have hs : l.find? s.scratchFails = none := by
      rw [List.find?_eq_none]
      exact fun t ht => by rw [(s.scratchFails_eq_false t).mpr (inside t ht)]; decide
    rw [hs] at h
    exact hg h

/-- The command enters its context's queue. -/
theorem State.queues_of {s : State} {i : Instr} {ctx : Nat} {c d : Cmd} (h : exec i s = (s.enqueue ctx c).done)
    (hd : c = d) : s.queues i ctx d := by
  subst hd
  exact h

theorem State.guardOf_eq (s : State) (q : BitVec 3) : s.guardOf q.toNat = if q = 0 then Guard.runs
    else if s.grp.inflight.any (fun e => e.reg == .q q.toNat && e.ready.isNone) then .pending q.toNat
    else if s.rdQ q.toNat then .runs else .discarded := by
  have hq : (q.toNat == 0) = decide (q = 0) := by
    rw [Bool.eq_iff_iff]
    simp [BitVec.toNat_eq]
  simp [State.guardOf, hq]

/-- Of a replica that holds no write of its own the command enters at once. -/
theorem State.afterHeld_of {s : State} (go : Out) (h : s.replicated = true → ∀ w ∈ s.grp.repl.writes, w.engine = true) :
    s.afterHeld go = go := by
  have : (s.replicated && s.grp.repl.writes.any (!·.engine)) = false := by
    rw [Bool.and_eq_false_imp]
    exact fun hr => by simpa using h hr
  simp [State.afterHeld, this]

theorem State.enqueueOnce_of {s : State} (e : LogEntry) (ctx : Nat) (c : Cmd) (hr : s.replicated = false) (hg : s.mayGo) :
    s.enqueueOnce e ctx c = (s.enqueue ctx c).done := by
  have hf : s.follows = false := by simp [State.follows, hr]
  have turn : (s.deterministic && true && !s.follows && !s.hasTurn) = false := by
    rcases hg with hd | ht
    · simp [hd]
    · simp_all [State.myTurn]
  simp only [State.enqueueOnce, State.inTurn, turn]
  simp [State.compareFirst, State.once, hr]

/-- What the tests of a control word ask (R317). -/
theorem controlLegal_iff (u : ControlUse) (x : DWord) : controlLegal u x = true ↔
    ((u.op = false → ctlOp x = 0) ∧ (u.reg = false → ctlReg x = false) ∧ (u.dcnt = false → ctlDcnt x = 0) ∧
      (u.wlog = false → ctlWlog x = 0) ∧ (u.len = false → ctlLen x = 0) ∧ ctlWlog x ≤ 4 ∧ (u.op = true → ctlOp x ≤ 4)) ∧
    (u.matches_ = true → ctlWlog x = if ctlOp x = 1 then 1 else 2) ∧ (u.whole = true → ctlLen x % 2 ^ ctlWlog x = 0) := by
  simp only [controlLegal, Bool.and_eq_true, Bool.or_eq_true, beq_iff_eq, decide_eq_true_eq, Bool.not_eq_true', or_iff_not_imp_left,
    Bool.not_eq_true, Bool.not_eq_false, and_assoc]

/-- An engine command at issue: the tests of its control word, those of its addresses, and the command. -/
theorem State.posts_of {s : State} {i : Instr} {ctx : Nat} {ok : Bool} {legal : Prop} {l : List OperandTest} {c d : Cmd}
    (h : exec i s = s.checked ok (s.operandTests l (s.afterHeld (s.enqueue ctx c).done))) (hl : ok = true ↔ legal) (hd : c = d) :
    (¬legal → s.refusesOperand i) ∧ (legal → s.testsOperands i l
      ((s.replicated = true → ∀ w ∈ s.grp.repl.writes, w.engine = true) → s.queues i ctx d)) := by
  subst hd
  refine ⟨fun hn => State.refusesOperand_of_checked h (hl.not.mpr hn), fun hy => ?_⟩
  rw [State.checked_of_true _ (hl.mpr hy)] at h
  exact State.testsOperands_of h fun hk held => State.queues_of (hk.trans (State.afterHeld_of _ held)) rfl

/-- A once-only command at issue. -/
theorem State.posts_once_of {s : State} {i : Instr} {ctx : Nat} {ok : Bool} {legal : Prop} {l : List OperandTest} {e : LogEntry} {c d : Cmd}
    (h : exec i s = s.checked ok (s.operandTests l (s.enqueueOnce e ctx c))) (hl : ok = true ↔ legal) (hd : c = d) :
    (¬legal → s.refusesOperand i) ∧ (legal → s.testsOperands i l (s.replicated = false → s.mayGo → s.queues i ctx d)) := by
  subst hd
  refine ⟨fun hn => State.refusesOperand_of_checked h (hl.not.mpr hn), fun hy => ?_⟩
  rw [State.checked_of_true _ (hl.mpr hy)] at h
  exact State.testsOperands_of h fun hk hr hg => State.queues_of (hk.trans (State.enqueueOnce_of e ctx c hr hg)) rfl

theorem State.operandBlock_getD (s : State) (g : Nat) {n k : Nat} (h : k < n) : (s.operandBlock g n).getD k 0 = s.rdG (g + k) := by
  simp [State.operandBlock, h]

/-- The destinations of a copy with several (R321). -/
theorem State.operandBlock_drop (s : State) (g d : Nat) :
    (s.operandBlock g (3 + d)).drop 2 = (List.range (1 + d)).map fun k => s.rdG (g + (2 + k)) := by
  have h : (List.range (3 + d)).drop 2 = (List.range (1 + d)).map (2 + ·) := by
    rw [List.range_eq_range', List.drop_range', List.range_eq_range', List.map_add_range']
    congr 1 <;> omega
  simp only [State.operandBlock, ← List.map_drop, h, List.map_map]
  rfl

/-- A shade command at issue (R286, R287). -/
theorem State.shades_of {s : State} {i : Instr} {op : Instr} {d a : Nat} {ops : List DWord} {ok : Bool} {legal : Prop} {c : Cmd}
    (h : exec i s = s.shadeCommand op d a ops ok) (hl : ok = true ↔ legal)
    (hc : c = { num := 0, op := op, gid := 0, slot := 0, ops := s.rdG d :: s.rdG a :: ops }) :
    let ctl := s.rdG a
    let ok := inScratchAperture (s.rdG d) = false ∧ ctl.extractLsb' 37 27 = 0 ∧ (ctl.getLsbD 36 = true ∨ ctl.extractLsb' 32 4 = 0) ∧
      (ctl.extractLsb' 32 4).toNat ≤ 11 ∧ (ctl.extractLsb' 0 32).toNat ≤ 2 ^ 24 ∧ legal
    (¬ok → s.refusesOperand i) ∧ (ok → s.queues i 1 c) := by
  subst hc
  intro ctl all
  have hall : (!inScratchAperture (s.rdG d) && shadeControl ctl && ok) = true ↔ all := by
    have hz : (ctl.extractLsb' 32 4).toNat = 0 ↔ ctl.extractLsb' 32 4 = 0 := by
      rw [← BitVec.toNat_inj]
      rfl
    unfold shadeControl shadeTc shadeType shadeCount
    simp only [Bool.and_eq_true, Bool.or_eq_true, Bool.not_eq_true', beq_iff_eq,
      decide_eq_true_eq, hl, hz, and_assoc, all]
  refine ⟨fun hn => State.refusesOperand_of_checked h (hall.not.mpr hn), fun hy => ?_⟩
  exact State.queues_of (h.trans (State.checked_of_true _ (hall.mpr hy))) rfl

theorem finite32_iff (x : Word) : finite32 x = true ↔ x.extractLsb' 23 8 ≠ 255 := by
  have hx : (x.extractLsb' 23 8).toNat = x.toNat / 2 ^ 23 % 2 ^ 8 := by simp [Nat.shiftRight_eq_div_pow]
  have hw : Fmt.f32.nonFinite x.toNat = decide (x.toNat % 2 ^ 31 > 0x7F7FFFFF) := rfl
  rw [ne_eq, ← BitVec.toNat_inj, hx, finite32, hw, Bool.not_eq_true', decide_eq_false_iff_not]
  change _ ↔ ¬ x.toNat / 2 ^ 23 % 2 ^ 8 = 255
  omega

/-- Settles O50: each command by the rules above. -/
theorem engineCommands : Obligations.EngineCommands := by
  unfold Obligations.EngineCommands
  intro s st q c d a b g v o block guard cmd coll zero w whole typed source posts once n dests ctl x y shade finite
  have hguard : s.guardOf q.toNat = guard := s.guardOf_eq q
  have hcmd : ∀ i k, ({ num := 0, op := i, gid := 0, slot := 0, ops := s.operandBlock g.toNat k, guard := s.guardOf q.toNat } : Cmd) = cmd i k := by
    intro i k
    rw [hguard]
    rfl
  have hcoll : ∀ i, ({ num := 0, op := i, gid := 0, slot := 0, ops := s.operandBlock g.toNat 4, guard := s.guardOf q.toNat, prio := s.team.cprio.toNat } : Cmd) =
      coll i := by
    intro i
    rw [hguard]
    rfl
  refine ⟨?cpy, ?cpyt, ?cpyx, ?far, ?multi, ?reduce, ?gather, ?csred, ?sfil, ?sscl, ?soff, ?sclp, ?spmt, ?smat⟩
  case cpy => exact State.posts_of rfl ((controlLegal_iff ..).trans (and_congr_right fun _ => by simp [whole, w, o, State.operandBlock])) (hcmd _ 3)
  case cpyt => exact State.posts_of rfl ((controlLegal_iff ..).trans (and_iff_left (by simp))) (hcmd _ 4)
  case cpyx =>
    refine State.posts_of rfl ((controlLegal_iff ..).trans (and_iff_left (by simp))) ?_
    rw [← hcmd]
  case far =>
    intro far i hi
    rcases List.mem_pair.mp hi with rfl | rfl
    · exact if_pos far
    · exact if_pos far
  case multi =>
    intro near
    have h1 : (s.operandBlock g.toNat n).getD 1 0 = o 1 := s.operandBlock_getD _ (by omega)
    have h0 : (s.operandBlock g.toNat n).getD 0 0 = o 0 := s.operandBlock_getD _ (by omega)
    have hd : ((s.operandBlock g.toNat n).drop 2).map (fun x => ({ addr := x, align := w (o 1) } : OperandTest)) = dests := by
      rw [s.operandBlock_drop, List.map_map]
      rfl
    have hn : ¬64 < g.toNat + n := by omega
    have copy : exec (.cpym st q c g) s = s.checked (controlLegal { dcnt := true, wlog := true, len := true, whole := true } (o 1))
        (s.operandTests (source (o 0) (w (o 1)) :: dests) (s.afterHeld (s.enqueue c.toNat (cmd (.cpym st q c g) n)).done)) := by
      rw [← hd, ← hcmd, ← h1, ← h0]
      exact if_neg hn
    have reduce : exec (.cpyr st q c g) s = s.checked
        (controlLegal { op := true, dcnt := true, wlog := true, len := true, matches_ := true, whole := true } (o 1))
        (s.operandTests (source (o 0) (w (o 1)) :: dests)
          (s.enqueueOnce (s.groupEntry (s.operandBlock g.toNat n)) c.toNat (cmd (.cpyr st q c g) n))) := by
      rw [← hd, ← hcmd, ← h1, ← h0]
      exact if_neg hn
    exact ⟨State.posts_of copy ((controlLegal_iff ..).trans (and_congr_right fun _ => by simp [whole, w])) rfl,
      State.posts_once_of reduce ((controlLegal_iff ..).trans (and_congr_right fun _ => by simp [whole, w, typed])) rfl⟩
  case reduce =>
    intro i hi
    rcases List.mem_pair.mp hi with rfl | rfl
    · exact State.posts_once_of rfl ((controlLegal_iff ..).trans (and_congr_right fun _ => by simp [whole, w, typed, o, State.operandBlock])) (hcoll _)
    · exact State.posts_once_of rfl ((controlLegal_iff ..).trans (and_congr_right fun _ => by simp [whole, w, typed, o, State.operandBlock])) (hcoll _)
  case gather =>
    exact State.posts_once_of rfl ((controlLegal_iff ..).trans (and_congr_right fun _ => by simp [whole, w, o, State.operandBlock])) (hcoll _)
  case csred =>
    intro pairs
    refine State.posts_once_of rfl ?_ (by rw [hguard]; rfl)
    rw [Bool.and_eq_true, controlLegal_iff]
    refine and_congr (and_iff_left (by simp)) ?_
    change (if pairs = true then _ else _ : Bool) = true ↔ _
    cases pairs <;> simp [State.operandBlock, o]
  case sfil => exact State.shades_of rfl (by simp [hiWord, x]) rfl
  case sscl => exact State.shades_of rfl (by simp [hiWord, loWord, finite32_iff, finite, x]) rfl
  case soff => exact State.shades_of rfl (by simp [hiWord, loWord, finite32_iff, finite, x]) rfl
  case sclp => exact State.shades_of rfl (by simp [boundsLegal, val32, lt32, hiWord, loWord, x, and_assoc]) rfl
  case spmt => exact State.shades_of rfl (by simp [x, y, and_assoc]) rfl
  case smat => exact State.shades_of rfl (by simp) rfl

end Sys2Proof.Machine

/-! PROOFS. A group whose entry stands out of order among the groups. -/

namespace Sys2Proof.Machine

/-- One group of team 0 with one lane, a bin of that team that holds one thread. Among the entries of the groups that of group 1, which
is not live, stands before group 0's. -/
def unordered : State :=
  let s := State.reset.placeProgram.at_ 0 0
  let s := (s.setSpl { s.spl with mask := 1 }).setBin 0 0 { team := 0, entry := 0x10000, threads := [0] }
  { s with groups := [(1, {}), (0, s.grp)] }

/-- Does an outcome leave a bin with threads? -/
def leavesThreads (core k : Nat) (o : Out) : Bool :=
  match o with
  | .next t => !(t.bin core k).threads.isEmpty
  | _ => false

/-- Refutes O32: a map of groups whose entries are not in order keeps a group's old entry behind the new one, so the team of the group
that ends is not seen to be empty, and its bin starts no group. -/
theorem not_endOfLanes : ¬ Obligations.EndOfLanes := by
  unfold Obligations.EndOfLanes
  intro h
  obtain ⟨⟨-, -, hg⟩, -⟩ := (h unordered 0 (by decide +kernel)).imp (fun k => k (by decide +kernel) (by decide +kernel)) id
  obtain ⟨t, g, ht, -, -, empty, -⟩ := hg 0 (by decide +kernel) (by decide +kernel) (by decide +kernel) (by decide +kernel) (by decide +kernel)
    (by decide +kernel) (by decide) (by decide +kernel) (by decide +kernel) (by decide +kernel) (by decide +kernel) (by decide +kernel)
  have kept : leavesThreads 0 0 (exec (.exit 0) unordered) = true := by decide +kernel
  rw [ht] at kept
  have core : unordered.coreId = 0 := by decide +kernel
  rw [core] at empty
  simp [leavesThreads, empty] at kept

end Sys2Proof.Machine

/-! PROOFS. The addresses of an access, tested before anything of it is made (R106, R208, R209, R219). -/

namespace Sys2Proof.Machine

/-- Where it has an address, the instruction is this access. -/
def State.accesses (s : State) (i : Instr) (n : Nat) (k : Need) (more : Target → Bool) (l : List DWord) : Prop :=
  l ≠ [] → ∃ sync atHome perform, exec i s = s.access n k more sync atHome l perform

/-- No leaf of the lease maps the address for the access, or one that the access may not go to. -/
def State.refuses (s : State) (k : Need) (more : Target → Bool) (a : DWord) : Prop :=
  (s.aperture a = .nothing ∨ ∃ va, s.aperture a = .translated va ∧ s.leased va k = none) ∨ ∃ t, s.target a k = .ok t ∧ more t = false

/-- The first address of the list that is bad stops the instruction with a fault of the class. -/
def State.stopsAt (s : State) (i : Instr) (l : List DWord) (c : Nat) (bad : DWord → Prop) : Prop :=
  ∀ before e after, l = before ++ e :: after → (∀ f ∈ before, ¬bad f) → bad e → exec i s = .next (s.fault (s.ownFault c 0 (e.setWidth 56) 0))

/-- Has the address a fault of class 0x06 or 0x07? -/
def State.faultsAs (s : State) (k : Need) (more : Target → Bool) (c : Nat) (a : DWord) : Bool :=
  match s.target a k with
  | .error x => x == c
  | .ok t => c == 0x07 && !more t

theorem State.faultsAs_outside (s : State) (k : Need) (more : Target → Bool) (a : DWord) :
    s.faultsAs k more 0x06 a = true ↔ s.aperture a = .outside := by
  unfold State.faultsAs State.target
  cases s.aperture a with
  | translated va => cases h : s.leased va k <;> simp [h]
  | _ => simp

theorem State.faultsAs_refused (s : State) (k : Need) (more : Target → Bool) (a : DWord) :
    s.faultsAs k more 0x07 a = true ↔ s.refuses k more a := by
  unfold State.faultsAs State.refuses State.target
  cases s.aperture a with
  | translated va => cases h : s.leased va k <;> simp [h]
  | _ => simp

variable {s : State} {i : Instr} {n : Nat} {k : Need} {more : Target → Bool} {l : List DWord}

theorem State.addressFault_eq : s.addressFault n k more l =
    match l.find? (fun a => !alignedTo n a) with
    | some a => some { cls := 0x05, adda := a.setWidth 56 }
    | none => match l.find? (s.faultsAs k more 0x06) with
      | some a => some { cls := 0x06, adda := a.setWidth 56 }
      | none => match l.find? (s.faultsAs k more 0x07) with
        | some a => some { cls := 0x07, adda := a.setWidth 56 }
        | none => none := rfl

theorem State.accesses.raises (h : s.accesses i n k more l) (hl : l ≠ []) {c : Nat} {a : DWord}
    (hf : s.addressFault n k more l = some { cls := c, adda := a.setWidth 56 }) : exec i s = .next (s.fault (s.ownFault c 0 (a.setWidth 56) 0)) := by
  obtain ⟨sync, atHome, perform, hi⟩ := h hl
  rw [hi, State.access, hf]
  rfl

/-- First unaligned addresses, then those outside a scratch, then those without a lease. -/
theorem State.accesses.ordered (h : s.accesses i n k more l) {bad : DWord → Prop} (hbad : ∀ a, bad a ↔ s.refuses k more a) :
    s.stopsAt i l 0x05 (fun a => a.toNat % n ≠ 0) ∧ ((∀ e ∈ l, ¬e.toNat % n ≠ 0) →
      s.stopsAt i l 0x06 (fun a => s.aperture a = .outside) ∧ ((∀ e ∈ l, s.aperture e ≠ .outside) → s.stopsAt i l 0x07 bad)) := by
  have misaligned : ∀ a : DWord, (!alignedTo n a) = true ↔ a.toNat % n ≠ 0 := fun a => by simp [alignedTo]
  have some_of : ∀ {p : DWord → Bool} {q : DWord → Prop} (_ : ∀ a, p a = true ↔ q a) {before after : List DWord} {e : DWord}
      (_ : l = before ++ e :: after) (_ : ∀ f ∈ before, ¬q f) (_ : q e), l.find? p = some e ∧ l ≠ [] := by
    intro p q hp before after e hl hb he
    subst hl
    exact ⟨List.find?_at (fun y hy => Bool.eq_false_iff.mpr ((hp y).not.mpr (hb y hy))) ((hp e).mpr he), by simp⟩
  have none_of : ∀ {p : DWord → Bool} {q : DWord → Prop} (_ : ∀ a, p a = true ↔ q a) (_ : ∀ e ∈ l, ¬q e), l.find? p = none :=
    fun hp hn => List.find?_eq_none.mpr fun y hy => (hp y).not.mpr (hn y hy)
  refine ⟨fun before e after hl hb he => ?_, fun aligned => ⟨fun before e after hl hb he => ?_, fun inside before e after hl hb he => ?_⟩⟩
  · obtain ⟨hf, hne⟩ := some_of misaligned hl hb he
    exact h.raises hne (by rw [State.addressFault_eq, hf])
  · obtain ⟨hf, hne⟩ := some_of (s.faultsAs_outside k more) hl hb he
    exact h.raises hne (by rw [State.addressFault_eq, none_of misaligned aligned, hf])
  · obtain ⟨hf, hne⟩ := some_of (fun a => (s.faultsAs_refused k more a).trans (hbad a).symm) hl hb he
    exact h.raises hne (by rw [State.addressFault_eq, none_of misaligned aligned, none_of (s.faultsAs_outside k more) inside, hf])

theorem State.refuses_anyTarget (a : DWord) :
    (s.aperture a = .nothing ∨ ∃ va, s.aperture a = .translated va ∧ s.leased va k = none) ↔ s.refuses k anyTarget a := by
  simp [State.refuses, anyTarget]

/-- An atomic may go to a scratch, and to memory unless an AtomicOp would have to carry it to its host page and cannot (R219). -/
theorem State.refuses_atomic {op : Nat} {carried : Bool} (hc : carriedByPcie op = carried) (a : DWord) :
    ((s.aperture a = .nothing ∨ ∃ va, s.aperture a = .translated va ∧ s.leased va .both = none) ∨
      (carried = false ∧ ∃ leaf va pa, s.target a .both = .ok (.memory leaf va pa) ∧ s.uncached pa = true ∧ leaf.sa = true)) ↔
      s.refuses .both (s.atomicAllowed op) a := by
  subst hc
  refine or_congr_right ⟨fun ⟨hc, leaf, va, pa, ht, hu, hs⟩ => ⟨_, ht, by simp [State.atomicAllowed, hc, hu, hs]⟩, fun ⟨t, ht, hm⟩ => ?_⟩
  cases t with
  | scratch team off => simp [State.atomicAllowed] at hm
  | memory leaf va pa =>
    simp only [State.atomicAllowed, Bool.or_eq_false_iff, Bool.not_eq_false', Bool.and_eq_true] at hm
    exact ⟨hm.2, leaf, va, pa, ht, hm.1⟩

/-- An access of the active lanes' addresses. -/
theorem State.accesses_lanes {f : Nat → DWord} {perform : List (DWord × Target) → Out} {sync atHome : Bool}
    (h : s.active ≠ 0 → exec i s = s.access n k more sync atHome (s.activeLanes.map f) perform) :
    s.accesses i n k more (s.activeLanes.map f) := by
  intro hl
  have ha : s.active ≠ 0 := fun h0 => hl (by simp [State.activeLanes, h0, Mask.has])
  exact ⟨sync, atHome, perform, h ha⟩

theorem State.accesses_vector {f : Nat → DWord} {perform : List (DWord × Target) → Out} {sync atHome : Bool}
    (h : exec i s = s.vector (s.access n k more sync atHome (s.activeLanes.map f) perform)) :
    s.accesses i n k more (s.activeLanes.map f) := State.accesses_lanes fun ha => State.exec_vector_active h ha

section
variable {w d a b : Nat}

theorem State.accesses_vectorLoad (h : exec i s = s.vectorLoad n w d a b) : s.accesses i n .read anyTarget (s.activeLanes.map (s.laneAddr a b)) :=
  State.accesses_vector h

theorem State.accesses_vectorStore (h : exec i s = s.vectorStore n w d a b) :
    s.accesses i n .write anyTarget (s.activeLanes.map (s.laneAddr a b)) := State.accesses_vector h

theorem State.accesses_pollLoad (h : exec i s = s.pollLoad n w d a b) : s.accesses i n .read anyTarget (s.activeLanes.map (s.laneAddr a b)) :=
  State.accesses_lanes fun ha => h.trans (if_neg ha)

theorem State.accesses_gld (st : BitVec 3) (d a b : BitVec 6) :
    s.accesses (.gld st d a b) 8 .read anyTarget [s.groupAddr a.toNat b.toNat] := fun _ => by
  unfold exec execGld
  exact ⟨false, false, _, rfl⟩

theorem State.accesses_gst (st : BitVec 3) (d a b : BitVec 6) :
    s.accesses (.gst st d a b) 8 .write anyTarget [s.groupAddr a.toNat b.toNat] := fun _ => by
  unfold exec execGst
  exact ⟨s.spl.rel.isSome, false, _, rfl⟩

theorem State.accesses_atomic {f : AtomicForm} {r : BitVec 3} (h : exec i s = s.atomic f r w a b) (hn : f.bytes = n) :
    s.accesses i n .both (s.atomicAllowed f.op) (s.activeLanes.map (s.laneAddr a b)) := by
  subst hn
  exact State.accesses_lanes fun ha => h.trans (if_neg ha)

end

theorem bytes_of_width (w : BitVec 1) : 4 * (if w == 1 then 2 else 1) = if w = 1 then 8 else 4 := by
  by_cases h : w = 1 <;> simp [h]

/-- Settles O38: each form is an access, and an access tests its addresses in order. -/
theorem addressFaults : Obligations.AddressFaults := by
  unfold Obligations.AddressFaults
  intro s st r d b a x y v g w at_ atm one wide stops unleased ordered
  have lane : ∀ i n k, s.accesses i n k anyTarget at_ → ordered i at_ n (unleased k) :=
    fun i n k h => h.ordered State.refuses_anyTarget
  have atomic : ∀ i (f : AtomicForm) n carried, exec i s = s.atomic f r v.toNat g.toNat b.toNat → f.bytes = n → carriedByPcie f.op = carried →
      ordered i atm n fun x => unleased .both x ∨
        (carried = false ∧ ∃ leaf va pa, s.target x .both = .ok (.memory leaf va pa) ∧ s.uncached pa = true ∧ leaf.sa = true) :=
    fun i f n carried h hn hc => (State.accesses_atomic h hn).ordered (State.refuses_atomic hc)
  have int : ∀ i op returns carried, exec i s = s.atomic (intForm op w returns) r v.toNat g.toNat b.toNat → carriedByPcie op = carried → _ :=
    fun i op returns carried h => atomic i (intForm op w returns) wide carried h (bytes_of_width w)
  have word : ∀ i op returns carried, exec i s = s.atomic (wordForm op returns) r v.toNat g.toNat b.toNat → carriedByPcie op = carried → _ :=
    fun i op returns carried h => atomic i (wordForm op returns) 4 carried h rfl
  have load : ∀ i n w, exec i s = s.vectorLoad n w d.toNat a.toNat b.toNat → ordered i at_ n (unleased .read) :=
    fun i n w h => lane i n .read (State.accesses_vectorLoad h)
  have poll : ∀ i n w, exec i s = s.pollLoad n w d.toNat a.toNat b.toNat → ordered i at_ n (unleased .read) :=
    fun i n w h => lane i n .read (State.accesses_pollLoad h)
  have store : ∀ i n w, exec i s = s.vectorStore n w d.toNat a.toNat b.toNat → ordered i at_ n (unleased .write) :=
    fun i n w h => lane i n .write (State.accesses_vectorStore h)
  refine ⟨?_, (State.accesses_gld st a x y).ordered State.refuses_anyTarget, (State.accesses_gst st a x y).ordered State.refuses_anyTarget, ?_⟩
  · simp only [List.forall_mem_cons]
    exact ⟨load _ 1 1 rfl, load _ 2 1 rfl, load _ 4 1 rfl, load _ 8 2 rfl, load _ 16 4 rfl, poll _ 4 1 rfl, poll _ 8 2 rfl,
      store _ 1 1 rfl, store _ 2 1 rfl, store _ 4 1 rfl, store _ 8 2 rfl, store _ 16 4 rfl, lane _ 8 .read (State.accesses_vector rfl),
      lane _ 8 .write (State.accesses_vector rfl), fun _ h => absurd h List.not_mem_nil⟩
  · intro e he
    simp only [List.mem_cons, List.not_mem_nil, or_false] at he
    rcases he with rfl | rfl | rfl | rfl | rfl | rfl | rfl | rfl | rfl | rfl | rfl | rfl | rfl | rfl | rfl | rfl | rfl | rfl | rfl | rfl |
      rfl | rfl | rfl | rfl | rfl | rfl | rfl | rfl | rfl
    exacts [int _ 0 true _ rfl rfl, int _ 1 true _ rfl rfl, int _ 2 true _ rfl rfl, int _ 3 true _ rfl rfl, int _ 4 true _ rfl rfl,
      int _ 5 true _ rfl rfl, int _ 6 true _ rfl rfl, int _ 7 true _ rfl rfl, int _ 8 true _ rfl rfl, int _ 9 true _ rfl rfl,
      atomic _ (casForm w) _ _ rfl (bytes_of_width w) rfl, word _ 11 true _ rfl rfl, word _ 12 true _ rfl rfl,
      word _ 13 true _ rfl rfl, word _ 14 true _ rfl rfl,
      atomic _ { op := 15, bytes := 16, block := 8, back := 4 } _ _ rfl rfl rfl, int _ 0 false _ rfl rfl, int _ 1 false _ rfl rfl,
      int _ 2 false _ rfl rfl, int _ 3 false _ rfl rfl, int _ 4 false _ rfl rfl, int _ 5 false _ rfl rfl, int _ 6 false _ rfl rfl,
      int _ 7 false _ rfl rfl, int _ 8 false _ rfl rfl, word _ 11 false _ rfl rfl, word _ 12 false _ rfl rfl,
      word _ 13 false _ rfl rfl, word _ 14 false _ rfl rfl]

end Sys2Proof.Machine

/-! PROOFS. The matrix engine: accumulator blocks element by element, and the command that it accepts (R253 to R255, R305 to R313). -/

namespace Sys2Proof.Machine

namespace Regs
variable {b row col m i j : Nat}

theorem getAcc_setAcc (r : Regs) (x : Word) (hr : row < 32) (hc : col < 8) (hi : i < 32) (hj : j < 8) :
    (r.setAcc b row col x).getAcc m i j = if m = b ∧ i = row ∧ j = col then x else r.getAcc m i j := by
  have key : 256 * m + 8 * i + j = 256 * b + 8 * row + col ↔ m = b ∧ i = row ∧ j = col := by omega
  simp only [getAcc, setAcc, AMap.get_set, key]

/-- One row of a block, each element changed as a function of the one before. -/
def editRow (b row : Nat) (g : Nat → Word → Word) (r : Regs) : Regs :=
  (List.range 8).foldl (fun r col => r.setAcc b row col (g col (r.getAcc b row col))) r

theorem getAcc_editCols (r : Regs) (g : Nat → Word → Word) (hr : row < 32) (hi : i < 32) (hj : j < 8) {n : Nat} (hn : n ≤ 8) :
    ((List.range n).foldl (fun r col => r.setAcc b row col (g col (r.getAcc b row col))) r).getAcc m i j =
      if m = b ∧ i = row ∧ j < n then g j (r.getAcc b i j) else r.getAcc m i j := by
  induction n generalizing m i j with
  | zero => simp
  | succ n ih =>
    rw [List.range_succ, List.foldl_append, List.foldl_cons, List.foldl_nil, getAcc_setAcc _ _ hr (by omega) hi hj, ih hi hj (by omega),
      ih hr (by omega) (by omega)]
    by_cases h : m = b ∧ i = row
    · obtain ⟨rfl, rfl⟩ := h
      rcases lt_trichotomy j n with hlt | rfl | hgt
      · simp [hlt, show j ≠ n by omega, show j < n + 1 by omega]
      · simp
      · simp [show j ≠ n by omega, show ¬j < n by omega, show ¬j < n + 1 by omega]
    · simp only [← and_assoc, h, false_and, if_false]

theorem getAcc_editRow (r : Regs) (g : Nat → Word → Word) (hr : row < 32) (hi : i < 32) (hj : j < 8) :
    (editRow b row g r).getAcc m i j = if m = b ∧ i = row then g j (r.getAcc b i j) else r.getAcc m i j := by
  rw [editRow, getAcc_editCols r g hr hi hj le_rfl]
  simp [hj]

section
variable {α : Type} (row : α → Nat) (g : α → Nat → Word → Word)

/-- Rows of a block, one after the other. -/
def editRows (b : Nat) (l : List α) (r : Regs) : Regs := l.foldl (fun r a => editRow b (row a) (g a) r) r

theorem editRows_cons (b : Nat) (a : α) (l : List α) (r : Regs) :
    editRows row g b (a :: l) r = editRows row g b l (editRow b (row a) (g a) r) := List.foldl_cons ..

theorem getAcc_editRows_other (hi : i < 32) (hj : j < 8) {l : List α} (r : Regs) (hl : ∀ a ∈ l, row a < 32)
    (hn : m = b → ∀ a ∈ l, row a ≠ i) : (editRows row g b l r).getAcc m i j = r.getAcc m i j := by
  induction l generalizing r with
  | nil => rfl
  | cons a l ih =>
    rw [List.forall_mem_cons] at hl
    rw [editRows_cons, ih _ hl.2 fun h c hc => hn h c (.tail _ hc), getAcc_editRow r (g a) hl.1 hi hj, if_neg fun h => hn h.1 a (.head _) h.2.symm]

theorem getAcc_editRows (hj : j < 8) {l : List α} (r : Regs) (hl : ∀ a ∈ l, row a < 32) (hp : l.Pairwise (row · ≠ row ·)) {a : α}
    (ha : a ∈ l) : (editRows row g b l r).getAcc b (row a) j = g a j (r.getAcc b (row a) j) := by
  induction l generalizing r with
  | nil => cases ha
  | cons c l ih =>
    have hi := hl a ha
    rw [List.forall_mem_cons] at hl
    rw [List.pairwise_cons] at hp
    rw [editRows_cons]
    rcases List.mem_cons.mp ha with rfl | ha
    · rw [getAcc_editRows_other row g hi hj _ hl.2 fun _ d hd h => hp.1 d hd h.symm, getAcc_editRow r (g a) hi hi hj,
        if_pos ⟨rfl, rfl⟩]
    · rw [ih _ hl.2 hp.2 ha, getAcc_editRow r (g c) hl.1 hi hj, if_neg fun h => hp.1 a ha h.2.symm]

theorem editRow_openAcc (b row : Nat) (g : Nat → Word → Word) (r : Regs) : (editRow b row g r).openAcc = r.openAcc := by
  rw [editRow]
  induction List.range 8 generalizing r with
  | nil => rfl
  | cons c l ih => rw [List.foldl_cons, ih, setAcc_openAcc]

@[simp] theorem editRows_openAcc (b : Nat) (l : List α) (r : Regs) : (editRows row g b l r).openAcc = r.openAcc := by
  induction l generalizing r with
  | nil => rfl
  | cons a l ih => rw [editRows_cons, ih, editRow_openAcc]

end
end Regs

/-- Only the group numbered `s.gid` changes, and of the cores not their queues of matrix commands. -/
structure State.ActsAlone (s t : State) : Prop where
  gid : t.gid = s.gid
  others : ∀ j, j ≠ s.gid → AMap.get {} t.groups j = AMap.get {} s.groups j
  matrix : ∀ c, (t.coreAt c).matrix = (s.coreAt c).matrix

namespace State.ActsAlone
variable {s t u : State}

theorem refl (s : State) : s.ActsAlone s := ⟨rfl, fun _ _ => rfl, fun _ => rfl⟩
theorem trans (h : s.ActsAlone t) (k : t.ActsAlone u) : s.ActsAlone u :=
  ⟨k.gid.trans h.gid, fun j hj => (k.others j (by rwa [h.gid])).trans (h.others j hj), fun c => (k.matrix c).trans (h.matrix c)⟩
theorem setGrp (s : State) (g : Group) : s.ActsAlone (s.setGrp g) := ⟨rfl, fun _ hj => AMap.get_set_other _ _ _ hj, fun _ => rfl⟩
theorem queuedNonFinite (s : State) (c : MatrixCmd) (bad : Bool) : s.ActsAlone (s.queuedNonFinite c bad) := by
  unfold State.queuedNonFinite
  split
  · split
    · split
      · exact refl s
      · exact setGrp ..
    · split
      · exact refl s
      · exact setGrp ..
  · exact refl s
theorem editAcc (s : State) (c : MatrixCmd) (b : Nat) (mask : Mask) (f : Nat → Nat → Word → Word) : s.ActsAlone (s.editAcc c b mask f) :=
  (setGrp ..).trans (queuedNonFinite ..)
theorem giveDrain (s : State) (n : Nat) (l : List Word) : s.ActsAlone (s.giveDrain n l) := ⟨rfl, fun _ _ => rfl, fun _ => rfl⟩
theorem setBooks (s : State) (b : AMap Codebook) : s.ActsAlone (s.setCore { s.core with books := b }) := by
  refine ⟨rfl, fun _ _ => rfl, fun c => ?_⟩
  rcases eq_or_ne c s.coreId with rfl | h
  · rw [State.setCore, State.setCoreAt_coreAt]
    rfl
  · rw [State.setCore, State.setCoreAt_other s _ h]

theorem accept (s : State) (c : MatrixCmd) : s.ActsAlone (s.accept c) := by
  unfold State.accept
  split
  · exact editAcc ..
  · exact editAcc ..
  · exact editAcc ..
  · exact (editAcc ..).trans (setGrp ..)
  · exact (setGrp ..).trans ((setGrp ..).trans (queuedNonFinite ..))
  · exact ((setGrp ..).trans (giveDrain ..)).trans (queuedNonFinite ..)
  · exact (setGrp ..).trans (giveDrain ..)
  · exact setBooks ..
  · exact refl s

end State.ActsAlone

@[simp] theorem State.queuedNonFinite_regs (s : State) (c : MatrixCmd) (bad : Bool) : (s.queuedNonFinite c bad).regs = s.regs := by
  unfold State.queuedNonFinite
  split
  · split <;> split <;> simp [State.regs]
  · rfl

/-- The accumulators after an edit of one block, which closes the block. -/
theorem State.editAcc_regs (s : State) (c : MatrixCmd) (b : Nat) (mask : Mask) (f : Nat → Nat → Word → Word) :
    (∀ m row col, row < 32 → col < 8 → (s.editAcc c b mask f).regs.getAcc m row col =
      if m = b ∧ mask.has row = true then f row col (s.regs.getAcc b row col) else s.regs.getAcc m row col) ∧
    (s.editAcc c b mask f).regs.openAcc = s.regs.openAcc &&& ~~~(1#8 <<< b) := by
  have hr : (s.editAcc c b mask f).regs =
      { Regs.editRows id (fun row col _ => f row col (s.regs.getAcc b row col)) b (lanes.filter mask.has) s.regs with
        openAcc := (Regs.editRows id (fun row col _ => f row col (s.regs.getAcc b row col)) b (lanes.filter mask.has) s.regs).openAcc &&&
          ~~~(1#8 <<< b) } := by
    rw [State.editAcc, State.queuedNonFinite_regs, State.setRegs_regs]
    rfl
  rw [hr]
  refine ⟨fun m row col hrow hcol => ?_, by simp⟩
  change (Regs.editRows ..).getAcc m row col = _
  have bound : ∀ a ∈ lanes.filter mask.has, id a < 32 := fun a ha => List.mem_range.mp (List.mem_of_mem_filter ha)
  by_cases h : m = b ∧ mask.has row = true
  · obtain ⟨rfl, hm⟩ := h
    rw [if_pos ⟨rfl, hm⟩]
    have distinct : (lanes.filter mask.has).Pairwise (id · ≠ id ·) := List.nodup_range.filter _
    exact Regs.getAcc_editRows id _ hcol s.regs bound distinct (List.mem_filter.mpr ⟨List.mem_range.mpr hrow, hm⟩)
  · rw [if_neg h]
    refine Regs.getAcc_editRows_other id _ hrow hcol s.regs bound fun hmb a ha haq => h ⟨hmb, ?_⟩
    subst haq
    exact (List.mem_filter.mp ha).2

/-- The rows that a drain hands on are found again by their number. -/
theorem State.find?_drained (s : State) (c : MatrixCmd) (ty b : Nat) {l : Nat} (hl : c.mask.has l = true) :
    (s.drained c ty b).find? (fun e => e.1 == l) = some (l, (List.range 8).map fun col =>
      drainElement ty c.gmode (loWord (c.ops.getD 2 0)) (loWord (c.ops.getD 0 0)) (loWord (c.ops.getD 1 0)) (s.regs.getAcc b l col) l col) := by
  have hf : (lanes.filter c.mask.has).find? (fun row => row == l) = some l := by
    have hm : l ∈ lanes.filter c.mask.has := List.mem_filter.mpr ⟨List.mem_range.mpr (BitVec.lt_of_getLsbD hl), hl⟩
    cases h : (lanes.filter c.mask.has).find? (fun row => row == l) with
    | none => exact absurd (beq_self_eq_true l) (List.find?_eq_none.mp h l hm)
    | some y =>
      have hy := List.find?_some h
      rw [beq_iff_eq] at hy
      rw [hy]
  rw [State.drained, List.find?_map]
  change Option.map _ ((lanes.filter c.mask.has).find? fun row => row == l) = _
  rw [hf]
  rfl

/-- The eight registers from d on take a drain's rows. -/
def Regs.drainedInto (d : Nat) (mask : Mask) (rows : List (Nat × List Nat)) (r : Regs) : Regs :=
  (List.range 8).foldl (fun r j =>
    r.setLanes (d + j) mask fun l => BitVec.ofNat 32 (((rows.find? fun e => e.1 == l).map (·.2.getD j 0)).getD 0)) r

theorem Regs.getV_setBlock (d : Nat) (mask : Mask) (f : Nat → Nat → Word) (r : Regs) {m l : Nat} (hl : l < 32) (n : Nat) :
    ((List.range n).foldl (fun r j => r.setLanes (d + j) mask (f j)) r).getV m l =
      if d ≤ m ∧ m < d + n ∧ mask.has l = true then f (m - d) l else r.getV m l := by
  induction n with
  | zero => exact (if_neg (by omega)).symm
  | succ n ih =>
    rw [List.range_succ, List.foldl_append, List.foldl_cons, List.foldl_nil, Regs.getV_setLanes _ _ _ _ hl, ih]
    rcases eq_or_ne m (d + n) with rfl | h
    · simp
    · simp only [h, false_and, if_false, show m < d + (n + 1) ↔ m < d + n by omega]

theorem Regs.getV_drainedInto (d : Nat) (mask : Mask) (rows : List (Nat × List Nat)) (r : Regs) {m l : Nat} (hl : l < 32) :
    (r.drainedInto d mask rows).getV m l = if d ≤ m ∧ m < d + 8 ∧ mask.has l = true then
      BitVec.ofNat 32 (((rows.find? fun e => e.1 == l).map (·.2.getD (m - d) 0)).getD 0) else r.getV m l :=
  Regs.getV_setBlock d mask _ r hl 8

theorem Regs.getAcc_drainedInto (d : Nat) (mask : Mask) (rows : List (Nat × List Nat)) (r : Regs) (b i j : Nat) :
    (r.drainedInto d mask rows).getAcc b i j = r.getAcc b i j := by
  rw [Regs.drainedInto]
  induction List.range 8 generalizing r with
  | nil => rfl
  | cons c l ih => rw [List.foldl_cons, ih, Regs.getAcc_setLanes]

theorem Regs.drainedInto_openAcc (d : Nat) (mask : Mask) (rows : List (Nat × List Nat)) (r : Regs) :
    (r.drainedInto d mask rows).openAcc = r.openAcc := by
  rw [Regs.drainedInto]
  induction List.range 8 generalizing r with
  | nil => rfl
  | cons c l ih => rw [List.foldl_cons, ih, Regs.setLanes_openAcc]

theorem Regs.getAcc_openAcc (r : Regs) (x : BitVec 8) (b i j : Nat) : ({ r with openAcc := x } : Regs).getAcc b i j = r.getAcc b i j := rfl

theorem State.accept_mzeroOpen_regs (s : State) {c : MatrixCmd} {st n : BitVec 3} (h : c.op = .mzeroOpen st n) : (s.accept c).regs =
    { (s.editAcc { c with gmode := 0 } n.toNat 0xFFFFFFFF fun _ _ _ => 0).regs with
      openAcc := (s.editAcc { c with gmode := 0 } n.toNat 0xFFFFFFFF fun _ _ _ => 0).regs.openAcc ||| (1#8 <<< n.toNat) } := by
  rw [State.accept, h]
  dsimp only
  rw [State.setRegs_regs]

theorem State.accept_mcbk (s : State) {c : MatrixCmd} {st : BitVec 3} {n : BitVec 2} {a b : BitVec 6} (h : c.op = .mcbk st n a b) :
    let book : Codebook := { AMap.get {} s.core.books n.toNat with bytes := (AMap.get {} c.books n.toNat).bytes }
    s.accept c = s.setCore { s.core with books := AMap.set s.core.books n.toNat book } := by
  rw [State.accept, h]

theorem State.accept_mdrain_regs (s : State) {c : MatrixCmd} {st : BitVec 3} {d : BitVec 7} {t : BitVec 4} {n : BitVec 3} {b : BitVec 6} (h : c.op = .mdrain st d t n b) :
    (s.accept c).regs = Regs.drainedInto d.toNat c.mask (s.drained c t.toNat n.toNat) { s.regs with openAcc := s.regs.openAcc &&& ~~~(1#8 <<< n.toNat) } := by
  rw [State.accept, h]
  dsimp only
  rw [State.queuedNonFinite_regs, State.setRegs_regs, State.closeAcc, State.setRegs_regs]
  rfl

theorem BitVec.and_not_or_self {w : Nat} (x y : BitVec w) : x &&& ~~~y ||| y = x ||| y := by
  ext i hi
  simp only [BitVec.getElem_or, BitVec.getElem_and, BitVec.getElem_not]
  cases x[i] <;> cases y[i] <;> rfl

/-- Settles O53: the outcome of each command, from the rules above. -/
theorem matrixAccept : Obligations.MatrixAccept := by
  unfold Obligations.MatrixAccept
  intro s core x rest hx g r ftz f32 word
  let u := (s.setCoreAt core { s.coreAt core with matrix := rest }).at_ x.gid x.slot
  have acts := State.ActsAlone.accept u x
  have ht : exec (.matrixEngineAccept core) s = .next ((u.accept x).at_ s.gid s.slot) := by
    change execMatrixEngineAccept core s = _
    rw [execMatrixEngineAccept, hx]
  have hq : (AMap.get {} ((u.accept x).at_ s.gid s.slot).groups x.gid).ctx.regs = (u.accept x).regs := by
    change (AMap.get {} (u.accept x).groups x.gid).ctx.regs = (AMap.get {} (u.accept x).groups (u.accept x).gid).ctx.regs
    rw [acts.gid]
    rfl
  have hr : u.regs = r := rfl
  refine ⟨_, ht, State.accept_mem .., rfl, rfl, ?_, fun j hj => acts.others j hj, ?_⟩
  · refine (acts.matrix core).trans ?_
    change ((s.setCoreAt core { s.coreAt core with matrix := rest }).coreAt core).matrix = rest
    rw [State.setCoreAt_coreAt]
  intro q block
  have hq : q = (u.accept x).regs := hq
  have hcore : g.place.core = core → u.core.books = (s.coreAt core).books := by
    intro h
    change ((s.setCoreAt core { s.coreAt core with matrix := rest }).coreAt g.place.core).books = _
    rw [h, State.setCoreAt_coreAt]
  have edits : ∀ (c : MatrixCmd) (b : Nat) (mask : Mask) (f : Nat → Nat → Word → Word), q = (u.editAcc c b mask f).regs →
      block b mask.has (fun row col => f row col (r.getAcc b row col)) ∧ q.openAcc = r.openAcc &&& ~~~(1#8 <<< b) := by
    intro c b mask f h
    have hb := u.editAcc_regs c b mask f
    rw [← h] at hb
    exact hb
  refine ⟨?mma, ?mscale, ?mzero, ?mzeroOpen, ?mdrain, ?mcbk⟩
  case mma =>
    intro st c f a b hop hc
    have h : q = (u.editAcc x c.toNat x.mask fun row col acc => mmaElement x (AMap.get {} u.core.books (fmtCb x.format)).bytes acc row
        (8 * modeBsel x.gmode (row / 8) + col)).regs := by
      rw [hq, State.accept, hop]
    rw [hcore hc] at h
    obtain ⟨hb, ho⟩ := edits _ _ _ _ h
    refine ⟨fun m row col hrow hcol => (hb m row col hrow hcol).trans ?_, ho⟩
    simp only [mmaElement, beq_iff_eq]
    rfl
  case mscale =>
    intro st c a hop
    exact edits x _ _ _ (by rw [hq, State.accept, hop])
  case mzero =>
    intro st c hop
    obtain ⟨hb, ho⟩ := edits { x with gmode := 0 } c.toNat 0xFFFFFFFF _ (by rw [hq, State.accept, hop])
    refine ⟨fun m row col hrow hcol => (hb m row col hrow hcol).trans ?_, ho⟩
    have all : Mask.has 0xFFFFFFFF row = true := Mask.has_full hrow
    simp only [all]
  case mzeroOpen =>
    intro st c hop
    obtain ⟨hb, ho⟩ := u.editAcc_regs { x with gmode := 0 } c.toNat 0xFFFFFFFF fun _ _ _ => 0
    have h := hq.trans (State.accept_mzeroOpen_regs u hop)
    generalize (u.editAcc { x with gmode := 0 } c.toNat 0xFFFFFFFF fun _ _ _ => 0).regs = e at h hb ho
    refine ⟨fun m row col hrow hcol => ?_, ?_⟩
    · have all : Mask.has 0xFFFFFFFF row = true := Mask.has_full hrow
      rw [h, Regs.getAcc_openAcc, hb m row col hrow hcol]
      simp only [all]
      rfl
    · rw [h]
      change _ ||| _ = _
      rw [ho]
      exact BitVec.and_not_or_self ..
  case mdrain =>
    intro st d ty c b hop
    have h : q = Regs.drainedInto d.toNat x.mask (u.drained x ty.toNat c.toNat) { u.regs with openAcc := u.regs.openAcc &&& ~~~(1#8 <<< c.toNat) } := by
      rw [hq]
      exact State.accept_mdrain_regs u hop
    refine ⟨fun l j hl hj => ?_, fun m l hl hm => ?_, fun m row col => ?_, ?_⟩
    · rw [h, Regs.getV_drainedInto _ _ _ _ (BitVec.lt_of_getLsbD hl), if_pos ⟨by omega, by omega, hl⟩, u.find?_drained x _ _ hl]
      simp [hj, word, loWord, hr]
    · rw [h, Regs.getV_drainedInto _ _ _ _ hl, if_neg (by rintro ⟨h1, h2, h3⟩; simp only [h3, Bool.true_eq_false, or_false] at hm; omega)]
      rfl
    · rw [h, Regs.getAcc_drainedInto]
      rfl
    · rw [h, Regs.drainedInto_openAcc]
      rfl
  case mcbk =>
    intro st n a b hop hc
    have hg := State.accept_mcbk u hop
    refine ⟨?_, ?_⟩
    · change (AMap.get {} ((u.accept x).coreAt core).books n.toNat).bytes = _
      rw [hg, State.setCore]
      change (AMap.get {} ((u.setCoreAt g.place.core _).coreAt core).books n.toNat).bytes = _
      rw [hc, State.setCoreAt_coreAt]
      let book : Codebook := { AMap.get {} u.core.books n.toNat with bytes := (AMap.get {} x.books n.toNat).bytes }
      have read : AMap.get {} (AMap.set u.core.books n.toNat book) n.toNat = book := AMap.get_set_same ..
      exact (congrArg Codebook.bytes read :)
    · rw [hq, hg]
      rfl

end Sys2Proof.Machine

/-! PROOFS. What Lamplighter has logged stays, through the end of groups and of grids (R449, R464). -/

namespace Sys2Proof.Machine

/-- A fold of operations that leave Lamplighter alone. -/
theorem State.foldl_lamp {α : Type} {f : State → α → State} (hf : ∀ (t : State) (a : α), (f t a).lamp = t.lamp) (l : List α) (s : State) :
    (l.foldl f s).lamp = s.lamp :=
  foldl_keeps (p := fun t : State => t.lamp = s.lamp) (fun t a h => (hf t a).trans h) l rfl

@[simp] theorem State.at__lamp (s : State) (gid slot : Nat) : (s.at_ gid slot).lamp = s.lamp := rfl
@[simp] theorem State.setBarrier_lamp (s : State) (level num : Nat) (b : Barrier) : (s.setBarrier level num b).lamp = s.lamp := by
  unfold State.setBarrier
  split <;> rfl
@[simp] theorem State.releaseClocks_lamp (s : State) (now : DWord) (p : Nat → Nat → Split → Bool) : (s.releaseClocks now p).lamp = s.lamp := by
  unfold State.releaseClocks
  split <;> rfl
@[simp] theorem State.testBarrier_lamp (s : State) (level num : Nat) : (s.testBarrier level num).lamp = s.lamp := by
  unfold State.testBarrier
  extract_lets b m c groups t
  split
  · rfl
  · exact (State.releaseClocks_lamp ..).trans (State.setBarrier_lamp ..)
@[simp] theorem State.leaveBarriers_lamp (s : State) (member : Nat) (levels : List Nat) :
    (s.leaveBarriers member levels).lamp = s.lamp := by
  refine State.foldl_lamp (fun t level => State.foldl_lamp (fun u num => ?_) _ t) _ s
  extract_lets b c
  split <;> simp
@[simp] theorem State.joinBarriers_lamp (s : State) : s.joinBarriers.lamp = s.lamp :=
  State.foldl_lamp (fun t _ => State.foldl_lamp (fun _ _ => by simp) _ t) _ s
@[simp] theorem State.queuedNonFinite_lamp (s : State) (c : MatrixCmd) (bad : Bool) : (s.queuedNonFinite c bad).lamp = s.lamp := by
  unfold State.queuedNonFinite
  split
  · split
    · split <;> simp
    · split <;> rfl
  · rfl
@[simp] theorem State.editAcc_lamp (s : State) (c : MatrixCmd) (blk : Nat) (mask : Mask) (f : Nat → Nat → Word → Word) :
    (s.editAcc c blk mask f).lamp = s.lamp := by simp [State.editAcc]
@[simp] theorem State.closeAcc_lamp (s : State) (blk : Nat) : (s.closeAcc blk).lamp = s.lamp := rfl
@[simp] theorem State.giveDrain_lamp (s : State) (num : Nat) (data : List Word) : (s.giveDrain num data).lamp = s.lamp := rfl
@[simp] theorem State.accept_lamp (s : State) (c : MatrixCmd) : (s.accept c).lamp = s.lamp := by
  unfold State.accept
  split <;> simp
@[simp] theorem State.finishMatrix_lamp (n : Nat) (s : State) : (State.finishMatrix n s).lamp = s.lamp := by
  induction n generalizing s with
  | zero => rfl
  | succ n ih =>
    unfold State.finishMatrix
    split
    · rfl
    · split
      · exact (ih _).trans (State.accept_lamp ..)
      · rfl
@[simp] theorem State.keepCheckpoint_lamp (s : State) : s.keepCheckpoint.lamp = s.lamp := by
  unfold State.keepCheckpoint
  split
  · exact (State.Works.physWriteRun ..).of_frame (·.lamp)
  · rfl
@[simp] theorem State.startBin_lamp (s : State) (core k : Nat) : (s.startBin core k).lamp = s.lamp := by
  unfold State.startBin
  extract_lets b gid mask t old u
  exact (State.keepCheckpoint_lamp _).trans (State.joinBarriers_lamp _)
@[simp] theorem State.startOrWait_lamp (s : State) (core k : Nat) : (s.startOrWait core k).lamp = s.lamp := by
  unfold State.startOrWait
  dsimp only
  split
  · rfl
  · split
    · exact State.startBin_lamp ..
    · rfl
@[simp] theorem State.flushTeam_lamp (s : State) (core team : Nat) : (s.flushTeam core team).lamp = s.lamp := by
  refine State.foldl_lamp (fun t k => ?_) _ s
  split <;> simp
@[simp] theorem State.endGroup_lamp (s : State) : s.endGroup.lamp = s.lamp := by
  unfold State.endGroup
  extract_lets a team core g c b d e
  have hd : d.lamp = s.lamp := (State.leaveBarriers_lamp ..).trans (State.finishMatrix_lamp ..)
  have he : e.lamp = d.lamp := by
    unfold e
    split <;> simp
  exact Eq.trans (by split <;> rfl) (he.trans hd)
@[simp] theorem State.numberDone_lamp (s : State) (sub : Submission) : (s.numberDone sub).lamp = s.lamp := by
  unfold State.numberDone
  dsimp only
  split
  · rfl
  · split <;> rfl
@[simp] theorem State.discardCommands_lamp (s : State) (grid : Nat) : (s.discardCommands grid).lamp = s.lamp := by
  rw [State.discardCommands_keeps]
@[simp] theorem State.reap_lamp (s : State) (gid : Nat) : (s.reap gid).lamp = s.lamp := by
  unfold State.reap
  dsimp only
  split
  · exact State.endGroup_lamp _
  · rfl

/-- What is logged in `s` is logged in `t`. -/
structure State.Logs (s t : State) : Prop where
  log : ∀ r ∈ s.lamp.log, r ∈ t.lamp.log

namespace State.Logs
variable {s t u : State}

theorem refl (s : State) : s.Logs s := ⟨fun _ h => h⟩
theorem trans (h : s.Logs t) (k : t.Logs u) : s.Logs u := ⟨fun r hr => k.log r (h.log r hr)⟩
theorem of_lamp (h : t.lamp = s.lamp) : s.Logs t := ⟨fun r hr => by rwa [h]⟩
theorem of_works (h : s.Works t) : s.Logs t := of_lamp (h.of_frame (·.lamp))
theorem foldl {α : Type} {f : State → α → State} (hf : ∀ (t : State) (a : α), t.Logs (f t a)) (l : List α) (s : State) :
    s.Logs (l.foldl f s) := by
  induction l generalizing s with
  | nil => exact refl s
  | cons a l ih => exact (hf s a).trans (ih _)

theorem logAt (s : State) (kind : BitVec 16) (die core : BitVec 8) (detail : Word) (value : DWord) :
    s.Logs (s.logAt kind die core detail value) := ⟨fun _ hr => .tail _ hr⟩
theorem finishRecord (s : State) (sub : Submission) (status detail : Nat) : s.Logs (s.finishRecord sub status detail) := by
  unfold State.finishRecord
  extract_lets t
  have ht : s.Logs t := by
    unfold t
    split
    · exact of_works (.physWrite ..)
    · exact logAt ..
  exact ht.trans (of_lamp (State.numberDone_lamp ..))
theorem cancel (s : State) (grid status detail : Nat) : s.Logs (s.cancel grid status detail) := by
  unfold State.cancel
  extract_lets g t u
  split
  · exact refl s
  · split
    · refine trans ?_ (finishRecord ..)
      exact of_lamp rfl
    · have hd : (u.discardCommands grid).lamp = s.lamp := (State.discardCommands_lamp u grid).trans rfl
      exact (of_lamp hd).trans (foldl (fun v k => of_lamp (State.reap_lamp v k)) _ _)
theorem cancelToken (s : State) (token : Word) : s.Logs (s.cancelToken token) := by
  unfold State.cancelToken
  split
  · exact refl s
  · exact foldl (fun t (e : Nat × Grid) => cancel t e.1 3 0) _ s

end State.Logs
end Sys2Proof.Machine

/-! PROOFS. What becomes of instructions and commands after their issue (R105 to R112, R128, R141, R220, R238, R439, R443). -/

namespace Sys2Proof.Machine

/-! The events of an issue slot and of the miss queue, one lemma each. -/

theorem exec_illegalInstruction {s : State} {w : BitVec 32} (h : (s.accepted w).isNone = true) :
    exec (.illegalInstruction w) s = .next (s.fault (s.ownFault 0x01 0 0 0)) := by
  change execIllegalInstruction w s = _
  rw [execIllegalInstruction, if_pos h]
  rfl

theorem exec_instructionFetch {s : State} {group slot : Nat} {word : BitVec 32} (hl : (s.at_ group slot).spl.live = true)
    (hw : (s.at_ group slot).spl.word = none) (hn : (s.at_ group slot).spl.wait = none)
    (hf : (s.at_ group slot).fetch (s.at_ group slot).spl.pc = some word) :
    exec (.instructionFetch group slot) s =
      .next (s.back ((s.at_ group slot).setSpl { (s.at_ group slot).spl with word := some word })) := by
  change execInstructionFetch group slot s = _
  simp [execInstructionFetch, hl, hw, hn, hf, State.back]

theorem exec_splitUrgent {s : State} {group slot : Nat} (hl : (s.at_ group slot).spl.live = true)
    (ha : 192 ≤ (s.at_ group slot).spl.sched.age) :
    exec (.splitUrgent group slot) s = .next (s.back ((s.at_ group slot).setSpl
      { (s.at_ group slot).spl with sched := { (s.at_ group slot).spl.sched with urgent := true } })) := by
  change execSplitUrgent group slot s = _
  simp [execSplitUrgent, hl, Config.urgentAge, ha, State.back]

theorem exec_safePointDistance {s : State} {group slot : Nat} {word : BitVec 32} {i : Instr}
    (hw : (s.at_ group slot).wordAt slot = some word) (hi : (s.at_ group slot).accepted word = some i)
    (hr : (s.at_ group slot).standing slot = .ready) (hn : (s.at_ group slot).spl.wait = none)
    (hd : 4096 ≤ (s.at_ group slot).spl.dist) (hh : (s.at_ group slot).handlerMode = false) (hs : isSafe i = false) :
    let v := (s.at_ group slot).beginIssue (word.extractLsb' 29 3).toNat
    exec (.safePointDistance group slot) s = .next (s.back (v.fault (v.ownFault 0x0A 0 0 0))) := by
  intro v
  change execSafePointDistance group slot s = _
  simp only [execSafePointDistance, hw, hi, hr, hn, hh, hs, Config.safeBound, hd, decide_true]
  rfl

section Misses
variable {s : State} {core idx : Nat} {m : Miss} (hm : (s.coreAt core).misses[idx]? = some m) (he : m.entry = 0)
include hm he

theorem exec_mshrRetry_enters (h : ((s.coreAt core).misses.filter fun o => o.entry == 1).length < Config.mshrOrdinary) :
    exec (.mshrRetry core idx) s =
      .next (s.setCoreAt core { s.coreAt core with misses := (s.coreAt core).misses.set idx { m with entry := 1 } }) := by
  change execMshrRetry core idx s = _
  simp [execMshrRetry, hm, he, CoreState.entries, h, State.setMiss]

theorem exec_mshrRetry_ages (h : Config.mshrOrdinary ≤ ((s.coreAt core).misses.filter fun o => o.entry == 1).length) :
    exec (.mshrRetry core idx) s =
      .next (s.setCoreAt core { s.coreAt core with misses := (s.coreAt core).misses.set idx { m with age := m.age + 1 } }) := by
  change execMshrRetry core idx s = _
  simp [execMshrRetry, hm, he, CoreState.entries, Nat.not_lt.mpr h, State.setMiss]

theorem exec_mshrAged (ha : 64 ≤ m.age) (h : ((s.coreAt core).misses.filter fun o => o.entry == 2).length < Config.mshrReserved)
    (ho : ∀ o ∈ (s.coreAt core).misses, o.entry ≠ 0 ∨ o.age ≤ m.age) :
    exec (.mshrAged core idx) s =
      .next (s.setCoreAt core { s.coreAt core with misses := (s.coreAt core).misses.set idx { m with entry := 2 } }) := by
  have hall : ((s.coreAt core).misses.all fun o => o.entry != 0 || decide (o.age ≤ m.age)) = true := by simpa using ho
  change execMshrAged core idx s = _
  simp only [execMshrAged, hm]
  rw [if_pos (by simp [he, ha, CoreState.entries, h, hall])]
  rfl

end Misses

theorem exec_collectiveChunkBoundary {s : State} {die : Nat} {d : Cmd} (h : firstTransfer (s.transfers die) = some d) :
    exec (.collectiveChunkBoundary die) s = .next (s.back ((s.at_ d.gid d.slot).sendChunk d)) := by
  change execCollectiveChunkBoundary die s = _
  rw [execCollectiveChunkBoundary, h]
  rfl

/-! An engine takes the first command of its context that has not started (R220, R238). -/

section Starts
variable {s : State} {team ctx : Nat} {d : Cmd} (hd : ((s.ofTeam team).ctx ctx).queue.find? (fun d => !d.started) = some d)
include hd

theorem exec_engineCommandStart_discarded (h : d.guard = .discarded) :
    exec (.engineCommandStart team ctx) s = .next (s.back ((s.at_ d.gid d.slot).completeCmd ctx d)) := by
  change execEngineCommandStart team ctx s = _
  simp only [execEngineCommandStart, hd, h]
  rfl

theorem exec_engineCommandStart_runs {v : State} (h : d.guard = .runs) (hw : d.waits = false)
    (ha : (s.at_ d.gid d.slot).cluster.act = .active)
    (hp : d.posted = true → (s.at_ d.gid d.slot).grid.ending.snuffed = false ∧ (s.at_ d.gid d.slot).grid.ending.failed = false)
    (ho : ∀ o ∈ s.host.atomics, o.gid = d.gid → seqBefore o.tseq d.tseq = false)
    (hv : (s.at_ d.gid d.slot).startCommand ctx d = some v) :
    exec (.engineCommandStart team ctx) s = .next (s.back v) := by
  have hany : (s.host.atomics.any fun o => o.gid == d.gid && seqBefore o.tseq d.tseq) = false := by simpa using ho
  have hposted : (d.posted && ((s.at_ d.gid d.slot).grid.ending.snuffed || (s.at_ d.gid d.slot).grid.ending.failed)) = false := by
    cases hq : d.posted
    · rfl
    · simp [hp hq]
  change execEngineCommandStart team ctx s = _
  simp only [execEngineCommandStart, hd, h, hw, ha, hany, hposted, hv]
  rfl

end Starts

theorem State.ctx_ofTeam (s : State) (team ctx : Nat) :
    (s.ofTeam team).ctx ctx = AMap.get {} (AMap.get {} s.teams team).ctxs ctx := by
  have hid : (s.ofTeam team).teamId = team := Nat.mul_div_cancel_left team (by decide)
  rw [State.ctx, State.team, hid]
  rfl

@[simp] theorem State.ctx_setCtx (s : State) (x : Nat) (c : EngineCtx) : (s.setCtx x c).ctx x = c := by
  simp [State.ctx, State.setCtx, State.team, State.setTeam, State.setTeamAt, State.teamId]

theorem State.back_ofTeam (s t : State) (team : Nat) : (s.back t).ofTeam team = t.ofTeam team := rfl

theorem exec_guardResolve {s : State} {team ctx : Nat} {d : Cmd} {q : Nat}
    (hd : ((s.ofTeam team).ctx ctx).queue.find? (fun d => !d.started) = some d) (hg : d.guard = .pending q)
    (hr : (s.ofTeam team).guardReady d = true) :
    ∃ t, exec (.guardResolve team ctx) s = .next t ∧ t.mem = s.mem ∧ t.groups = s.groups ∧
      { d with guard := if (AMap.get {} s.groups d.gid).ctx.regs.getQ q && !d.dropped && !(s.ofTeam team).gridDone then .runs
                        else .discarded } ∈ ((t.ofTeam team).ctx ctx).queue := by
  refine ⟨s.back ((s.ofTeam team).resolveGuards (fun c => c.num == d.num) ctx), ?_, rfl, rfl, ?_⟩
  · change execGuardResolve team ctx s = _
    simp only [execGuardResolve, hd, hr]
    rfl
  · have hback : ((s.back ((s.ofTeam team).resolveGuards (fun c => c.num == d.num) ctx)).ofTeam team).ctx ctx =
        ((s.ofTeam team).resolveGuards (fun c => c.num == d.num) ctx).ctx ctx := rfl
    rw [hback, State.resolveGuards, State.ctx_setCtx]
    refine List.mem_map.mpr ⟨d, List.mem_of_find?_eq_some hd, ?_⟩
    simp [hg]
    rfl


/-! A result arrives (R109, R110): it is readable, and no register changes. -/

theorem mem_of_mem_dropReadable {cycle : Nat} {e : Inflight} {l : List Inflight} (h : e ∈ dropReadable cycle l) : e ∈ l := by
  induction l with
  | nil => exact h
  | cons a l ih =>
    unfold dropReadable at h
    dsimp only at h
    split at h
    · rcases List.mem_cons.mp h with rfl | h
      · exact List.mem_cons_self
      · exact List.mem_cons_of_mem _ (ih h)
    · exact List.mem_cons_of_mem _ (ih h)

theorem ready_of_mem_arriveResult {cycle : Nat} {tseq : Word} {l : List Inflight} {f : Inflight} (h : f ∈ arriveResult cycle tseq l)
    (hf : f.tseq = tseq) : f.ready ≠ none := by
  obtain ⟨e, -, he⟩ := List.mem_map.mp (mem_of_mem_dropReadable h)
  split at he
  · simp [← he]
  · next hno =>
    subst he
    intro hready
    simp [hf, hready] at hno

theorem State.resolveWritten_groups (s : State) (l : List Inflight) : (s.resolveWritten l).groups = s.groups :=
  foldl_keeps (p := fun t : State => t.groups = s.groups) (fun _ _ h => by exact h) (List.range 4) rfl

/-- A group's registers and results in flight stand in `t` as in `s`. -/
structure State.SameResults (s t : State) (group : Nat) : Prop where
  regs : (AMap.get {} t.groups group).ctx.regs = (AMap.get {} s.groups group).ctx.regs
  inflight : (AMap.get {} t.groups group).inflight = (AMap.get {} s.groups group).inflight

namespace State.SameResults

theorem trans {s t u : State} {group : Nat} (h : s.SameResults t group) (k : t.SameResults u group) : s.SameResults u group :=
  ⟨k.regs.trans h.regs, k.inflight.trans h.inflight⟩

theorem setSplitAt (s : State) (k : Nat) (x : Split) : s.SameResults (s.setSplitAt k x) s.gid := by
  constructor <;> simp [State.setSplitAt, State.setGrp, State.grp]

theorem release (s : State) (k : Nat) : s.SameResults (s.release k) s.gid :=
  ⟨(setSplitAt s k _).regs, (setSplitAt s k _).inflight⟩

theorem demote (s : State) (n : Word) : s.SameResults (s.demote n) s.gid := by
  rw [State.demote_eq]
  dsimp only
  split
  · exact (setSplitAt s s.slot _).trans (release ..)
  · exact setSplitAt s s.slot _

end State.SameResults

/-- The executing group once a result has arrived, before the split that wrote it is demoted. -/
def State.arrived (s : State) (tseq : Word) : State :=
  let t := s.resolveWritten (s.grp.inflight.filter fun e => e.tseq == tseq && e.ready.isNone)
  let t := t.setGrp { t.grp with inflight := arriveResult t.time.cycle tseq t.grp.inflight }
  t.setCore { t.core with misses := t.core.misses.filter fun m => !(m.gid == s.gid && m.tseq == tseq) }

theorem State.arrived_grp (s : State) (tseq : Word) :
    (s.arrived tseq).grp = { s.grp with inflight := arriveResult s.time.cycle tseq s.grp.inflight } := by
  have h : ∀ l, (s.resolveWritten l).grp = s.grp := fun l => by
    change AMap.get {} (s.resolveWritten l).groups s.gid = _
    rw [State.resolveWritten_groups]
    rfl
  exact (AMap.get_set_same ..).trans (by rw [h]; rfl)

theorem exec_variableLatencyResult {s : State} {group : Nat} {tseq : BitVec 32} {e : Inflight}
    (he : e ∈ (AMap.get {} s.groups group).inflight) (ht : e.tseq = tseq) (hr : e.ready = none)
    (hh : s.resultHeld group tseq = false) (hm : (s.at_ group 0).lostMiss group tseq = none) :
    ∃ t, exec (.variableLatencyResult group tseq) s = .next t ∧ t.mem = s.mem ∧
      (AMap.get {} t.groups group).ctx.regs = (AMap.get {} s.groups group).ctx.regs ∧
      ∀ f ∈ (AMap.get {} t.groups group).inflight, f.tseq = tseq → f.ready ≠ none := by
  obtain ⟨b, hb⟩ : ∃ b, (AMap.get {} s.groups group).inflight.find? (fun e => e.tseq == tseq && e.ready.isNone) = some b :=
    Option.isSome_iff_exists.mp (List.find?_isSome.mpr ⟨e, he, by simp [ht, hr]⟩)
  have hheld : (s.at_ group 0).resultHeld group tseq = false := hh
  let u := ((s.at_ group 0).arrived tseq).at_ group b.slot
  let v := if b.demotes && u.spl.live then u.demote tseq else u
  have hv : u.SameResults v group := by
    unfold v
    split
    · exact State.SameResults.demote u tseq
    · exact ⟨rfl, rfl⟩
  have hmem : v.mem = s.mem := by
    unfold v
    split
    · exact State.demote_mem u tseq
    · rfl
  have hgrp := (s.at_ group 0).arrived_grp tseq
  refine ⟨s.back v, ?_, hmem, hv.regs.trans (congrArg (·.ctx.regs) hgrp), fun f hf => ?_⟩
  · change execVariableLatencyResult group tseq s = _
    simp only [execVariableLatencyResult]
    rw [show (s.at_ group 0).grp.inflight.find? (fun e => e.tseq == tseq && e.ready.isNone) = some b from hb]
    simp only [hheld, hm, Option.isSome_none, Bool.and_false, Bool.or_self, Bool.false_eq_true, if_false]
    rfl
  · exact ready_of_mem_arriveResult ((hv.inflight.trans (congrArg Group.inflight hgrp)) ▸ hf)


/-! A deferred fault (R439): what its instruction and those after it in the split have left is undone. -/

@[simp] theorem Regs.restore_clock (r : Regs) (x : Reg) (m : Mask) (old : BitVec 1024) : (r.restore x m old).clock = r.clock := by
  cases x with
  | scount =>
    refine foldl_keeps (p := fun q : Regs => q.clock = r.clock) (fun q l hq => ?_) lanes rfl
    split <;> simp [hq]
  | v n | g n | p n | q n | mode | role => simp [Regs.restore]

theorem undoResults_clock (mine : Inflight → Bool) (l kept : List Inflight) (r : Regs) : (undoResults mine l kept r).2.clock = r.clock := by
  induction l generalizing kept r with
  | nil => rfl
  | cons e l ih =>
    unfold undoResults
    split
    · exact ih ..
    · split
      · exact ih ..
      · exact (ih ..).trans (Regs.restore_clock ..)

/-- What does not look at a covered value holds of every result that stays, where it holds of what stood and of what is not undone. -/
theorem forall_mem_coveredBy {p : Inflight → Prop} (hp : ∀ f old, p f → p { f with old := old }) {e : Inflight} {l k : List Inflight}
    (hk : coveredBy e l = some k) (hl : ∀ f ∈ l, p f) : ∀ f ∈ k, p f := by
  induction l generalizing k with
  | nil => simp [coveredBy] at hk
  | cons a l ih =>
    have ha := hl a List.mem_cons_self
    have hr : ∀ f ∈ l, p f := fun f hf => hl f (List.mem_cons_of_mem _ hf)
    unfold coveredBy at hk
    split at hk
    · next k' hk' =>
      obtain rfl := Option.some.inj hk
      exact List.forall_mem_cons.mpr ⟨ha, ih hk' hr⟩
    · split at hk
      · obtain rfl := Option.some.inj hk
        exact List.forall_mem_cons.mpr ⟨hp a _ ha, hr⟩
      · cases hk

theorem forall_mem_undoResults {p : Inflight → Prop} (hp : ∀ f old, p f → p { f with old := old }) {mine : Inflight → Bool}
    (hm : ∀ e, mine e = false → p e) (l kept : List Inflight) (r : Regs) (hk : ∀ f ∈ kept, p f) :
    ∀ f ∈ (undoResults mine l kept r).1, p f := by
  induction l generalizing kept r with
  | nil => exact hk
  | cons e l ih =>
    unfold undoResults
    split
    · next he => exact ih _ _ (List.forall_mem_append.mpr ⟨hk, by simpa using hm e (by simpa using he)⟩)
    · split
      · next k hc => exact ih _ _ (forall_mem_coveredBy hp hc hk)
      · exact ih _ _ hk

section Cancel
variable (s : State) (tseq : Word) (b : Split)

/-- Is a result of the executing split's instructions from `tseq` on? -/
def State.undoes (s : State) (tseq : Word) (f : Inflight) : Bool := f.slot == s.slot && !seqBefore f.tseq tseq

theorem State.cancelFrom_inflight :
    (s.cancelFrom tseq b).grp.inflight = (undoResults (s.undoes tseq) s.grp.inflight [] s.regs).1 :=
  congrArg Group.inflight (AMap.get_set_same ..)
theorem State.cancelFrom_regs : (s.cancelFrom tseq b).regs =
    { (undoResults (s.undoes tseq) s.grp.inflight [] s.regs).2 with
      clock := (undoResults (s.undoes tseq) s.grp.inflight [] s.regs).2.clock - BitVec.ofNat 64 (s.spl.dist - b.dist) } :=
  congrArg (fun g : Group => g.ctx.regs) (AMap.get_set_same ..)
theorem State.cancelFrom_clock : (s.cancelFrom tseq b).regs.clock = s.regs.clock - BitVec.ofNat 64 (s.spl.dist - b.dist) := by
  rw [State.cancelFrom_regs, undoResults_clock]
/-- The executing split as the instruction `tseq` found it (R439). -/
def State.rewound : Split :=
  let x := s.spl
  let demo := match x.demo.by_ with
    | some n => if seqBefore n tseq then x.demo else b.demo
    | none => x.demo
  { b with num := none, taken := none, demo := demo, sched := { x.sched with parked := b.sched.parked, bound := 0 } }

theorem State.cancelFrom_spl : (s.cancelFrom tseq b).spl = s.rewound tseq b := by
  have hs : (s.cancelFrom tseq b).grp.ctx.splits = AMap.set s.grp.ctx.splits s.slot (s.rewound tseq b) :=
    congrArg (fun g : Group => g.ctx.splits) (AMap.get_set_same ..)
  change AMap.get {} (s.cancelFrom tseq b).grp.ctx.splits s.slot = _
  rw [hs, AMap.get_set_same]
end Cancel

theorem exec_deferredFault {s : State} {group slot cls : Nat} {tseq : BitVec 32} {adda addb : BitVec 56} {e : Inflight}
    (he : (s.at_ group slot).grp.inflight.find? (fun e => e.slot == slot && e.tseq == tseq && e.ready.isNone && e.before.isSome) = some e)
    (hl : (s.at_ group slot).spl.live = true) (hlo : 5 ≤ cls) (hhi : cls ≤ 9) (h7 : cls ≠ 7)
    (hs : ∀ n, (s.at_ group slot).spl.solid = some n → seqBefore n tseq = true)
    (hh : (s.at_ group slot).resultHeld group tseq = false) (ht : s.time.turn ≤ slotNumber group (s.at_ group slot).grp) :
    let u := s.at_ group slot
    let b := e.before.getD {}
    let c := u.cancelFrom tseq b
    let f : PendingFault := { slot := slot, cls := cls, detail := 0, pc := b.pc, mask := b.mask, tseq := tseq, adda := adda, addb := addb }
    exec (.deferredFault group slot tseq cls adda addb) s = .next (s.back (c.setGrp { c.grp with pending := f :: c.grp.pending })) := by
  intro u b c f
  have hfound := List.find?_some he
  simp only [Bool.and_eq_true, beq_iff_eq] at hfound
  obtain ⟨⟨⟨hslot, htseq⟩, hready⟩, hbefore⟩ := hfound
  have hmay : u.mayDefer e = true := by
    have hspl : u.splitAt e.slot = u.spl := by rw [hslot]; rfl
    have hsolid : (match u.spl.solid with | some n => n == e.tseq || seqBefore n e.tseq | none => true) = true := by
      split
      · next n hn => simp [htseq, hs n hn]
      · rfl
    simp only [State.mayDefer, hready, hbefore, hspl]
    rw [show u.spl.live = true from hl]
    exact hsolid
  change execDeferredFault group slot tseq cls adda addb s = _
  simp only [execDeferredFault]
  rw [show (s.at_ group slot).faultable tseq = some e from he]
  have hfalse : (!u.mayDefer e || decide (cls < 5) || decide (9 < cls) || u.resultHeld group tseq ||
      decide (slotNumber group u.grp < s.time.turn)) = false := by
    simp only [Bool.or_eq_false_iff, decide_eq_false_iff_not, Nat.not_lt, Bool.not_eq_false']
    exact ⟨⟨⟨⟨hmay, hlo⟩, hhi⟩, hh⟩, ht⟩
  have hcls : (cls == 0x07) = false := beq_false_of_ne h7
  simp only [hcls]
  exact if_neg (by simpa using hfalse)

/-- What the fault leaves of its group, with the faults that are then pending. -/
theorem State.deferred_leaves {u v : State} {tseq : Word} {b : Split} {l : List PendingFault} {f : PendingFault}
    (hf : f.slot = u.slot)
    (hv : v.grp = { (u.cancelFrom tseq b).grp with pending := f :: l }) (hslot : v.slot = u.slot) :
    f ∈ v.grp.pending ∧ v.spl.pc = b.pc ∧ v.spl.mask = b.mask ∧ v.frozen u.slot = true ∧
      v.regs.clock = u.regs.clock - BitVec.ofNat 64 (u.spl.dist - b.dist) ∧
      (∀ f ∈ v.grp.inflight, f.slot = u.slot → seqBefore f.tseq tseq = true) ∧
      ∀ e, u.grp.inflight = [e] → e.slot = u.slot → seqBefore e.tseq tseq = false →
        v.regs = { (u.regs.restore e.reg e.lanes e.old) with clock := v.regs.clock } := by
  have hspl : v.spl = u.rewound tseq b := by
    rw [State.spl, State.splitAt, hv, hslot]
    exact u.cancelFrom_spl tseq b
  have hregs : v.regs = (u.cancelFrom tseq b).regs := by
    rw [State.regs, hv]
    rfl
  refine ⟨by simp [hv], by rw [hspl]; rfl, by rw [hspl]; rfl, ?_, hregs ▸ u.cancelFrom_clock tseq b, ?_, ?_⟩
  · simp [State.frozen, hv, hf]
  · rw [hv]
    change ∀ f ∈ (u.cancelFrom tseq b).grp.inflight, _
    rw [State.cancelFrom_inflight]
    refine forall_mem_undoResults (fun f old h => h) (fun f h hs => ?_) _ _ _ (by simp)
    simpa [State.undoes, hs] using h
  · intro e he hs hb
    have hmine : u.undoes tseq e = true := by simp [State.undoes, hs, hb]
    rw [hregs, State.cancelFrom_regs, he]
    simp [undoResults, hmine, coveredBy]


/-! The trap of a non-finite result (R449): what Lamplighter logs of it. -/

/-- The group's replicas without the mark of their non-finite result, ended. -/
def State.endsMarked (s : State) (group : Nat) : State :=
  (s.partners group).foldl (fun u k =>
    let u := u.at_ k 0
    if u.grp.live then (u.setGrp { u.grp with nft := none }).endGroup else u) s

theorem State.endsMarked_lamp (s : State) (group : Nat) : (s.endsMarked group).lamp = s.lamp := by
  refine State.foldl_lamp (fun t k => ?_) _ s
  dsimp only
  split
  · exact State.endGroup_lamp _
  · rfl

/-- A record of the executing group stands in every later log. -/
theorem State.Logs.of_logGroup {s t : State} {kind : BitVec 16} {detail : Word} {value : DWord}
    (h : (s.logGroup kind detail value).Logs t) : ∃ r ∈ t.lamp.log, r.kind = kind ∧ r.detail = detail ∧ r.value = value :=
  ⟨_, h.log _ List.mem_cons_self, rfl, rfl, rfl⟩

theorem exec_nonFiniteTrap {s : State} {group : Nat} {pc : Addr} {n : Word} (hn : (AMap.get {} s.groups group).nft = some (pc, n))
    (hl : s.leads group = true) :
    let g := (s.at_ group 0).grid
    ∃ t, exec (.nonFiniteTrap group) s = .next t ∧ t.gid = s.gid ∧ t.slot = s.slot ∧
      (g.ending.snuffed = false → g.ending.failed = false →
        ∃ r ∈ t.lamp.log, r.kind = 0x0004 ∧ r.detail = g.launch.snuff ∧ r.value = pc.setWidth 64) ∧
      (g.ending.snuffed = true ∨ g.ending.failed = true → ∃ r ∈ t.lamp.log, r.kind = 0x000F ∧ r.detail = g.launch.snuff) := by
  intro g
  change ∃ t, execNonFiniteTrap group s = .next t ∧ _
  simp only [execNonFiniteTrap]
  rw [show (s.at_ group 0).grp.nft = some (pc, n) from hn]
  dsimp only
  rw [show (s.at_ group 0).leads group = true from hl, if_neg (by simp)]
  by_cases hend : (g.ending.snuffed || g.ending.failed) = true
  · rw [if_pos hend]
    refine ⟨_, rfl, rfl, rfl, fun hs hf => ?_, fun _ => ?_⟩
    · simp [hs, hf] at hend
    · obtain ⟨r, hr, hk, hd, -⟩ := State.Logs.of_logGroup (.of_lamp (State.endsMarked_lamp _ group))
      exact ⟨r, hr, hk, hd⟩
  · rw [if_neg hend]
    simp only [Bool.or_eq_true, not_or] at hend
    refine ⟨_, rfl, rfl, rfl, fun _ _ => ?_, fun h => absurd h (not_or.mpr hend)⟩
    refine State.Logs.of_logGroup (s := s.at_ group 0) ?_
    have hlog := fun (u : State) (d : Word) (x : DWord) => State.Logs.logAt u 1 (BitVec.ofNat 8 (u.coreId / 72)) (BitVec.ofNat 8 (u.coreId % 72)) d x
    exact ((hlog _ _ _).trans ((hlog _ _ _).trans (hlog _ _ _))).trans
      ((State.Logs.of_lamp (State.endsMarked_lamp _ group)).trans ((State.Logs.cancel ..).trans
        ((State.Logs.cancelToken _ g.launch.snuff).trans (.of_lamp rfl))))


/-! Rows that a peer sends are added into the open block (R255). -/

theorem Regs.peerAdd_eq (r : Regs) (m : PeerMsg) : r.peerAdd m = Regs.editRows Prod.fst
    (fun e j x => BitVec.ofNat 32 (floatCombine .f32 (Fl.add false) x.toNat (m.data.getD (8 * e.2 + j) 0).toNat)) m.block
    (lanes.filter m.mask.has).zipIdx r := rfl

section PeerAdd
variable (r : Regs) (m : PeerMsg)

theorem row_lt_of_mem_zipIdx {m : Mask} (e : Nat × Nat) (h : e ∈ (lanes.filter m.has).zipIdx) : e.1 < 32 ∧ m.has e.1 = true := by
  obtain ⟨hr, hm⟩ := List.mem_filter.mp (List.mem_of_getElem? (List.mk_mem_zipIdx_iff_getElem?.mp h))
  exact ⟨List.mem_range.mp hr, hm⟩

theorem Regs.getAcc_peerAdd {k row j : Nat} (hk : (lanes.filter m.mask.has)[k]? = some row) (hj : j < 8) :
    (r.peerAdd m).getAcc m.block row j = BitVec.ofNat 32 (Fmt.f32.roundTo {} (Fl.add false
      (Fmt.f32.value (r.getAcc m.block row j).toNat) (Fmt.f32.value (m.data.getD (8 * k + j) 0).toNat))) := by
  have hmem : (row, k) ∈ (lanes.filter m.mask.has).zipIdx := List.mk_mem_zipIdx_iff_getElem?.mpr hk
  have distinct : ((lanes.filter m.mask.has).zipIdx).Pairwise (Prod.fst · ≠ Prod.fst ·) := by
    refine List.pairwise_map.mp ?_
    rw [List.zipIdx_map_fst]
    exact List.nodup_range.filter _
  rw [Regs.peerAdd_eq]
  exact Regs.getAcc_editRows Prod.fst _ hj r (fun e he => (row_lt_of_mem_zipIdx e he).1) distinct hmem

theorem Regs.getAcc_peerAdd_other {n row j : Nat} (hr : row < 32) (hj : j < 8) (h : n ≠ m.block ∨ m.mask.has row = false) :
    (r.peerAdd m).getAcc n row j = r.getAcc n row j := by
  rw [Regs.peerAdd_eq]
  refine Regs.getAcc_editRows_other Prod.fst _ hr hj r (fun e he => (row_lt_of_mem_zipIdx e he).1) fun hn e he heq => ?_
  have hm := (row_lt_of_mem_zipIdx e he).2
  rw [heq] at hm
  rcases h with h | h
  · exact h hn
  · simp [hm] at h

end PeerAdd

theorem exec_peerAdd {s : State} {idx : Nat} {m : PeerMsg} (hm : s.peers[idx]? = some m)
    (ha : (s.at_ m.target 0).cluster.act = .active) (hb : (s.at_ m.gid 0).peerBehind m = false)
    (hl : (s.at_ m.target 0).grp.live = true) (ho : (s.at_ m.target 0).regs.openAcc.getLsbD m.block = true) :
    exec (.peerAdd idx) s = .next (s.back
      ({ s.at_ m.target 0 with peers := s.peers.eraseIdx idx }.setRegs ((s.at_ m.target 0).regs.peerAdd m))) := by
  change execPeerAdd idx s = _
  simp only [execPeerAdd, hm]
  rw [ha, hb, hl, ho]
  rfl


/-! A command that has ended leaves its queue, and the counter moves over it (R238). -/

theorem State.setTeam_prune_ctx (s : State) (x : Nat) : (s.setTeam s.team.prune).ctx x = s.ctx x := by
  change AMap.get {} (AMap.get {} (AMap.set s.teams s.teamId s.team.prune) s.teamId).ctxs x = _
  rw [AMap.get_set_same]
  rfl

@[simp] theorem State.releaseClocks_gid (s : State) (now : DWord) (p : Nat → Nat → Split → Bool) :
    (s.releaseClocks now p).gid = s.gid := by
  unfold State.releaseClocks
  split <;> rfl

/-- A context with one command ended. -/
def EngineCtx.ends (x : EngineCtx) (num : Nat) : EngineCtx :=
  { x with queue := x.queue.map fun c => if c.num == num then { c with started := true, done := true } else c }

/-- A command of one group, without an arrival and with nothing to buffer, changes its own queue alone. -/
theorem State.completeCmd_ctx {v : State} {ctx : Nat} {d : Cmd} (hr : v.replicated = false) (hp : d.pend = [])
    (hc : ctlNtf d.control = false) (hm : ∀ a b c, d.op ≠ .mdrp a b c) :
    (v.completeCmd ctx d).gid = v.gid ∧ (v.completeCmd ctx d).ctx ctx = ((v.ctx ctx).ends d.num).sweep := by
  have hcount : ∀ u : State, u.countedAt d = none := fun u => by
    unfold State.countedAt
    split
    · rfl
    · rw [hc]; rfl
  have harrive : ∀ u : State, u.commandArrival d = u := fun u => by
    unfold State.commandArrival
    split
    · next h => exact absurd h (hm _ _ _)
    · rw [hc]; rfl
  unfold State.completeCmd
  extract_lets s1 s2 bar repl s3 team s4 s5 x y s6 s7
  have h2 : s2 = s1 := by unfold s2; rw [hp]; rfl
  have hbar : bar = none := hcount s2
  have h3 : s3 = s1 := by
    have hrep : s2.replicated = false := by rw [h2]; exact hr
    unfold s3
    rw [hrep]
    exact h2
  have h4 : s4 = s1 := by unfold s4; rw [hbar]; exact h3
  have hx : x = (v.ctx ctx).ends d.num := by
    unfold x s5
    rw [h4, State.editCmd, State.ctx_setCtx]
    rfl
  have h6 : s6.gid = v.gid := by
    have h5 : s5.gid = v.gid := by
      change s4.gid = v.gid
      rw [h4]
    exact foldl_keeps (p := fun t : State => t.gid = v.gid) (fun t _ h => (State.releaseClocks_gid ..).trans h) _ h5
  have h7 : s7 = s6.setCtx ctx y := harrive _
  refine ⟨h7 ▸ h6, ?_⟩
  rw [State.setTeam_prune_ctx, h7, State.ctx_setCtx]
  unfold y
  rw [hx]

theorem EngineCtx.sweep_ends_head {x : EngineCtx} {d : Cmd} {rest : List Cmd} (hq : x.queue = d :: rest)
    (hrest : ∀ f ∈ rest, f.num ≠ d.num ∧ f.done = false) :
    (x.ends d.num).sweep.counter = BitVec.ofNat 64 d.num ∧ (x.ends d.num).sweep.queue = rest := by
  have hmap : rest.map (fun c => if c.num == d.num then { c with started := true, done := true } else c) = rest := by
    rw [List.map_congr_left (g := id) fun c hc => by simp [(hrest c hc).1], List.map_id]
  have hsweep : sweepQueue (BitVec.ofNat 64 d.num) rest = (BitVec.ofNat 64 d.num, rest) := by
    cases rest with
    | nil => rfl
    | cons f r => simp [sweepQueue, (hrest f List.mem_cons_self).2]
  have hqueue : (x.ends d.num).queue = { d with started := true, done := true } :: rest := by
    rw [EngineCtx.ends, hq, List.map_cons, hmap]
    simp
  simp [EngineCtx.sweep, hqueue, sweepQueue, hsweep]

theorem exec_engineCommandComplete {s : State} {team ctx num : Nat} {d : Cmd} {rest : List Cmd}
    (hq : ((s.ofTeam team).ctx ctx).queue = d :: rest) (hn : d.num = num) (hst : d.started = true) (hdn : d.done = false)
    (ho : onceCommand d.op = false) (hs : isShade d.op = false) (hp : (s.at_ d.gid d.slot).performed d = true) :
    exec (.engineCommandComplete team ctx num) s = .next (s.back ((s.at_ d.gid d.slot).completeCmd ctx d)) := by
  have hfind : ((s.ofTeam team).ctx ctx).queue.find? (fun c => c.num == num && c.started && !c.done) = some d := by
    rw [hq]
    simp [hn, hst, hdn]
  change execEngineCommandComplete team ctx num s = _
  simp only [execEngineCommandComplete, hfind, hs, ho, hp]
  rfl

/-- Settles O58: each event of an instruction or a command after its issue is enabled as the spec says, and does what it says; what
Lamplighter logs of a non-finite result stays through the end of its groups and of its grid. -/
theorem unitEvents : Obligations.UnitEvents := by
  unfold Obligations.UnitEvents
  intro s group slot core idx team ctx num die cls tseq w adda addb u x c t1
  refine ⟨exec_illegalInstruction, fun _ => exec_instructionFetch, exec_splitUrgent,
    fun _ _ hw hi hr hn hd hh hs => exec_safePointDistance hw hi hr hn hd hh hs,
    fun _ he ht hr hh hm => exec_variableLatencyResult he ht hr hh hm, ?deferred, fun _ _ hn hl => exec_nonFiniteTrap hn hl,
    fun _ hm => ⟨fun he h => exec_mshrRetry_enters hm he h, fun he h => exec_mshrRetry_ages hm he h,
      fun he ha h ho => exec_mshrAged hm he ha h ho⟩,
    fun _ _ hd hg hr => exec_guardResolve hd hg hr,
    fun _ hd => ⟨fun h => exec_engineCommandStart_discarded hd h,
      fun _ h hw ha hp ho hv => exec_engineCommandStart_runs hd h hw ha hp ho hv⟩,
    ?complete, fun _ hd => exec_collectiveChunkBoundary hd, ?peer⟩
  case deferred =>
    intro e he hl hlo hhi h7 hs hh ht
    have hfound := List.find?_some he
    simp only [Bool.and_eq_true, beq_iff_eq] at hfound
    obtain ⟨⟨⟨hslot, htseq⟩, -⟩, -⟩ := hfound
    refine ⟨_, exec_deferredFault he hl hlo hhi h7 hs hh ht, ?_⟩
    extract_lets c' v b
    obtain ⟨hpend, hpc, hmask, hfrozen, hclock, hin, hregs⟩ := State.deferred_leaves (u := u) (v := v) (tseq := tseq) (b := b)
      (f := { slot := slot, cls := cls, detail := 0, pc := b.pc, mask := b.mask, tseq := tseq, adda := adda, addb := addb }) rfl
      (AMap.get_set_same ..) rfl
    exact ⟨hpend, hpc, hmask, hfrozen, hclock, rfl, hin, fun h => hregs e h hslot (by simp [seqBefore, htseq])⟩
  case complete =>
    intro d rest hq hn hst hdn hteam ho hs hp
    refine ⟨_, exec_engineCommandComplete hq hn hst hdn ho hs hp, fun hr hpend hc hm hrest => ?_⟩
    obtain ⟨hgid, hctx⟩ := State.completeCmd_ctx (ctx := ctx) hr hpend hc hm
    have hend : ((s.back ((s.at_ d.gid d.slot).completeCmd ctx d)).ofTeam team).ctx ctx = ((t1.ctx ctx).ends d.num).sweep := by
      have hstart : (s.at_ d.gid d.slot).ctx ctx = t1.ctx ctx := by
        rw [State.ctx_ofTeam, ← hteam]
        rfl
      rw [State.ctx_ofTeam, ← hteam, ← hstart, ← hctx, State.ctx, State.team, State.teamId, hgid]
      rfl
    subst hn
    rw [hend]
    exact EngineCtx.sweep_ends_head hq hrest
  case peer =>
    intro m hm v ha hb hl ho
    refine ⟨_, exec_peerAdd hm ha hb hl ho, rfl, rfl, ?_⟩
    intro r
    have hr : r = v.regs.peerAdd m := congrArg (fun g : Group => g.ctx.regs) (AMap.get_set_same ..)
    rw [hr]
    exact ⟨fun k row j hk hj => v.regs.getAcc_peerAdd m hk hj, fun n row j hrow hj h => v.regs.getAcc_peerAdd_other m hrow hj h⟩

end Sys2Proof.Machine

/-! PROOFS. Stopping, saving, parking and resuming clusters; bins and waiting spawns (R55, R59 to R72, R444, R446). -/

namespace Sys2Proof.Machine

@[simp] theorem State.clusterAt_setClusterAt (s : State) (c j : Nat) (x : Cluster) :
    (s.setClusterAt c x).clusterAt j = if j = c then x else s.clusterAt j := AMap.get_set ..

/-- Clusters stand in `t` as in `s`. -/
theorem State.clusterAt_of_clusters {s t : State} (h : t.clusters = s.clusters) (j : Nat) : t.clusterAt j = s.clusterAt j := by
  rw [State.clusterAt, h]
  rfl

/-- A fold of operations that leave the clusters alone. -/
theorem State.foldl_clusters {α : Type} {f : State → α → State} (hf : ∀ (t : State) (a : α), (f t a).clusters = t.clusters)
    (l : List α) (s : State) : (l.foldl f s).clusters = s.clusters :=
  foldl_keeps (p := fun t : State => t.clusters = s.clusters) (fun t a h => (hf t a).trans h) l rfl

/-! One edit of every cluster of a unit. -/

section Unit
variable {f : State → Nat → State} {e : Cluster → Cluster} {p : State → Prop}

/-- Where each step edits its own cluster, and an edit made twice is the edit made once, the fold edits the unit's clusters. -/
theorem State.clusterAt_foldl (hp : ∀ t c, p t → p (f t c))
    (hf : ∀ (t : State) (c j : Nat), p t → (f t c).clusterAt j = if j = c then e (t.clusterAt c) else t.clusterAt j)
    (he : ∀ x, e (e x) = e x) (l : List Nat) {s : State} (hs : p s) (j : Nat) :
    (l.foldl f s).clusterAt j = if j ∈ l then e (s.clusterAt j) else s.clusterAt j := by
  induction l generalizing s with
  | nil => simp
  | cons c l ih =>
    rw [List.foldl_cons, ih (hp s c hs), hf s c j hs]
    by_cases hc : j = c
    · subst hc
      simp [he]
    · simp [hc]

end Unit

theorem exec_preemptRequest {s : State} {c : Nat} {park : Bool} (hl : (s.clusterAt c).live = true) (ha : (s.clusterAt c).act = .active)
    (hs : (s.clusterAt c).stop = none) (hg : (s.gridAt (s.clusterAt c).grid).over = false)
    (hp : park = true ∨ s.mayPreempt (s.gridAt (s.clusterAt c).grid) = true) :
    ∃ t, exec (.preemptRequest c park) s = .next t ∧ t.groups = s.groups ∧
      ∀ j, t.clusterAt j = if j ∈ s.unit c then { s.clusterAt j with stop := some s.time.cycle } else s.clusterAt j := by
  refine ⟨_, ?_, ?_, State.clusterAt_foldl (f := fun t c => t.setClusterAt c { t.clusterAt c with stop := some t.time.cycle })
    (p := fun t => t.time = s.time) (e := fun x => { x with stop := some s.time.cycle }) (fun t c h => h)
    (fun t c j h => h ▸ State.clusterAt_setClusterAt ..) (fun _ => rfl) (s.unit c) rfl⟩
  · change execPreemptRequest c park s = _
    simp only [execPreemptRequest]
    rw [if_neg (by rcases hp with hp | hp <;> simp [hl, ha, hs, hg, hp])]
  · exact foldl_keeps (p := fun t : State => t.groups = s.groups) (fun t c h => by exact h) _ rfl

theorem exec_preemptWithdraw {s : State} {c n : Nat} (hn : (s.clusterAt c).stop = some n) (ha : (s.clusterAt c).act = .active)
    (ht : n + 2 ^ 20 ≤ s.time.cycle) (hs : s.unitStands (s.unit c) = false) :
    ∃ t, exec (.preemptWithdraw c) s = .next t ∧
      ∀ j, t.clusterAt j = if j ∈ s.unit c then { s.clusterAt j with stop := none } else s.clusterAt j := by
  refine ⟨_, ?_, State.clusterAt_foldl (f := fun t k => (t.setClusterAt k { t.clusterAt k with stop := none }).goOn k false)
    (p := fun _ => True) (e := fun x => { x with stop := none }) (fun _ _ h => h)
    (fun t c j _ => State.clusterAt_setClusterAt ..) (fun _ => rfl) (s.unit c) trivial⟩
  change execPreemptWithdraw c s = _
  simp only [execPreemptWithdraw, hn]
  rw [if_neg (by simpa [ha, hs] using ht)]


/-! Saving and parking (R444, R446): the step of one cluster of the unit. -/

theorem State.Works.clusters {s t : State} (h : s.Works t) : t.clusters = s.clusters := h.of_frame (·.clusters)

theorem State.settleCluster_clusters (s : State) (c : Nat) : (s.settleCluster c).clusters = s.clusters :=
  State.foldl_clusters (fun t g => by rfl) (s.clusterGroups c) s

theorem State.takeBins_other (s : State) {c j : Nat} (h : j ≠ c) : (s.takeBins c).clusterAt j = s.clusterAt j := by
  refine foldl_keeps (p := fun t : State => t.clusterAt j = s.clusterAt j) (fun t n ht => ?_) _ rfl
  refine foldl_keeps (p := fun u : State => u.clusterAt j = s.clusterAt j) (fun u k hu => ?_) _ ht
  dsimp only
  split
  · exact (AMap.get_set_other _ _ _ h).trans hu
  · exact hu

/-- What is saved of a cluster, before its bins are taken, leaves the clusters alone. -/
theorem State.saveCluster_eq (s : State) (c area : Nat) : ∃ t : State, t.clusters = s.clusters ∧
    s.saveCluster c area =
      (t.takeBins c).setClusterAt c { (t.takeBins c).clusterAt c with act := .saved, stop := none, area := area } := by
  refine ⟨_, ?_, rfl⟩
  refine (State.settleCluster_clusters ..).trans ((State.Works.physWriteRun ..).clusters.trans ?_)
  refine (State.foldl_clusters (f := State.holdTeam) (fun t n => by rfl) _ _).trans ?_
  exact State.foldl_clusters (fun t n => (State.Works.writeBackDirty ..).clusters) (s.teamsOf c) s

/-- Has the cluster left the cores, to the state `a` and the area `n`? -/
structure Cluster.Left (x : Cluster) (a : Activity) (n : Nat) : Prop where
  act : x.act = a
  stop : x.stop = none
  area : x.area = n

theorem State.clusterAt_saveCluster (s : State) (c n : Nat) :
    ((s.saveCluster c n).clusterAt c).Left .saved n ∧ ∀ j ≠ c, (s.saveCluster c n).clusterAt j = s.clusterAt j := by
  obtain ⟨t, ht, hs⟩ := s.saveCluster_eq c n
  rw [hs]
  refine ⟨?_, fun j hj => ?_⟩
  · rw [State.clusterAt_setClusterAt, if_pos rfl]
    exact ⟨rfl, rfl, rfl⟩
  · rw [State.clusterAt_setClusterAt, if_neg hj, State.takeBins_other _ hj]
    exact State.clusterAt_of_clusters ht j

theorem State.clusterAt_parkCluster (s : State) (c n : Nat) :
    ((s.parkCluster c n).clusterAt c).Left .parked n ∧ ∀ j ≠ c, (s.parkCluster c n).clusterAt j = s.clusterAt j := by
  have ht : ((s.physWriteRun n (s.parkBytes c)).settleCluster c).clusters = s.clusters :=
    (State.settleCluster_clusters ..).trans (State.Works.physWriteRun ..).clusters
  unfold State.parkCluster
  dsimp only
  refine ⟨?_, fun j hj => ?_⟩
  · rw [State.clusterAt_setClusterAt, if_pos rfl]
    exact ⟨rfl, rfl, rfl⟩
  · rw [State.clusterAt_setClusterAt, if_neg hj]
    exact State.clusterAt_of_clusters ht j

/-- Cluster after cluster of a unit leaves the cores, each to the bytes after those of the one before. -/
theorem State.foldl_left {f : State → Nat → Nat → State} {size : State → Nat → Nat} {a : Activity}
    (hf : ∀ (t : State) (c n : Nat), ((f t c n).clusterAt c).Left a n ∧ ∀ j ≠ c, (f t c n).clusterAt j = t.clusterAt j) (l : List Nat)
    (s : State) (n : Nat) :
    let t := (l.foldl (fun (b : State × Nat) c => (f b.1 c b.2, b.2 + size b.1 c)) (s, n)).1
    ∀ j, (j ∈ l ∨ (s.clusterAt j).act = a ∧ (s.clusterAt j).stop = none) → (t.clusterAt j).act = a ∧ (t.clusterAt j).stop = none := by
  induction l generalizing s n with
  | nil => simp
  | cons c l ih =>
    intro t j hj
    refine ih (f s c n) _ j ?_
    obtain ⟨hc, ho⟩ := hf s c n
    by_cases h : j = c
    · subst h
      exact .inr ⟨hc.act, hc.stop⟩
    · rw [ho j h]
      simpa [h] using hj

theorem exec_clusterPreempt {s : State} {c area : Nat} (hq : s.unitQuiet (s.unit c) = true)
    (ha : s.areaLegal area (s.saveBytes (s.unit c)) = true) :
    ∃ t, exec (.clusterPreempt c area) s = .next t ∧
      (∀ j ∈ s.unit c, (t.clusterAt j).act = .saved ∧ (t.clusterAt j).stop = none) ∧ (s.unit c = [c] → (t.clusterAt c).area = area) := by
  refine ⟨_, ?_, fun j hj => State.foldl_left (size := fun t c => (t.clusterBytes c).length) State.clusterAt_saveCluster (s.unit c) s area j (.inl hj), fun hl => ?_⟩
  · change execClusterPreempt c area s = _
    simp only [execClusterPreempt]
    rw [if_neg (by simp [hq, ha])]
  · rw [hl]
    exact (s.clusterAt_saveCluster c area).1.area

theorem exec_clusterPark {s : State} {c area : Nat} (hq : s.unitQuiet (s.unit c) = true)
    (ha : s.areaLegal area (s.parkSize (s.unit c)) = true)
    (hl : s.cores.all (fun e => e.2.locks.all fun f => !((s.unit c).flatMap s.teamsOf).contains f.scratch) = true)
    (hr : ∀ t ∈ (s.unit c).flatMap s.teamsOf, s.parkedGroups (s.teamAt t).core +
        ((((s.unit c).flatMap s.teamsOf).filter fun u => (s.teamAt u).core == (s.teamAt t).core).flatMap s.groupsOf).length ≤ 96) :
    ∃ t, exec (.clusterPark c area) s = .next t ∧
      (∀ j ∈ s.unit c, (t.clusterAt j).act = .parked ∧ (t.clusterAt j).stop = none) ∧ (s.unit c = [c] → (t.clusterAt c).area = area) := by
  have hroom : (((s.unit c).flatMap s.teamsOf).all fun t => decide (s.parkedGroups (s.teamAt t).core +
      ((((s.unit c).flatMap s.teamsOf).filter fun u => (s.teamAt u).core == (s.teamAt t).core).flatMap s.groupsOf).length ≤ 96)) = true :=
    List.all_eq_true.mpr fun t ht => decide_eq_true (hr t ht)
  have hlocks : (s.cores.any fun k => k.2.locks.any fun e => ((s.unit c).flatMap s.teamsOf).contains e.scratch) = false := by
    refine List.any_eq_false.mpr fun k hk => ?_
    rw [Bool.not_eq_true]
    refine List.any_eq_false.mpr fun e he => ?_
    simpa using List.all_eq_true.mp (List.all_eq_true.mp hl k hk) e he
  refine ⟨_, ?_, fun j hj => State.foldl_left (size := fun t c => (t.parkBytes c).length) State.clusterAt_parkCluster (s.unit c) s area j (.inl hj), fun hl => ?_⟩
  · change execClusterPark c area s = _
    simp only [execClusterPark]
    rw [hroom, hlocks, if_neg (by simp [hq, ha])]
  · rw [hl]
    exact (s.clusterAt_parkCluster c area).1.area


/-! Parked and saved clusters go on (R446). -/

theorem State.teamAt_setTeamAt (s : State) (t j : Nat) (x : Team) :
    (s.setTeamAt t x).teamAt j = if j = t then x else s.teamAt j := AMap.get_set ..

/-- A team goes on in its next run. -/
def State.runAgain (s : State) (t : Nat) : State := s.setTeamAt t { s.teamAt t with run := (s.teamAt t).run + 1 }

theorem State.foldl_runAgain (l : List Nat) (hl : l.Nodup) (s : State) (j : Nat) :
    ((l.foldl State.runAgain s).teamAt j).run = if j ∈ l then (s.teamAt j).run + 1 else (s.teamAt j).run := by
  induction l generalizing s with
  | nil => simp
  | cons a l ih =>
    obtain ⟨ha, hl⟩ := List.nodup_cons.mp hl
    rw [List.foldl_cons, ih hl, State.runAgain, State.teamAt_setTeamAt]
    by_cases h : j = a
    · subst h
      simp [ha]
    · simp [h]

theorem State.clusterAt_reactivate (s : State) (c : Nat) : ((s.reactivate c).clusterAt c).act = .active := by
  change (State.clusterAt (State.setClusterAt _ c _) c).act = _
  rw [State.clusterAt_setClusterAt, if_pos rfl]

theorem exec_clusterUnpark {s : State} {c : Nat} (hl : s.unit c = [c]) (ha : (s.clusterAt c).act = .parked) (hf : s.fitsBack c = true) :
    ∃ t, exec (.clusterUnpark c) s = .next t ∧ (t.clusterAt c).act = .active ∧ t.mem = s.mem ∧
      ((s.teamsOf c).Nodup → ∀ j ∈ s.teamsOf c, (t.teamAt j).run = (s.teamAt j).run + 1) := by
  refine ⟨s.reactivate c, ?_, s.clusterAt_reactivate c, State.reactivate_mem .., fun hn j hj => ?_⟩
  · change execClusterUnpark c s = _
    simp [execClusterUnpark, hl, ha, hf]
  · change (((s.teamsOf c).foldl State.runAgain s).teamAt j).run = _
    rw [State.foldl_runAgain _ hn, if_pos hj]

theorem State.placeBins_clusters {s t : State} {c : Nat} {l : List (Nat × Nat × Bin)} (h : s.placeBins c l = some t) :
    t.clusters = s.clusters := by
  induction l generalizing s with
  | nil => exact congrArg State.clusters (Option.some.inj h).symm
  | cons e l ih =>
    obtain ⟨pos, n, b⟩ := e
    unfold State.placeBins at h
    dsimp only at h
    split at h
    · exact (ih h).trans rfl
    · cases h

theorem State.resumeCluster_clusterAt {s u : State} {c origin : Nat} (h : s.resumeCluster c origin = some u) :
    (u.clusterAt c).act = .active ∧ (u.clusterAt c).origin = origin := by
  unfold State.resumeCluster at h
  dsimp only at h
  split at h
  · cases h
  · split at h
    · cases h
    · obtain rfl := Option.some.inj h
      rw [State.clusterAt_setClusterAt, if_pos rfl]
      exact ⟨State.clusterAt_reactivate _ c, rfl⟩

theorem exec_clusterResume {s u t : State} {c place : Nat} (hl : s.unit c = [c]) (ha : (s.clusterAt c).act = .saved)
    (hg : (s.gridAt (s.clusterAt c).grid).over = false)
    (hp : (s.permittedSets (s.gridAt (s.clusterAt c).grid).launch.replicas).contains [place % 288 / 72] = true)
    (hu : s.resumeCluster c (place % 288) = some u) (ht : u.placeBins c (s.clusterAt c).bins = some t) :
    exec (.clusterResume c place) s = .next t ∧ (t.clusterAt c).act = .active ∧ (t.clusterAt c).origin = place % 288 := by
  refine ⟨?_, ?_⟩
  · change execClusterResume c place s = _
    simp [execClusterResume, hl, ha, hg, hu, ht]
    simpa using hp
  · rw [State.clusterAt_of_clusters (State.placeBins_clusters ht)]
    exact State.resumeCluster_clusterAt hu

/-! Bins and waiting spawns (R68 to R72). -/

theorem State.setBarrier_groups (s : State) {level : Nat} (h : level ≠ 0) (num : Nat) (b : Barrier) :
    (s.setBarrier level num b).groups = s.groups := by
  unfold State.setBarrier
  split
  · exact absurd rfl h
  all_goals rfl

/-- The executing group joins the barriers of one level from the next phase on. -/
def State.joinLevel (s : State) (level : Nat) : State :=
  (barriersOf level).foldl (fun s num =>
    s.setBarrier level num { s.barrier level num with joining := (s.barrier level num).joining ++ [s.gid] }) s

theorem State.joinBarriers_eq (s : State) :
    s.joinBarriers = (if s.grid.launch.coresident then [1, 2, 3] else [1, 2]).foldl State.joinLevel s := rfl

theorem State.joinLevel_groups (s : State) {level : Nat} (h : level ≠ 0) : (s.joinLevel level).groups = s.groups :=
  foldl_keeps (p := fun u : State => u.groups = s.groups) (fun u n hu => (State.setBarrier_groups u h n _).trans hu) (barriersOf level) rfl

theorem State.joinBarriers_groups (s : State) : s.joinBarriers.groups = s.groups := by
  rw [State.joinBarriers_eq]
  split <;> simp [State.joinLevel_groups]

theorem State.keepCheckpoint_groups (s : State) : s.keepCheckpoint.groups = s.groups := by
  unfold State.keepCheckpoint
  split
  · exact (State.Works.physWriteRun ..).of_frame (·.groups)
  · rfl

theorem State.bin_setBin (s : State) (core k : Nat) (b : Bin) : (s.setBin core k b).bin core k = b := by
  rw [State.bin, State.setBin, State.setCoreAt_coreAt, AMap.get_set_same]

theorem newGroup_clock (core : Nat) (entry : Addr) (threads : Mask) (g : List DWord) (args : List (BitVec 128)) :
    (newGroup core entry threads g args).ctx.regs.clock = 0 := by
  refine foldl_keeps (p := fun r : Regs => r.clock = 0) (fun r l hr => ?_) (List.range args.length) ?_
  · exact foldl_keeps (p := fun r : Regs => r.clock = 0) (fun r k hr => by exact hr) (List.range 4) hr
  · refine foldl_keeps (p := fun r : Regs => r.clock = 0) (fun r k hr => ?_) (List.range g.length) rfl
    split
    · exact hr
    · exact hr

/-- The group that a bin starts. -/
structure State.StartsBin (s t : State) (core k : Nat) : Prop where
  empty : t.bin core k = {}
  group : AMap.get {} t.groups (32 * (s.bin core k).team + s.freeIndexOf (s.bin core k).team) =
    newGroup core (s.bin core k).entry (BitVec.ofNat 32 (2 ^ (s.bin core k).threads.length - 1)) (s.bin core k).g (s.bin core k).threads

theorem State.startBin_starts (s : State) (core k : Nat) : s.StartsBin (s.startBin core k) core k := by
  unfold State.startBin
  extract_lets b gid mask t old u
  refine ⟨State.bin_setBin u core k {}, ?_⟩
  change AMap.get {} u.groups gid = _
  have hu : u.groups = t.groups := (State.keepCheckpoint_groups _).trans (State.joinBarriers_groups _)
  rw [hu]
  exact AMap.get_set_same ..

theorem State.StartsBin.starts {s t : State} {core k : Nat} (h : s.StartsBin t core k) :
    let b := s.bin core k
    let n := AMap.get {} t.groups (32 * b.team + s.freeIndexOf b.team)
    t.bin core k = {} ∧ n.live = true ∧ n.place.core = core ∧ n.place.threads = BitVec.ofNat 32 (2 ^ b.threads.length - 1) ∧
      (AMap.get {} n.ctx.splits 0).pc = b.entry ∧ n.ctx.regs.clock = 0 := by
  intro b n
  have hn : n = newGroup core b.entry (BitVec.ofNat 32 (2 ^ b.threads.length - 1)) b.g b.threads := h.group
  rw [hn]
  exact ⟨h.empty, rfl, rfl, rfl, rfl, newGroup_clock ..⟩

theorem exec_binTimerExpiry {s : State} {core k : Nat} (hb : (s.bin core k).threads ≠ []) (ht : (s.bin core k).timer = 0)
    (hd : (s.bin core k).due = false) (hs : s.timersStopped (s.bin core k).team = false) :
    ∃ t, exec (.binTimerExpiry core k) s = .next t ∧ (s.canStart core (s.bin core k) = true → s.StartsBin t core k) ∧
      (s.canStart core (s.bin core k) = false → t = s.setBin core k { s.bin core k with due := true }) := by
  have hempty : (s.bin core k).threads.isEmpty = false := by simpa using hb
  refine ⟨s.startOrWait core k, ?_, fun hc => ?_, fun hc => ?_⟩
  · change execBinTimerExpiry core k s = _
    simp [execBinTimerExpiry, hempty, ht, hd, hs]
  · simp only [State.startOrWait, hempty, hc]
    exact s.startBin_starts core k
  · simp only [State.startOrWait, hempty, hc]
    rfl

theorem exec_binGroupStart {s : State} {core k : Nat} (hd : (s.bin core k).due = true) (hc : s.canStart core (s.bin core k) = true) :
    ∃ t, exec (.binGroupStart core k) s = .next t ∧ s.StartsBin t core k := by
  refine ⟨_, ?_, s.startBin_starts core k⟩
  change execBinGroupStart core k s = _
  simp [execBinGroupStart, hd, hc]

theorem exec_spawnResume {s : State} {group slot : Nat} {left : List (BitVec 128)} {entry : Addr} {args : List DWord}
    (hw : (s.at_ group slot).spl.wait = some (.spawn left entry args)) (hr : (s.at_ group slot).groupRuns = true)
    (hc : (s.at_ group slot).canPlace entry = true) :
    let v := State.placeThreads entry args left (s.at_ group slot)
    exec (.spawnResume group slot) s = .next (s.back
      (if v.2 = [] then v.1.retire.settleGroup else v.1.waitFor (.spawn v.2 entry args))) := by
  intro v
  change execSpawnResume group slot s = _
  simp only [execSpawnResume, hw, hr, hc, List.isEmpty_iff]
  rfl

/-- Settles O57: the steps by which clusters stop, leave the cores and go on, and those by which bins start their groups and waiting
spawns go on. -/
theorem stopsAndBins : Obligations.StopsAndBins := by
  unfold Obligations.StopsAndBins
  intro s c area place core k group slot park x g l b starts u
  refine ⟨exec_preemptRequest, fun _ => exec_preemptWithdraw, exec_clusterPreempt, exec_clusterPark, exec_clusterUnpark,
    fun _ _ hl ha hg hp hu ht => exec_clusterResume hl ha hg hp hu ht, fun hb ht hd hs => ?_, fun hd hc => ?_,
    fun _ _ _ hw hr hc => exec_spawnResume hw hr hc⟩
  · obtain ⟨t, he, hstart, hwait⟩ := exec_binTimerExpiry hb ht hd hs
    exact ⟨t, he, fun hc => (hstart hc).starts, hwait⟩
  · obtain ⟨t, he, hstart⟩ := exec_binGroupStart hd hc
    exact ⟨t, he, hstart.starts⟩

end Sys2Proof.Machine

/-! PROOFS. The life of a launch (R28, R42 to R60, R415, R455, R456). -/

namespace Sys2Proof.Machine

/-! Maps whose every value is changed, and folds over `frame`. -/

theorem AMap.get_mapVals_of_mem {α : Type} (d : α) (f : Nat → α → α) {m : AMap α} {k : Nat} {x : α} (h : (k, x) ∈ m) :
    AMap.get d (AMap.mapVals f m) k = f k (AMap.get d m k) := by
  induction m with
  | nil => cases h
  | cons e m ih =>
    obtain ⟨j, y⟩ := e
    by_cases hj : k = j
    · subst hj
      simp [AMap.mapVals, AMap.get]
    · have hm : (k, x) ∈ m := by simpa [hj] using h
      simpa [AMap.mapVals, AMap.get, hj] using ih hm

/-- What the change of the values of key `k` keeps. -/
theorem AMap.get_mapVals_keeps {α β : Type} (p : α → β) (d : α) {f : Nat → α → α} {k : Nat} (h : ∀ x, p (f k x) = p x) (m : AMap α) :
    p (AMap.get d (AMap.mapVals f m) k) = p (AMap.get d m k) := by
  induction m with
  | nil => rfl
  | cons e m ih =>
    obtain ⟨j, y⟩ := e
    by_cases hj : k = j
    · subst hj
      simp [AMap.mapVals, AMap.get, h]
    · simpa [AMap.mapVals, AMap.get, hj] using ih

/-- What the change gives every value of key `k`, and the value of an absent key has too. -/
theorem AMap.get_mapVals_all {α : Type} {p : α → Prop} {d : α} (hd : p d) {f : Nat → α → α} {k : Nat} (h : ∀ x, p (f k x)) (m : AMap α) :
    p (AMap.get d (AMap.mapVals f m) k) := by
  induction m with
  | nil => exact hd
  | cons e m ih =>
    obtain ⟨j, y⟩ := e
    by_cases hj : k = j
    · subst hj
      simpa [AMap.mapVals, AMap.get] using h y
    · simpa [AMap.mapVals, AMap.get, hj] using ih

@[simp] theorem State.gridAt_setGridAt (s : State) (g j : Nat) (x : Grid) :
    (s.setGridAt g x).gridAt j = if j = g then x else s.gridAt j := AMap.get_set ..
@[simp] theorem State.queue_setQueue (s : State) (q j : Nat) (x : Queue) :
    (s.setQueue q x).queue j = if j = q then x else s.queue j := AMap.get_set ..

/-! The end of a record (R45, R456) leaves groups and grids alone, and of its queue what the host wrote. -/

/-- What the end of a record leaves alone. -/
structure State.Finishes (s t : State) : Prop where
  groups : t.groups = s.groups
  grids : t.grids = s.grids
  lastQueue : t.cp.lastQueue = s.cp.lastQueue
  snuffs : t.cp.snuffs = s.cp.snuffs
  head : ∀ q, (t.queue q).head = (s.queue q).head
  hostNum : ∀ q, (t.queue q).hostNum = (s.queue q).hostNum

namespace State.Finishes
variable {s t u : State}

theorem trans (h : s.Finishes t) (k : t.Finishes u) : s.Finishes u :=
  ⟨k.groups.trans h.groups, k.grids.trans h.grids, k.lastQueue.trans h.lastQueue, k.snuffs.trans h.snuffs,
    fun q => (k.head q).trans (h.head q), fun q => (k.hostNum q).trans (h.hostNum q)⟩

theorem of_cp (hg : t.groups = s.groups) (hr : t.grids = s.grids) (hc : t.cp = s.cp) : s.Finishes t := by
  refine ⟨hg, hr, by rw [hc], by rw [hc], fun q => ?_, fun q => ?_⟩ <;> rw [State.queue, hc] <;> rfl

theorem of_works (h : s.Works t) : s.Finishes t := of_cp (h.of_frame (·.groups)) (h.of_frame (·.grids)) (h.of_frame (·.cp))

theorem setQueue {q : Nat} {x : Queue} (hh : x.head = (s.queue q).head) (hn : x.hostNum = (s.queue q).hostNum) :
    s.Finishes (s.setQueue q x) := by
  refine ⟨rfl, rfl, rfl, rfl, fun j => ?_, fun j => ?_⟩ <;> rw [State.queue_setQueue] <;> split
  · next h => rw [hh, h]
  · rfl
  · next h => rw [hn, h]
  · rfl

theorem withStored (s : State) (n : Nat) : s.Finishes { s with cp := { s.cp with stored := n } } :=
  ⟨rfl, rfl, rfl, rfl, fun _ => rfl, fun _ => rfl⟩

theorem numberDone (s : State) (sub : Submission) : s.Finishes (s.numberDone sub) := by
  unfold State.numberDone
  dsimp only
  split
  · refine trans ?_ (withStored _ _)
    exact setQueue rfl rfl
  · split
    · exact setQueue rfl rfl
    · exact of_cp rfl rfl rfl

theorem finishRecord (s : State) (sub : Submission) (status detail : Nat) : s.Finishes (s.finishRecord sub status detail) := by
  unfold State.finishRecord
  extract_lets t
  refine trans (t := t) ?_ (numberDone ..)
  unfold t
  split
  · exact of_works (.physWrite ..)
  · exact of_cp rfl rfl rfl

end State.Finishes


/-! The image and the record (R42, R43, R45). -/

theorem exec_imageLoad {s : State} {asid va len : Nat} (hva : va < 2 ^ 64) :
    exec (.imageLoad asid (va + 2 ^ 64 * len)) s = .next { s with cp := { s.cp with
      images := (s.readImage asid va len).toList ++ s.cp.images.filter fun j => !(j.asid == asid && j.va == va) } } := by
  have hmod : (va + 2 ^ 64 * len) % 2 ^ 64 = va := by omega
  have hdiv : (va + 2 ^ 64 * len) / 2 ^ 64 = len := by omega
  change execImageLoad asid (va + 2 ^ 64 * len) s = _
  simp only [execImageLoad, hmod, hdiv]

/-- What submitting a record leaves: the queue's registers, and groups. -/
structure State.Submits (s t : State) : Prop where
  groups : t.groups = s.groups
  lastQueue : t.cp.lastQueue = s.cp.lastQueue
  head : ∀ q, (t.queue q).head = (s.queue q).head
  hostNum : ∀ q, (t.queue q).hostNum = (s.queue q).hostNum

theorem State.Finishes.submits {s t : State} (h : s.Finishes t) : s.Submits t := ⟨h.groups, h.lastQueue, h.head, h.hostNum⟩

theorem State.submit_submits (s : State) (r asid : Nat) (sub : Submission) (pcap : Nat) : s.Submits (s.submit r asid sub pcap) := by
  unfold State.submit
  extract_lets sub' cp t
  have ht : s.Submits t := ⟨rfl, rfl, fun _ => rfl, fun _ => rfl⟩
  have htrans : ∀ {u}, t.Submits u → s.Submits u := fun h => ⟨h.groups, h.lastQueue, h.head, h.hostNum⟩
  split
  · exact htrans (State.Finishes.finishRecord ..).submits
  · exact htrans (State.Finishes.finishRecord ..).submits
  · split
    · exact htrans (State.Finishes.finishRecord ..).submits
    · exact ⟨rfl, rfl, fun _ => rfl, fun _ => rfl⟩

/-- The queue whose record is read is the last served. -/
def State.turnTo (s : State) (q : Nat) : State := { s with cp := { s.cp with lastQueue := q } }

theorem exec_recordRead {s : State} {q : Nat} (hq : s.queueOrder.find? s.hasRecord = some q) :
    let x := s.queue q
    ∃ t, exec .recordRead s = .next t ∧ t.cp.lastQueue = q ∧ t.groups = s.groups ∧
      ∀ root, s.rootOf (qctlAsid x.ctl) = some root →
        (s.readVirt root (x.base.toNat + 384 * x.head.toNat) 384 = none →
          t.queue q = { x with stat := x.stat ||| 0x10, stopped := true }) ∧
        (s.readVirt root (x.base.toNat + 384 * x.head.toNat) 384 ≠ none →
          (t.queue q).head = BitVec.ofNat 12 ((x.head.toNat + 1) % 2 ^ qctlLogn x.ctl) ∧ (t.queue q).hostNum = x.hostNum + 1) := by
  intro x
  have hread : ∀ root, s.rootOf (qctlAsid x.ctl) = some root →
      ((s.turnTo q).rootOf (qctlAsid x.ctl)).bind (fun root =>
        (s.turnTo q).readVirt root (x.base.toNat + 384 * x.head.toNat) 384) =
      s.readVirt root (x.base.toNat + 384 * x.head.toNat) 384 := fun root hroot => by
    rw [show (s.turnTo q).rootOf (qctlAsid x.ctl) = some root from hroot]
    rfl
  change ∃ t, execRecordRead s = .next t ∧ _
  simp only [execRecordRead, hq]
  split
  · next hr =>
    refine ⟨_, rfl, rfl, rfl, fun root hroot => ⟨fun _ => ?_, fun hsome => ?_⟩⟩
    · rw [State.queue_setQueue, if_pos rfl]
      rfl
    · exact absurd (hread root hroot ▸ hr) hsome
  · next r hr =>
    have hsub := State.submit_submits
      ((s.turnTo q).setQueue q
        { x with head := BitVec.ofNat 12 ((x.head.toNat + 1) % 2 ^ qctlLogn x.ctl), hostNum := x.hostNum + 1 }) r (qctlAsid x.ctl)
      { queue := q, enGen := x.enGen, seq := x.hostNum + 1 } (qctlPcap x.ctl)
    refine ⟨_, rfl, hsub.lastQueue, hsub.groups, fun root hroot => ⟨fun hnone => ?_, fun _ => ⟨(hsub.head q).trans ?_, (hsub.hostNum q).trans ?_⟩⟩⟩
    · exact absurd ((hread root hroot ▸ hr).symm.trans hnone) (by simp)
    · rw [State.queue_setQueue, if_pos rfl]
    · rw [State.queue_setQueue, if_pos rfl]

/-! Arbitration (R48 to R50). -/

theorem mem_of_firstLaunch {l : List (Nat × Grid)} {e : Nat × Grid} (h : firstLaunch l = some e) : e ∈ l := by
  induction l generalizing e with
  | nil => cases h
  | cons a l ih =>
    unfold firstLaunch at h
    split at h
    · obtain rfl := Option.some.inj h
      exact List.mem_cons_self
    · next f hf =>
      split at h
      · obtain rfl := Option.some.inj h
        exact List.mem_cons_of_mem _ (ih hf)
      · obtain rfl := Option.some.inj h
        exact List.mem_cons_self

/-- A launch that arbitration of the launch `l` of number `k` leaves: taken, or older. -/
def Grid.arbitrated (k : Nat) (l : Grid) (j : Nat) (x : Grid) : Grid :=
  if j == k then { x with phase := .taken }
  else if x.ready && decide (x.prio < l.prio) then { x with age := x.age + 1 } else x

theorem Grid.arbitrated_phase {k j : Nat} (l : Grid) (h : j ≠ k) (x : Grid) : (Grid.arbitrated k l j x).phase = x.phase := by
  unfold Grid.arbitrated
  split
  · next hk => exact absurd (beq_iff_eq.mp hk) h
  · split <;> rfl

theorem State.noteMet_phase (s : State) (j : Nat) : (s.noteMet.gridAt j).phase = (s.gridAt j).phase := by
  refine AMap.get_mapVals_keeps Grid.phase {} (f := fun _ g =>
    if g.live && g.phase == .waiting then { g with deps := g.deps.filter fun d => !s.depMet g d } else g) (fun x => ?_) s.grids
  split <;> rfl

theorem exec_launchArbitration {s : State} {k : Nat} {l : Grid}
    (ha : ∀ e ∈ s.noteMet.grids.filter fun e => e.2.ready, e.2.age < 64)
    (hf : firstLaunch (s.noteMet.grids.filter fun e => e.2.ready) = some (k, l)) (hb : s.noteMet.blockedBy l = false) :
    ∃ t, exec .launchArbitration s = .next t ∧ (t.gridAt k).phase = .taken ∧ t.mem = s.mem ∧ t.groups = s.groups ∧
      ∀ j, j ≠ k → (t.gridAt j).phase = (s.gridAt j).phase := by
  have hany : ((s.noteMet.grids.filter fun e => e.2.ready).any fun e => decide (64 ≤ e.2.age)) = false :=
    List.any_eq_false.mpr fun e he => by simpa using ha e he
  have hmem : (k, l) ∈ s.noteMet.grids := List.mem_of_mem_filter (mem_of_firstLaunch hf)
  refine ⟨{ s.noteMet with grids := AMap.mapVals (Grid.arbitrated k l) s.noteMet.grids }, ?_, ?_, rfl, rfl, fun j hj => ?_⟩
  · change execLaunchArbitration s = _
    simp only [execLaunchArbitration, hany, hf, hb]
    rfl
  · rw [State.gridAt, AMap.get_mapVals_of_mem _ _ hmem, Grid.arbitrated, beq_self_eq_true, if_pos rfl]
  · exact (AMap.get_mapVals_keeps Grid.phase {} (Grid.arbitrated_phase l hj) s.noteMet.grids).trans (s.noteMet_phase j)

theorem exec_launchAgeRise {s : State} {grid : Nat} (hr : (s.gridAt grid).ready = true) (ha : 64 ≤ (s.gridAt grid).age) :
    exec (.launchAgeRise grid) s =
      .next (s.setGridAt grid { s.gridAt grid with prio := min 7 ((s.gridAt grid).prio + 1), age := 0 }) := by
  change execLaunchAgeRise grid s = _
  simp [execLaunchAgeRise, hr, ha]


/-! The lease (R28, R455): installed, or the launch is refused. -/

theorem State.rejectGrid_gridAt (s : State) (g code : Nat) :
    (s.rejectGrid g code).gridAt g = { s.gridAt g with live := false, phase := .retired, ending := { status := 1, detail := code } } := by
  have h := State.Finishes.finishRecord
    (s.setGridAt g { s.gridAt g with live := false, phase := .retired, ending := { status := 1, detail := code } }) (s.gridAt g).sub 1 code
  change AMap.get {} (State.finishRecord _ _ _ _).grids g = _
  rw [h.grids]
  exact AMap.get_set_same ..

/-- One page of a lease leaves the host and its table (R219). -/
def State.leasePage (asid : Nat) (s : State) (e : Nat × LeafAt) : State :=
  if (leafFields e.2.bits).sa then s
  else
    let s := s.setHostPages asid e.1 (leafFields e.2.bits).large false
    if (leafFields e.2.bits).flipped then s.setLeafValid e.2 true else s

theorem State.setHostPages_groups (s : State) (asid page : Nat) (large valid : Bool) :
    (s.setHostPages asid page large valid).groups = s.groups := by
  unfold State.setHostPages
  split
  · exact foldl_keeps (p := fun t : State => t.groups = s.groups) (fun t k h => by exact h) (List.range 32) rfl
  · rfl

theorem State.leasePage_groups (asid : Nat) (s : State) (e : Nat × LeafAt) : (s.leasePage asid e).groups = s.groups := by
  unfold State.leasePage
  split
  · rfl
  · dsimp only
    split
    · exact ((State.Works.physWrite ..).of_frame (·.groups)).trans (State.setHostPages_groups ..)
    · exact State.setHostPages_groups ..

/-- The tables of every die's translations take the pages of a lease. -/
def State.putLease (s : State) (l : List TlbEntry) : State :=
  s.launchDies.foldl (fun s d => (List.range 12).foldl (fun s k => s.putTlb (12 * d + k) l) s) s

theorem State.putLease_groups (s : State) (l : List TlbEntry) : (s.putLease l).groups = s.groups :=
  foldl_keeps (p := fun t : State => t.groups = s.groups)
    (fun _ _ h => foldl_keeps (p := fun t : State => t.groups = s.groups) (fun t k h => by exact h) (List.range 12) h) s.launchDies rfl

section Lease
variable {s : State} {grid : Nat} (ho : (s.noteMet.gridAt grid).over = false) (hl : (s.noteMet.gridAt grid).leased = false)
  (hn : (s.noteMet.gridAt grid).next = 0) (hd : (s.noteMet.gridAt grid).deps = []) (hlev : s.level ≠ 0)
include ho hl hn hd hlev

theorem execLeaseInstall_eq : execLeaseInstall grid s = match s.noteMet.rootOf (s.noteMet.gridAt grid).asid with
    | none => .next (s.noteMet.rejectGrid grid 15)
    | some root => match s.noteMet.checkLease grid root with
      | .reject code => .next (s.noteMet.rejectGrid grid code)
      | .wait => .fault .notEnabled
      | .ok leaves gates =>
        let trans := leaves.foldl (fun m e => AMap.set m e.1 { leafFields e.2.bits with valid := true, flipped := false }) []
        .next (((leaves.foldl (State.leasePage (s.noteMet.gridAt grid).asid) s.noteMet).putLease
          (trans.map fun e => { grid := grid, page := e.1, leaf := e.2 })).setGridAt grid
          { s.noteMet.gridAt grid with leased := true, root := root, trans := trans, gates := gates }) := by
  have hlev' : (s.noteMet.level == 0) = false := beq_false_of_ne hlev
  simp only [execLeaseInstall, ho, hl, hn, hd, hlev']
  rfl

theorem exec_leaseInstall_noRoot (hr : s.rootOf (s.noteMet.gridAt grid).asid = none) :
    exec (.leaseInstall grid) s = .next (s.noteMet.rejectGrid grid 15) := by
  change execLeaseInstall grid s = _
  rw [execLeaseInstall_eq ho hl hn hd hlev, show s.noteMet.rootOf _ = none from hr]

theorem exec_leaseInstall_reject {root code : Nat} (hr : s.rootOf (s.noteMet.gridAt grid).asid = some root)
    (hc : s.noteMet.checkLease grid root = .reject code) :
    exec (.leaseInstall grid) s = .next (s.noteMet.rejectGrid grid code) := by
  change execLeaseInstall grid s = _
  rw [execLeaseInstall_eq ho hl hn hd hlev, show s.noteMet.rootOf _ = some root from hr]
  simp only [hc]

theorem exec_leaseInstall_ok {root : Nat} {leaves : List (Nat × LeafAt)} {gates : List (Nat × List Nat)}
    (hr : s.rootOf (s.noteMet.gridAt grid).asid = some root) (hc : s.noteMet.checkLease grid root = .ok leaves gates) :
    ∃ t, exec (.leaseInstall grid) s = .next t ∧ t.groups = s.groups ∧ t.gridAt grid = { s.noteMet.gridAt grid with
      leased := true, root := root, gates := gates
      trans := leaves.foldl (fun m e => AMap.set m e.1 { leafFields e.2.bits with valid := true, flipped := false }) [] } := by
  change ∃ t, execLeaseInstall grid s = .next t ∧ _
  rw [execLeaseInstall_eq ho hl hn hd hlev, show s.noteMet.rootOf _ = some root from hr]
  simp only [hc]
  refine ⟨_, rfl, (State.putLease_groups ..).trans ?_, AMap.get_set_same ..⟩
  exact foldl_keeps (p := fun t : State => t.groups = s.groups) (fun t e h => (State.leasePage_groups _ t e).trans h) leaves rfl

end Lease


/-! A cluster is admitted (R55 to R58): its teams and groups start on the cores of its rectangle. -/

/-- The base registers of a grid's groups (R18). -/
def Grid.bases (g : Grid) : List DWord := g.ranges.map fun r => if r.rights == 0 then (0 : DWord) else BitVec.ofNat 64 r.base

/-- One team of a cluster starts on its core. -/
def State.startTeam (c : Nat) (g : Grid) (s : State) (e : Nat × Nat) : State :=
  let team := 12 * c + e.2
  let s := s.selfInvalidate e.1
  let s := s.setTeamAt team { live := true, groups := g.launch.groups, bytes := g.launch.bytes, core := e.1 }
  let s := { s with groups := (List.range g.launch.groups).foldl (fun m k =>
    AMap.set m (32 * team + k) (newGroup e.1 (BitVec.ofNat 56 g.kernel.entry) 0xFFFFFFFF g.bases [])) s.groups }
  s.keepFirst ((List.range g.launch.groups).map (32 * team + ·))

theorem State.startCluster_eq (s : State) (grid replica origin : Nat) (act : Activity) (cores : List Nat) :
    s.startCluster grid replica origin act cores = cores.zipIdx.foldl (State.startTeam s.cp.nextCluster (s.gridAt grid))
      ({ s with cp := { s.cp with nextCluster := s.cp.nextCluster + 1 } }.setClusterAt s.cp.nextCluster
        { live := true, grid := grid, cluidx := (s.gridAt grid).next, replica := replica, die := origin / 72, origin := origin, act := act }) :=
  rfl

/-- Groups of one team, set one after another. -/
theorem AMap.get_setGroups {α : Type} (d x : α) (base n j : Nat) (m : AMap α) :
    AMap.get d ((List.range n).foldl (fun m k => AMap.set m (base + k) x) m) j =
      if base ≤ j ∧ j < base + n then x else AMap.get d m j := by
  induction n with
  | zero => simp
  | succ n ih =>
    rw [List.range_succ, List.foldl_append, List.foldl_cons, List.foldl_nil, AMap.get_set, ih]
    by_cases h : j = base + n
    · simp [h]
    · simp [h, show (j < base + (n + 1)) = (j < base + n) by simp; omega]

theorem State.Works.keepFirst (s : State) (l : List Nat) : s.Works (s.keepFirst l) := by
  refine State.Works.foldl (fun t g => ?_) l s
  have hcheck : (t.at_ g 0).Works (t.at_ g 0).keepCheckpoint := by
    unfold State.keepCheckpoint
    split
    · exact .physWriteRun ..
    · exact .refl _
  exact ⟨congrArg (State.at_ · t.gid t.slot) hcheck.frame, hcheck.wf⟩

/-- What the start of a team leaves of the others, and what it gives its own. -/
theorem State.startTeam_keeps (c : Nat) (g : Grid) (s : State) (e : Nat × Nat) :
    (s.startTeam c g e).clusters = s.clusters ∧ (s.startTeam c g e).grids = s.grids ∧
      (∀ j, (s.startTeam c g e).teamAt j =
        if j = 12 * c + e.2 then { live := true, groups := g.launch.groups, bytes := g.launch.bytes, core := e.1 } else s.teamAt j) ∧
      ∀ j, AMap.get {} (s.startTeam c g e).groups j =
        if 32 * (12 * c + e.2) ≤ j ∧ j < 32 * (12 * c + e.2) + g.launch.groups then
          newGroup e.1 (BitVec.ofNat 56 g.kernel.entry) 0xFFFFFFFF g.bases []
        else AMap.get {} s.groups j := by
  unfold State.startTeam
  extract_lets team t u v
  have hv : v.Works (v.keepFirst ((List.range g.launch.groups).map (32 * team + ·))) := .keepFirst ..
  have ht : s.Works t := .selfInvalidate ..
  refine ⟨(hv.of_frame (·.clusters)).trans (ht.of_frame (·.clusters)), (hv.of_frame (·.grids)).trans (ht.of_frame (·.grids)),
    fun j => ?_, fun j => ?_⟩
  · rw [State.teamAt, hv.of_frame (·.teams), State.teamAt, ← ht.of_frame (·.teams)]
    exact AMap.get_set ..
  · rw [hv.of_frame (·.groups), ← ht.of_frame (·.groups)]
    exact AMap.get_setGroups ..


section Teams
variable {c : Nat} {g : Grid}

/-- The start of teams leaves the clusters and the grids alone. -/
theorem State.startTeams_keeps (l : List (Nat × Nat)) (s : State) :
    (l.foldl (State.startTeam c g) s).clusters = s.clusters ∧ (l.foldl (State.startTeam c g) s).grids = s.grids := by
  refine foldl_keeps (p := fun t : State => t.clusters = s.clusters ∧ t.grids = s.grids) (fun t e ⟨hc, hg⟩ => ?_) l ⟨rfl, rfl⟩
  obtain ⟨hc', hg', -⟩ := t.startTeam_keeps c g e
  exact ⟨hc'.trans hc, hg'.trans hg⟩

/-- A team and its groups as the start of their cluster makes them. -/
structure State.Started (c : Nat) (g : Grid) (e : Nat × Nat) (s : State) : Prop where
  team : s.teamAt (12 * c + e.2) = { live := true, groups := g.launch.groups, bytes := g.launch.bytes, core := e.1 }
  groups : ∀ k < g.launch.groups, AMap.get {} s.groups (32 * (12 * c + e.2) + k) =
    newGroup e.1 (BitVec.ofNat 56 g.kernel.entry) 0xFFFFFFFF g.bases []

theorem State.startTeam_started (s : State) (e : Nat × Nat) : (s.startTeam c g e).Started c g e := by
  obtain ⟨-, -, ht, hg⟩ := s.startTeam_keeps c g e
  exact ⟨by rw [ht, if_pos rfl], fun k hk => by rw [hg, if_pos ⟨by omega, by omega⟩]⟩

theorem State.Started.startTeam {s : State} {e f : Nat × Nat} (h : s.Started c g e) (hn : g.launch.groups ≤ 32) (hf : e.2 ≠ f.2) :
    (s.startTeam c g f).Started c g e := by
  obtain ⟨-, -, ht, hg⟩ := s.startTeam_keeps c g f
  exact ⟨by rw [ht, if_neg (by omega)]; exact h.team, fun k hk => by rw [hg, if_neg (by omega)]; exact h.groups k hk⟩

theorem State.Started.startTeams {e : Nat × Nat} (hn : g.launch.groups ≤ 32) {l : List (Nat × Nat)} (hl : ∀ f ∈ l, e.2 ≠ f.2) {s : State}
    (h : s.Started c g e) : (l.foldl (State.startTeam c g) s).Started c g e := by
  induction l generalizing s with
  | nil => exact h
  | cons f l ih =>
    exact ih (fun f' hf' => hl f' (List.mem_cons_of_mem _ hf')) (h.startTeam hn (hl f List.mem_cons_self))

theorem State.startTeams_started (hn : g.launch.groups ≤ 32) {l : List (Nat × Nat)} (hl : l.Pairwise (·.2 ≠ ·.2)) {e : Nat × Nat} (he : e ∈ l)
    (s : State) : (l.foldl (State.startTeam c g) s).Started c g e := by
  induction l generalizing s with
  | nil => cases he
  | cons f l ih =>
    obtain ⟨hf, hl⟩ := List.pairwise_cons.mp hl
    rcases List.mem_cons.mp he with rfl | he
    · exact (s.startTeam_started e).startTeams hn hf
    · exact ih hl he _

end Teams

section Admit
variable {s : State} {grid origin : Nat} {cores : List Nat} (hh : s.atHead (s.gridAt grid) = true)
  (hb : s.blockedBy (s.gridAt grid) = false) (hs : s.cp.snuffs = []) (hc : (s.gridAt grid).launch.coresident = false)
  (hr : (s.gridAt grid).launch.replicas = 0) (hp : (s.permittedSets 0).contains [origin / 72] = true)
  (hroom : s.roomAt (s.gridAt grid).launch origin = some cores)
include hh hb hs hc hr hp hroom

theorem exec_clusterAdmit :
    let t := s.startCluster grid 0 origin .active cores
    exec (.clusterAdmit grid [origin]) s = .next (t.setGridAt grid { t.gridAt grid with next := (t.gridAt grid).next + 1 }) := by
  intro t
  have hopen : s.gatesOpen (s.gridAt grid) (s.gridAt grid).next = true := by
    unfold State.atHead at hh
    simp only [Bool.and_eq_true] at hh
    obtain ⟨-, hopen⟩ := hh
    exact hopen
  change execClusterAdmit grid [origin] s = _
  have hadmit : s.admitCluster grid .active [origin] = some (t.setGridAt grid { t.gridAt grid with next := (t.gridAt grid).next + 1 }) := by
    simp [State.admitCluster, hr, hopen, hroom]
    exact ⟨by simpa using hp, rfl⟩
  simp [execClusterAdmit, hh, hb, hs, hc, hr, Grid.copies, State.admitClusters, hadmit]

end Admit

/-- The grid, the cluster and the groups of the admitted cluster. -/
theorem State.startCluster_started {s : State} {grid origin : Nat} {cores : List Nat} (hn : (s.gridAt grid).launch.groups ≤ 32) :
    let t := s.startCluster grid 0 origin .active cores
    let c := s.cp.nextCluster
    (t.gridAt grid).next = (s.gridAt grid).next ∧
      t.clusterAt c = { live := true, grid := grid, cluidx := (s.gridAt grid).next, replica := 0, die := origin / 72, origin := origin, act := .active } ∧
      ∀ p core, cores[p]? = some core → t.Started c (s.gridAt grid) (core, p) := by
  intro t c
  have hkeeps := State.startTeams_keeps (c := c) (g := s.gridAt grid) cores.zipIdx
    ({ s with cp := { s.cp with nextCluster := s.cp.nextCluster + 1 } }.setClusterAt c
      { live := true, grid := grid, cluidx := (s.gridAt grid).next, replica := 0, die := origin / 72, origin := origin, act := .active })
  obtain ⟨hclusters, hgrids⟩ := hkeeps
  have hdistinct : cores.zipIdx.Pairwise (·.2 ≠ ·.2) := by
    refine List.pairwise_map.mp ?_
    rw [List.zipIdx_map_snd]
    exact List.nodup_range'
  refine ⟨?_, ?_, fun p core h => ?_⟩
  · change (AMap.get {} t.grids grid).next = _
    rw [show t.grids = s.grids from hgrids]
    rfl
  · change AMap.get {} t.clusters c = _
    rw [show t.clusters = _ from hclusters]
    exact AMap.get_set_same ..
  · exact State.startTeams_started hn hdistinct (List.mk_mem_zipIdx_iff_getElem?.mpr h) _

/-! A snuffed launch that has not begun is over at once (R415). -/

/-- A launch that is over, as a snuff leaves it. -/
structure Grid.Snuffed (g : Grid) : Prop where
  phase : g.phase = .retired
  live : g.live = false
  status : g.ending.status = 3

theorem Grid.Snuffed.over {g : Grid} (h : g.Snuffed) : g.over = true := by simp [Grid.over, h.live]

/-- A grid without clusters that is not over is over as snuffed; one that is over stays. Others stay. -/
theorem State.cancel_keeps {s : State} {grid detail : Nat} (hn : (s.gridAt grid).over = false → (s.gridAt grid).next = 0) :
    let t := s.cancel grid 3 detail
    t.groups = s.groups ∧ t.cp.snuffs = s.cp.snuffs ∧ (∀ j ≠ grid, t.gridAt j = s.gridAt j) ∧
      ((s.gridAt grid).over = false → (t.gridAt grid).Snuffed) ∧ ((s.gridAt grid).over = true → t.gridAt grid = s.gridAt grid) := by
  intro t
  by_cases ho : (s.gridAt grid).over = true
  · have ht : t = s := by
      unfold t State.cancel
      rw [if_pos ho]
    simp [ht, ho]
  · have hz := hn (by simpa using ho)
    have ht : t = (((s.setGridAt grid { s.gridAt grid with live := false, phase := .retired, leased := false, ending := { status := 3, detail := detail } }).dropTlb
        fun e => e.grid == grid).finishRecord (s.gridAt grid).sub 3 detail) := by
      unfold t State.cancel
      rw [if_neg ho, if_pos hz]
    have hf := State.Finishes.finishRecord ((s.setGridAt grid
      { s.gridAt grid with live := false, phase := .retired, leased := false, ending := { status := 3, detail := detail } }).dropTlb
        fun e => e.grid == grid) (s.gridAt grid).sub 3 detail
    rw [← ht] at hf
    have hg : ∀ j, t.gridAt j = if j = grid then
        { s.gridAt grid with live := false, phase := .retired, leased := false, ending := { status := 3, detail := detail } } else s.gridAt j :=
      fun j => by
        rw [State.gridAt, hf.grids]
        exact AMap.get_set ..
    exact ⟨hf.groups, hf.snuffs, fun j hj => by rw [hg, if_neg hj], fun _ => by rw [hg, if_pos rfl]; exact ⟨rfl, rfl, rfl⟩, fun h => absurd h ho⟩

/-- After the cancelling of a list of launches, of which none has begun, those of the list that were not over are snuffed. -/
theorem State.foldl_cancel {s : State} (l : List (Nat × Grid)) :
    ∀ {u : State}, (∀ e ∈ l, (s.gridAt e.1).next = 0) →
      (∀ j, u.gridAt j = s.gridAt j ∨ (u.gridAt j).Snuffed) →
      let t := l.foldl (fun t e => t.cancel e.1 3 0) u
      t.groups = u.groups ∧ t.cp.snuffs = u.cp.snuffs ∧ (∀ j, (u.gridAt j).Snuffed → (t.gridAt j).Snuffed) ∧
        ∀ e ∈ l, (s.gridAt e.1).over = false → (t.gridAt e.1).Snuffed := by
  induction l with
  | nil => exact fun _ _ => ⟨rfl, rfl, fun _ h => h, by simp⟩
  | cons a l ih =>
    intro u hz hu
    obtain ⟨hza, hzl⟩ := List.forall_mem_cons.mp hz
    have hnext : (u.gridAt a.1).over = false → (u.gridAt a.1).next = 0 := fun ho => by
      rcases hu a.1 with h | h
      · rw [h]; exact hza
      · simp [h.over] at ho
    obtain ⟨hg, hs, hother, hnew, hold⟩ := State.cancel_keeps (detail := 0) hnext
    have hkeep : ∀ j, (u.gridAt j).Snuffed → ((u.cancel a.1 3 0).gridAt j).Snuffed := fun j h => by
      by_cases hj : j = a.1
      · subst hj; rw [hold h.over]; exact h
      · rw [hother j hj]; exact h
    have hv : ∀ j, (u.cancel a.1 3 0).gridAt j = s.gridAt j ∨ ((u.cancel a.1 3 0).gridAt j).Snuffed := fun j => by
      by_cases hj : j = a.1
      · subst hj
        cases ho : (u.gridAt a.1).over
        · exact .inr (hnew ho)
        · rw [hold ho]; exact hu _
      · rw [hother j hj]; exact hu j
    obtain ⟨hg', hs', hkeep', hall⟩ := ih hzl hv
    refine ⟨hg'.trans hg, hs'.trans hs, fun j h => hkeep' j (hkeep j h), List.forall_mem_cons.mpr ⟨fun ho => hkeep' _ ?_, hall⟩⟩
    rcases hu a.1 with h | h
    · exact hnew (h ▸ ho)
    · exact hkeep _ h

theorem exec_snuffCancel {s : State} {token : BitVec 32} (ht : token ∈ s.cp.snuffs)
    (hg : ∀ e ∈ s.grids, s.gridAt e.1 = e.2 ∧ (e.2.launch.snuff = token → e.2.next = 0)) :
    ∃ t, exec (.snuffCancel token) s = .next t ∧ t.cp.snuffs = s.cp.snuffs.erase token ∧ t.groups = s.groups ∧
      ∀ e ∈ s.grids, token ≠ 0 → e.2.launch.snuff = token → e.2.over = false → (t.gridAt e.1).Snuffed := by
  let u : State := { s with cp := { s.cp with snuffs := s.cp.snuffs.erase token } }
  have hexec : exec (.snuffCancel token) s = .next (u.cancelToken token) := by
    change execSnuffCancel token s = _
    simp [execSnuffCancel, ht, u]
  refine ⟨_, hexec, ?_⟩
  by_cases h0 : token = 0
  · subst h0
    exact ⟨rfl, rfl, fun _ _ h => absurd rfl h⟩
  · have hcancel : u.cancelToken token = (u.grids.filter fun e => e.2.launch.snuff == token).foldl (fun s e => s.cancel e.1 3 0) u := by
      rw [State.cancelToken, if_neg (by simpa using h0)]
    have hz : ∀ e ∈ u.grids.filter (fun e => e.2.launch.snuff == token), (s.gridAt e.1).next = 0 := fun e he => by
      obtain ⟨hmem, htok⟩ := List.mem_filter.mp he
      obtain ⟨hat, hnext⟩ := hg e hmem
      rw [hat]
      exact hnext (beq_iff_eq.mp htok)
    obtain ⟨hgroups, hsnuffs, -, hall⟩ := State.foldl_cancel (s := s) (u := u) _ hz (fun _ => .inl rfl)
    rw [hcancel]
    refine ⟨hsnuffs, hgroups, fun e he _ htok ho => hall e (List.mem_filter.mpr ⟨he, beq_iff_eq.mpr htok⟩) ?_⟩
    obtain ⟨hat, -⟩ := hg e he
    rw [hat]
    exact ho

/-! The end of a cluster and of its grid (R455, R456). -/

theorem exec_clusterEnd {s : State} {cluster : Nat} (hl : (s.clusterAt cluster).live = true) (ha : (s.clusterAt cluster).act ≠ .ended)
    (he : (s.gridAt (s.clusterAt cluster).grid).ending.failed = true ∨ ∀ t ∈ s.teamsOf cluster, (s.teamAt t).ended = true)
    (hd : ∀ t ∈ s.teamsOf cluster, (s.teamAt t).drained = true) (ho : ∀ o ∈ s.host.atomics, o.gid / 384 ≠ cluster)
    (hn : (s.gridAt (s.clusterAt cluster).grid).ending.failed = true ∨ ∀ e ∈ s.groups, e.1 / 384 = cluster → e.2.nft = none) :
    ∃ t, exec (.clusterEnd cluster) s = .next t ∧ (t.clusterAt cluster).act = .ended ∧
      ∀ k, k / 384 = cluster → (AMap.get {} t.groups k).live = false := by
  change ∃ t, execClusterEnd cluster s = .next t ∧ _
  have hended : ((s.gridAt (s.clusterAt cluster).grid).ending.failed || (s.teamsOf cluster).all fun t => (s.teamAt t).ended) = true := by
    simpa using he
  have hnft : (!(s.gridAt (s.clusterAt cluster).grid).ending.failed &&
      s.groups.any fun e => e.1 / 384 == cluster && e.2.nft.isSome) = false := by
    rcases hn with h | h
    · simp [h]
    · have hany : (s.groups.any fun e => e.1 / 384 == cluster && e.2.nft.isSome) = false :=
        List.any_eq_false.mpr fun e hm => by
          by_cases hk : e.1 / 384 = cluster
          · simp [h e hm hk]
          · simp [hk]
      simp [hany]
  have hdrained : ((s.teamsOf cluster).all fun t => (s.teamAt t).drained) = true := List.all_eq_true.mpr hd
  have hatomics : (s.host.atomics.any fun o => o.gid / 384 == cluster) = false := by simpa using ho
  simp only [execClusterEnd, hl, hended, hnft, hdrained, hatomics]
  rw [if_neg (by simpa using ha)]
  refine ⟨_, rfl, ?_, fun k hk => ?_⟩
  · rw [State.clusterAt_setClusterAt, if_pos rfl]
  · refine AMap.get_mapVals_all (p := fun g : Group => g.live = false) (d := {}) rfl (f := fun k y =>
      if k / 384 == cluster then { y with live := false, handler := none, pending := [], inflight := [] } else y) (fun x => ?_) _
    rw [if_pos (by simpa using hk)]

theorem State.commitWrites_works (l : List BufWrite) (s : State) : s.Works (s.commitWrites l) := by
  induction l generalizing s with
  | nil => exact .refl s
  | cons w l ih => exact (State.Works.performWrite ..).trans (ih _)

/-- The writes of the buffers in the order of their teams, before the buffers are empty. -/
def State.performBuffers (s : State) (grid : Nat) : State := (s.orderedTeams grid).foldl (fun s t =>
  let l := (s.teamAt t).ordered
  (l.foldl (fun s w => ((s.lineTiles w.line w.mask).foldl State.plainTile s).commitWrites [w]) s).cleared
    (l.map BufWrite.line)) s

theorem State.cleared_works (s : State) (lines : List Nat) : s.Works (s.cleared lines) := .withMem _ _ rfl rfl

theorem State.performBuffers_works (s : State) (grid : Nat) : s.Works (s.performBuffers grid) := by
  have hwrite : ∀ (t : State) (w : BufWrite), t.Works (((t.lineTiles w.line w.mask).foldl State.plainTile t).commitWrites [w]) := fun t w =>
    (State.Works.foldl State.Works.plainTile _ t).trans (State.commitWrites_works ..)
  exact State.Works.foldl (fun t k => (State.Works.foldl hwrite _ t).trans (State.cleared_works ..)) (s.orderedTeams grid) s

theorem State.commitBuffers_groups (s : State) (grid : Nat) : (s.commitBuffers grid).groups = s.groups :=
  (foldl_keeps (p := fun u : State => u.groups = (s.performBuffers grid).groups) (fun _ _ h => by exact h)
    ((s.performBuffers grid).gridTeams grid) rfl).trans ((s.performBuffers_works grid).of_frame (·.groups))

theorem exec_gridRetire {s : State} {grid : Nat} (hl : (s.gridAt grid).live = true) (hp : (s.gridAt grid).phase = .taken)
    (hc : ∀ c ∈ s.clustersOf grid, (s.clusterAt c).act = .ended)
    (he : (s.gridAt grid).ending.failed = true ∨ (s.gridAt grid).ending.snuffed = true ∨ (s.gridAt grid).next = (s.gridAt grid).launch.clusters) :
    ∃ t, exec (.gridRetire grid) s = .next t ∧ (t.gridAt grid).live = false ∧ (t.gridAt grid).phase = .retired ∧
      (t.gridAt grid).leased = false ∧ t.groups = s.groups := by
  have hended : ((s.clustersOf grid).all fun c => (s.clusterAt c).act == .ended) = true := by simpa using hc
  have hover : ((s.gridAt grid).ending.failed || (s.gridAt grid).ending.snuffed || (s.gridAt grid).next == (s.gridAt grid).launch.clusters) = true := by
    simpa [or_assoc] using he
  let u := if (s.gridAt grid).launch.det then s.commitBuffers grid else s
  have hu : u.groups = s.groups := by
    unfold u
    split
    · exact s.commitBuffers_groups grid
    · rfl
  let g := u.gridAt grid
  let v := (u.setGridAt grid { g with live := false, phase := .retired, leased := false, det := { g.det with own := [], released := [], arrived := [] } }).dropTlb
    fun e => e.grid == grid
  have hf := State.Finishes.finishRecord v g.sub g.ending.status g.ending.detail
  have hgrid : (v.finishRecord g.sub g.ending.status g.ending.detail).gridAt grid =
      { g with live := false, phase := .retired, leased := false, det := { g.det with own := [], released := [], arrived := [] } } := by
    rw [State.gridAt, hf.grids]
    exact AMap.get_set_same ..
  refine ⟨_, ?_, by rw [hgrid], by rw [hgrid], by rw [hgrid], hf.groups.trans hu⟩
  change execGridRetire grid s = _
  simp only [execGridRetire, hl, hp, hended, hover]
  rfl
/-- Settles O56: each event of a launch's life is enabled as the spec says, and does what it says. -/
theorem launchEvents : Obligations.LaunchEvents := by
  unfold Obligations.LaunchEvents
  intro s grid asid va len cluster origin q token g others
  refine ⟨fun hva => ⟨fun hi => ?_, fun i hi => ?_⟩, exec_recordRead, fun _ _ => exec_launchArbitration, exec_launchAgeRise, ?lease, ?admission,
    ?snuff, exec_clusterEnd, exec_gridRetire⟩
  · rw [exec_imageLoad hva, hi]
    rfl
  · rw [exec_imageLoad hva, hi]
    rfl
  case lease =>
    intro u g ho hl hn hd hlev
    refine ⟨fun hr => ⟨_, exec_leaseInstall_noRoot ho hl hn hd hlev hr, ?_⟩,
      fun root code hr hc => ⟨_, exec_leaseInstall_reject ho hl hn hd hlev hr hc, ?_⟩,
      fun root leaves gates hr hc => exec_leaseInstall_ok ho hl hn hd hlev hr hc⟩
    all_goals
      rw [State.rejectGrid_gridAt]
      exact ⟨rfl, rfl, rfl, rfl⟩
  case admission =>
    intro cores hh hb hs hc hr hn hp hroom
    obtain ⟨hnext, hcluster, hteams⟩ := State.startCluster_started (origin := origin) (cores := cores) hn
    refine ⟨_, exec_clusterAdmit hh hb hs hc hr hp hroom, ?_, ?_⟩
    · rw [State.gridAt_setGridAt, if_pos rfl, hnext]
    · intro c
      refine ⟨congrArg Cluster.live hcluster, congrArg Cluster.grid hcluster, congrArg Cluster.cluidx hcluster,
        congrArg Cluster.origin hcluster, fun p core h => ?_⟩
      obtain ⟨hteam, hgroups⟩ := hteams p core h
      refine ⟨congrArg Team.live hteam, congrArg Team.core hteam, fun k hk => ?_⟩
      intro x
      have hx : x = newGroup core (BitVec.ofNat 56 g.kernel.entry) 0xFFFFFFFF g.bases [] := hgroups k hk
      rw [hx]
      exact ⟨rfl, rfl, rfl, rfl, rfl⟩
  case snuff =>
    intro ht hg
    obtain ⟨t, he, hs, hgroups, hall⟩ := exec_snuffCancel ht hg
    exact ⟨t, he, hs, hgroups, fun e hm h0 htok ho => ⟨(hall e hm h0 htok ho).phase, (hall e hm h0 htok ho).live, (hall e hm h0 htok ho).status⟩⟩

end Sys2Proof.Machine

/-! PROOFS. Replicas compare, meet and are checked (R369 to R396). -/

namespace Sys2Proof.Machine

/-! What the writes of replicas that agree do: the homes work, and groups stay. -/

namespace State.Works

theorem putHeader (s : State) (pa : Nat) (h : Header) : s.Works (s.putHeader pa h) := physWrite ..
theorem editHeaders (f : Header → Header) (l : List TileRef) (s : State) :
    s.Works (l.foldl (fun s t => s.putHeader t.header (f (s.header t.header)).bump) s) := foldl (fun u t => putHeader ..) l s
theorem pairCommit (s : State) (tiles : List TileRef) (parts : List (Nat × Nat × Nat)) : s.Works (s.pairCommit tiles parts) := by
  unfold State.pairCommit
  extract_lets ts edit a b c
  have ha : s.Works a := editHeaders (fun h => { h with lock := true }) ts s
  have hb : a.Works b := foldl plainTile ts a
  have hc : b.Works c := foldl (fun u (e : Nat × Nat × Nat) => physWrite u e.1 e.2.1 e.2.2) parts b
  exact ((ha.trans hb).trans hc).trans (editHeaders (fun h => { h with lock := false }) ts c)
theorem pairTorn (s : State) (tiles : List TileRef) : s.Works (s.pairTorn tiles) := foldl (fun u t => putHeader ..) _ s

theorem shadeTile (s : State) (op : Instr) (ops : List DWord) (t : TileRef) : s.Works (s.shadeTile op ops t) := by
  unfold State.shadeTile
  extract_lets h ty m
  clear_value m
  split
  · cases m
    · exact refl s
    · exact commitHeader ..
  · have hty : s.Works (if ty == h.ty then (s, h) else s.retype t h ty).1 := by
      split
      · exact refl s
      · exact retype ..
    refine hty.trans ?_
    rcases (if ty == h.ty then (s, h) else s.retype t h ty) with ⟨u, g⟩
    cases m
    · exact (materialise u t g).trans (commitHeader ..)
    · exact (compose u t g _).trans (commitHeader ..)

end State.Works

theorem State.failGridWith_sameGroups (s : State) (g status detail c : Nat) (pc : Addr) (n : Word) (a : Addr) :
    (s.failGridWith g status detail c pc n a).groups = s.groups := by
  have hd : ∀ (u : State) (k : Nat), (u.discardCommands k).groups = u.groups := fun u k => by rw [State.discardCommands_keeps]
  unfold State.failGridWith
  dsimp only
  split
  · rfl
  · split
    · exact hd ..
    · exact hd ..

theorem State.shadeAll_groups (op : Instr) (ops : List DWord) (cls : Nat) (tseq : Word) (l : List Nat) (s : State) :
    (s.shadeAll op ops cls tseq l).groups = s.groups := by
  induction l generalizing s with
  | nil => rfl
  | cons i l ih =>
    unfold State.shadeAll
    dsimp only
    split
    · split
      · exact (ih _).trans ((State.Works.shadeTile ..).of_frame (·.groups))
      · rfl
    · exact State.failGridWith_sameGroups ..
    · rfl

theorem State.performHeld_groups (s : State) (w : HeldWrite) : (s.performHeld w).groups = s.groups := by
  unfold State.performHeld
  extract_lets t
  have ht : s.Works t := State.Works.foldl (fun u x => State.Works.dropTile ..) _ s
  refine Eq.trans ?_ (ht.of_frame (·.groups))
  split
  · exact State.shadeAll_groups ..
  · refine State.Works.of_frame ?_ (·.groups)
    split
    · exact State.Works.foldl (fun u e => (State.Works.purge ..).trans (State.Works.physWrite ..)) _ t
    · exact State.Works.foldl (fun u e => State.Works.tileWrite ..) _ t
    · split
      · exact State.Works.pairTorn ..
      · exact State.Works.pairCommit ..

theorem State.groupAt_setReplAt (s : State) (g j : Nat) (r : Replica) :
    (s.setReplAt g r).groupAt j = if j = g then { s.groupAt g with repl := r } else s.groupAt j := AMap.get_set ..

/-- Groups stand in `t` as in `s`. -/
theorem State.groupAt_of_groups {s t : State} (h : t.groups = s.groups) (j : Nat) : t.groupAt j = s.groupAt j := by
  rw [State.groupAt, h]
  rfl

theorem State.groupAt_at_ (s : State) (gid slot j : Nat) : (s.at_ gid slot).groupAt j = s.groupAt j := rfl

theorem State.groupAt_setGrp (s : State) (x : Group) (j : Nat) : (s.setGrp x).groupAt j = if j = s.gid then x else s.groupAt j :=
  AMap.get_set ..

/-- Has the replica's compare been decided, so that its signature begins again? -/
structure Replica.Compared (r : Replica) : Prop where
  sent : r.sent = none
  sig : r.sig = 0
  forced : r.forced = true

/-- The compare of the group of `s` is decided in `t`, and no other group changed. -/
structure State.Decides (s t : State) (g : Nat) : Prop where
  compared : (t.groupAt g).repl.Compared
  other : ∀ j ≠ g, t.groupAt j = s.groupAt j

theorem State.checkpoint_decides {s t : State} (h : s.Decides t t.gid) (c : Context) (skip : Bool) : s.Decides (t.checkpoint c skip) t.gid := by
  have hk : ∀ u : State, u.keepCheckpoint.groups = u.groups := State.keepCheckpoint_groups
  unfold State.checkpoint
  extract_lets r
  refine ⟨?_, fun j hj => ?_⟩
  · rw [State.groupAt_of_groups (hk _), State.setRepl, State.groupAt_setGrp, if_pos rfl]
    exact ⟨h.compared.sent, h.compared.sig, h.compared.forced⟩
  · rw [State.groupAt_of_groups (hk _), State.setRepl, State.groupAt_setGrp, if_neg hj]
    exact h.other j hj

theorem State.matched_decides (s : State) {g : Nat} (hf : (s.groupAt g).repl.forced = true) : s.Decides (s.matched g) g := by
  unfold State.matched
  extract_lets u r before v grp w spl x after
  have hr : r.forced = true := hf
  have hv : s.Decides v g := by
    refine ⟨?_, fun j hj => ?_⟩
    · change Replica.Compared ((u.setGrp _).groupAt g).repl
      rw [State.groupAt_setGrp, if_pos (show g = u.gid from rfl)]
      exact ⟨rfl, rfl, hr⟩
    · exact (State.groupAt_setGrp ..).trans (if_neg hj)
  have hgrp : ∀ {t : State}, s.Decides t g → t.gid = g → ∀ y : Group, y.repl = t.grp.repl → s.Decides (t.setGrp y) g := fun h hg y hy => by
    subst hg
    refine ⟨?_, fun j hj => ?_⟩
    · rw [State.groupAt_setGrp, if_pos rfl, hy]
      exact h.compared
    · rw [State.groupAt_setGrp, if_neg hj]
      exact h.other j hj
  have hw : s.Decides w g ∧ w.gid = g := by
    unfold w
    split
    · exact ⟨hgrp hv rfl _ rfl, rfl⟩
    · exact ⟨hv, rfl⟩
  have hx : s.Decides x x.gid := by
    have hxg : x.gid = g := hw.2
    rw [hxg]
    exact hgrp hw.1 hw.2 _ rfl
  rw [if_pos hr]
  have hxg : x.gid = g := hw.2
  rw [← hxg]
  exact State.checkpoint_decides hx before _

/-- A fold that gives each element of a list its property: what an element needs stays until its turn, and what it has got stays after. -/
theorem foldl_each {α σ : Type} {f : σ → α → σ} {need got : σ → α → Prop} (hneed : ∀ t a b, need t a → need t b → need (f t a) b)
    (hgot : ∀ t a b, need t a → got t b → got (f t a) b) (hself : ∀ t a, need t a → got (f t a) a) (l : List α) :
    ∀ s : σ, (∀ a ∈ l, need s a) → (∀ b, got s b → got (l.foldl f s) b) ∧ ∀ a ∈ l, got (l.foldl f s) a := by
  induction l with
  | nil => exact fun s _ => ⟨fun _ h => h, by simp⟩
  | cons a l ih =>
    intro s hn
    obtain ⟨hna, hnl⟩ := List.forall_mem_cons.mp hn
    obtain ⟨hk, hall⟩ := ih (f s a) fun b hb => hneed s a b hna (hnl b hb)
    exact ⟨fun b h => hk b (hgot s a b hna h), List.forall_mem_cons.mpr ⟨hk a (hself s a hna), hall⟩⟩

/-- Is the replica's compare decided, and are the writes it held performed? -/
structure Replica.Released (r : Replica) : Prop where
  sent : r.sent = none
  sig : r.sig = 0
  writes : r.writes = []

/-- A replica gives up the writes it held. -/
def State.release_ (lines : List Nat) (tiles : List TileRef) (s : State) (g : Nat) : State :=
  (s.setReplAt g { (s.groupAt g).repl with writes := [] }).forgetShadows g lines tiles

theorem State.groupAt_release_ (lines : List Nat) (tiles : List TileRef) (s : State) (g j : Nat) :
    (s.release_ lines tiles g).groupAt j =
      if j = g then { s.groupAt g with repl := { (s.groupAt g).repl with writes := [] } } else s.groupAt j :=
  State.groupAt_setReplAt ..

theorem State.performWrites_released {s : State} {lead : Nat} {l : List Nat}
    (h : ∀ g ∈ l, (s.groupAt g).repl.sent = none ∧ (s.groupAt g).repl.sig = 0) :
    ∀ g ∈ l, ((s.performWrites lead l).groupAt g).repl.Released := by
  unfold State.performWrites
  extract_lets old held lines t
  have ht : t.groups = s.groups :=
    foldl_keeps (p := fun u : State => u.groups = s.groups) (fun u w hu => (State.performHeld_groups u w).trans hu) held rfl
  have hneed : ∀ g ∈ l, (t.groupAt g).repl.sent = none ∧ (t.groupAt g).repl.sig = 0 := fun g hg => by
    rw [State.groupAt_of_groups ht]
    exact h g hg
  refine (foldl_each (f := State.release_ lines (held.flatMap HeldWrite.tiles))
    (need := fun u g => (u.groupAt g).repl.sent = none ∧ (u.groupAt g).repl.sig = 0)
    (got := fun u g => (u.groupAt g).repl.Released) (fun u a b _ hu => ?_) (fun u a b _ hu => ?_) (fun u a hu => ?_) l t hneed).2
  all_goals rw [State.groupAt_release_]
  · split
    · next hb => exact hb ▸ hu
    · exact hu
  · split
    · next hb => subst hb; exact ⟨hu.sent, hu.sig, rfl⟩
    · exact hu
  · rw [if_pos rfl]
    exact ⟨hu.1, hu.2, rfl⟩

/-- All replicas sent the same value: they are the majority, in their order. -/
theorem majority_all {α : Type} [BEq α] [LawfulBEq α] {l : List (Nat × α)} {x : α} (hl : 2 ≤ l.length) (h : ∀ e ∈ l, e.2 = x) :
    majority l = some (l.map Prod.fst) := by
  have hf : ∀ e ∈ l, l.filter (fun f => f.2 == e.2) = l := fun e he =>
    List.filter_eq_self.mpr fun f hf => by rw [h f hf, h e he, beq_self_eq_true]
  cases l with
  | nil => simp at hl
  | cons a l =>
    have ha := hf a List.mem_cons_self
    unfold majority
    rw [List.find?_cons_of_pos (by rw [ha]; exact decide_eq_true hl), Option.map_some, ha]

theorem majority_const {α : Type} [BEq α] [LawfulBEq α] (x : α) {l : List Nat} (hl : 2 ≤ l.length) :
    majority (l.map fun g => (g, x)) = some l := by
  rw [majority_all (x := x) (by simpa using hl) (by simp), List.map_map]
  exact congrArg some (List.map_id _)

/-- What every replica of a set sent. -/
theorem filterMap_sent {α β : Type} {f : Nat → Option β} {view : β → α} {x : α} {l : List Nat} (h : ∀ g ∈ l, ∃ e, f g = some e ∧ view e = x) :
    l.filterMap (fun g => (f g).map fun y => (g, view y)) = l.map fun g => (g, x) := by
  rw [← List.filterMap_eq_map]
  refine List.filterMap_congr fun g hg => ?_
  obtain ⟨e, he, hx⟩ := h g hg
  rw [he, Option.map_some, hx]
  rfl

/-- Every replica of the set is matched, one after another. -/
def State.matchAll (s : State) (l : List Nat) : State := l.foldl (fun u g => (u.matched g).at_ u.gid u.slot) s

theorem State.matchAll_compared {s : State} {l : List Nat} (h : ∀ g ∈ l, (s.groupAt g).repl.forced = true) :
    ∀ g ∈ l, ((s.matchAll l).groupAt g).repl.Compared := by
  refine (foldl_each (f := fun u g => (u.matched g).at_ u.gid u.slot) (need := fun u g => (u.groupAt g).repl.forced = true)
    (got := fun u g => (u.groupAt g).repl.Compared) (fun u a b hn hu => ?_) (fun u a b hn hu => ?_) (fun u a hu => ?_) l s h).2
  · rw [State.groupAt_at_]
    by_cases hb : b = a
    · subst hb; exact (u.matched_decides hn).compared.forced
    · rw [(u.matched_decides hn).other b hb]; exact hu
  · rw [State.groupAt_at_]
    by_cases hb : b = a
    · subst hb; exact (u.matched_decides hn).compared
    · rw [(u.matched_decides hn).other b hb]; exact hu
  · rw [State.groupAt_at_]
    exact (u.matched_decides hu).compared

theorem filter_not_contains_self (l : List Nat) : (l.filter fun g => !l.contains g) = [] :=
  List.filter_eq_nil_iff.mpr fun g hm => by simp [hm]

theorem State.decideCompare_agreed {s : State} {l : List Nat} {sigs : List (Nat × DWord)} (h : majority sigs = some l) :
    s.decideCompare l sigs = (s.matchAll l).performWrites (leadOf (s.matchAll l) l) l := by
  rw [State.decideCompare, h]
  dsimp only
  rw [filter_not_contains_self, List.foldl_nil, State.matchAll]

theorem exec_replicaSig {s : State} {group : Nat} {sig : DWord} (hg : group ∈ s.replicaSet group) (hl : 2 ≤ (s.replicaSet group).length)
    (ha : s.allThere group = true)
    (hs : ∀ g ∈ s.replicaSet group, (s.groupAt g).repl.sent = some sig ∧ (s.groupAt g).repl.forced = true) :
    ∃ t, exec (.replicaSig group) s = .next t ∧ t.gid = s.gid ∧ t.slot = s.slot ∧
      ∀ g ∈ s.replicaSet group, (t.groupAt g).repl.Released := by
  have hsigs : (s.replicaSet group).filterMap (fun g => (s.groupAt g).repl.sent.map fun y => (g, y)) =
      (s.replicaSet group).map fun g => (g, sig) := filterMap_sent (view := id) fun g hg => ⟨sig, (hs g hg).1, rfl⟩
  have hmaj := majority_const sig hl
  have hcompared := State.matchAll_compared fun g hg => (hs g hg).2
  refine ⟨(s.decideCompare (s.replicaSet group) ((s.replicaSet group).map fun g => (g, sig))).at_ s.gid s.slot, ?_, rfl, rfl, ?_⟩
  · change execReplicaSig group s = _
    simp only [execReplicaSig, hsigs]
    rw [if_pos (by simp [hg, hl, ha])]
  · rw [State.decideCompare_agreed hmaj]
    intro g hg
    rw [State.groupAt_at_]
    revert g
    exact State.performWrites_released fun g hg => ⟨(hcompared g hg).sent, (hcompared g hg).sig⟩


/-! What a replica waits for in vain (R380, R381), and how a mismatch begins again (R382). -/

section Timeouts
variable {s : State} {group : Nat} (hl : (s.atReplica group).grp.live = true)
  (hs : (s.atReplica group).grp.repl.since + 2 ^ 24 ≤ s.time.cycle)
include hl hs

omit hl in
theorem impatient_of_late : (s.atReplica group).impatient = true := decide_eq_true hs

theorem exec_compareTimeout (hw : (s.atReplica group).spl.wait = some .compare) (hr : (s.atReplica group).grp.repl.sent.isSome = true)
    (ha : s.allThere group = false ∨ ∃ g ∈ s.replicaSet group, (s.groupAt g).repl.sent = none) :
    exec (.compareTimeout group) s = .next (s.mismatch group) := by
  have hany : (!s.allThere group || (s.replicaSet group).any fun g => (s.groupAt g).repl.sent.isNone) = true := by simpa using ha
  change execCompareTimeout group s = _
  simp only [execCompareTimeout, hl, hw, hr, impatient_of_late hs, hany]
  rfl

theorem exec_rendezvousTimeout (hw : (s.atReplica group).spl.wait = some .rendezvous) (hr : (s.atReplica group).grp.repl.operands.isSome = true)
    (ha : s.allThere group = false ∨ ∃ g ∈ s.replicaSet group, (s.groupAt g).repl.operands = none) :
    exec (.rendezvousTimeout group) s = .next (s.mismatch group) := by
  have hany : (!s.allThere group || (s.replicaSet group).any fun g => (s.groupAt g).repl.operands.isNone) = true := by simpa using ha
  change execRendezvousTimeout group s = _
  simp only [execRendezvousTimeout, hl, hw, hr, impatient_of_late hs, hany]
  rfl

theorem exec_ldaForwardTimeout (hw : (s.atReplica group).spl.wait = some .rendezvous) (hr : (s.atReplica group).grp.repl.operands = none)
    (hf : (s.atReplica group).grp.repl.forwarded = []) : exec (.ldaForwardTimeout group) s = .next (s.mismatch group) := by
  change execLdaForwardTimeout group s = _
  simp only [execLdaForwardTimeout, hl, hw, hr, hf, impatient_of_late hs]
  rfl

end Timeouts

theorem State.restart_retries (s : State) (g j : Nat) : ((s.restart g).groupAt j).repl.retries = (s.groupAt j).repl.retries := by
  unfold State.restart
  split
  · rfl
  · next c hc =>
    extract_lets t u
    have hu : ∀ k, (u.groupAt k).repl.retries = (s.groupAt k).repl.retries := fun k => by
      have huk : u.groupAt k = if k = g then _ else s.groupAt k := AMap.get_set ..
      rw [huk]
      split
      · next h => subst h; rfl
      · rfl
    rw [State.groupAt_setReplAt]
    split
    · next h => subst h; exact hu j
    · exact hu j

/-- The count of attempts that a mismatch sets. -/
def State.setRetries (n : Nat) (s : State) (g : Nat) : State := s.setReplAt g { (s.groupAt g).repl with retries := n }

/-- What the records of a mismatch leave alone. -/
def State.logMismatch (s : State) (l : List Nat) : State := l.foldl (fun s g =>
  let r := (s.groupAt g).repl
  ((s.at_ g 0).logGroup 0x0002 (s.groupDetail g) (r.sent.getD r.sig)).at_ s.gid s.slot) s

theorem State.logMismatch_keeps (s : State) (l : List Nat) : (s.logMismatch l).groups = s.groups ∧ (s.logMismatch l).cp = s.cp :=
  foldl_keeps (p := fun t : State => t.groups = s.groups ∧ t.cp = s.cp) (fun _ _ h => by exact h) l ⟨rfl, rfl⟩

theorem State.setRetries_retries (n : Nat) (l : List Nat) (s : State) :
    ∀ g ∈ l, ((l.foldl (State.setRetries n) s).groupAt g).repl.retries = n := by
  refine (foldl_each (f := State.setRetries n) (need := fun _ _ => True) (got := fun u g => (u.groupAt g).repl.retries = n)
    (fun _ _ _ _ h => h) (fun u a b _ hu => ?_) (fun u a _ => ?_) l s fun _ _ => trivial).2
  all_goals rw [State.setRetries, State.groupAt_setReplAt]
  · split
    · rfl
    · exact hu
  · rw [if_pos rfl]

theorem State.mismatch_retries {s : State} {group : Nat}
    (hlim : (s.groupAt (leadOf s (s.replicaSet group))).repl.retries + 1 ≤ s.cp.retryLimit) :
    ∀ g ∈ s.replicaSet group,
      ((s.mismatch group).groupAt g).repl.retries = (s.groupAt (leadOf s (s.replicaSet group))).repl.retries + 1 := by
  let l := s.replicaSet group
  let lead := leadOf s l
  let n := (s.groupAt lead).repl.retries + 1
  let t := s.logMismatch (lead :: l.filter (· != lead))
  let u := l.foldl (State.setRetries n) t
  have hcp : u.cp = s.cp :=
    (foldl_keeps (p := fun v : State => v.cp = t.cp) (fun _ _ h => by exact h) l rfl).trans (s.logMismatch_keeps _).2
  have heq : s.mismatch group = l.foldl State.restart u := by
    have hif : ¬u.cp.retryLimit < n := by rw [hcp]; exact Nat.not_lt.mpr hlim
    exact if_neg hif
  intro g hg
  rw [heq]
  have hrestart : ((l.foldl State.restart u).groupAt g).repl.retries = (u.groupAt g).repl.retries :=
    foldl_keeps (p := fun v : State => (v.groupAt g).repl.retries = (u.groupAt g).repl.retries)
      (fun v k h => (State.restart_retries v k g).trans h) l rfl
  exact hrestart.trans (State.setRetries_retries n l t g hg)

/-! Replicas meet with equal operands (R384), and what the leader sends them arrives (R371, R385). -/

theorem exec_rendezvousOperands {s : State} {group : Nat} {x : LogEntry} (hg : group ∈ s.replicaSet group)
    (hl : 2 ≤ (s.replicaSet group).length) (ha : s.allThere group = true)
    (hs : ∀ g ∈ s.replicaSet group, (∃ e, (s.groupAt g).repl.operands = some e ∧ e.sent = x) ∧ (s.groupAt g).repl.agreed = none) :
    let lead := leadOf s (s.replicaSet group)
    exec (.rendezvousOperands group) s =
      .next (s.setReplAt lead { (s.groupAt lead).repl with agreed := some ((s.groupAt lead).repl.number + 1) }) := by
  intro lead
  have hops : (s.replicaSet group).filterMap (fun g => (s.groupAt g).repl.operands.map fun e => (g, e.sent)) =
      (s.replicaSet group).map fun g => (g, x) := filterMap_sent fun g hg => (hs g hg).1
  have hagreed : ((s.replicaSet group).any fun g => (s.groupAt g).repl.agreed.isSome) = false :=
    List.any_eq_false.mpr fun g hg => by simp [(hs g hg).2]
  have hset : ((s.replicaSet group).contains group && decide (2 ≤ (s.replicaSet group).length) && s.allThere group &&
      ((s.replicaSet group).map fun g => (g, x)).length == (s.replicaSet group).length) = true := by simp [hg, hl, ha]
  change execRendezvousOperands group s = _
  simp only [execRendezvousOperands, hops, hagreed, majority_const x hl, filter_not_contains_self, hset]
  rfl

theorem exec_replicaResult_result {s : State} {group : Nat} {e : LogEntry} {rest : List Forward}
    (h : (s.groupAt group).repl.due = .result e :: rest) : exec (.replicaResult group) s =
      .next (s.setReplAt group { (s.groupAt group).repl with due := rest, log := (s.groupAt group).repl.log ++ [e] }) := by
  change execReplicaResult group s = _
  simp only [execReplicaResult, h]

theorem exec_replicaResult_value {s : State} {group : Nat} {n x : DWord} {rest : List Forward}
    (h : (s.groupAt group).repl.due = .value n x :: rest) : exec (.replicaResult group) s =
      .next (s.setReplAt group
        { (s.groupAt group).repl with due := rest, forwarded := (s.groupAt group).repl.forwarded ++ [(n, x)] }) := by
  change execReplicaResult group s = _
  simp only [execReplicaResult, h]

/-! A notice makes a core give its verified copies of a line up (R379). -/

theorem State.setL1_keeps (s : State) (core line : Nat) (x : L1Line) :
    (s.setL1 core line x).mem = s.mem ∧ ((s.setL1 core line x).coreAt core).shadows = (s.coreAt core).shadows := by
  refine ⟨rfl, ?_⟩
  rw [State.setL1, State.setCoreAt_coreAt]

theorem State.cleanShadow_keeps (s : State) (core line : Nat) (e : L1Line) :
    (s.cleanShadow core line e).mem = s.mem ∧ ((s.cleanShadow core line e).coreAt core).shadows = (s.coreAt core).shadows := by
  unfold State.cleanShadow
  dsimp only
  split
  · exact ⟨rfl, rfl⟩
  · exact State.setL1_keeps ..

theorem exec_replicaNotice {s : State} {core line : Nat} (h : (core, line) ∈ s.mem.notices) :
    ∃ t, exec (.replicaNotice core line) s = .next t ∧ t.mem = { s.mem with notices := s.mem.notices.erase (core, line) } ∧
      ∀ g ∈ (t.coreAt core).shadows, ∀ e ∈ g.2, ¬(e.1 = line ∧ e.2.verified = true) := by
  let clean := ((s.coreAt core).shadows.flatMap Prod.snd).filter fun e => e.1 == line && e.2.verified
  let shadows := AMap.mapVals (fun _ m => m.filter fun e => !(e.1 == line && e.2.verified)) (s.coreAt core).shadows
  let t := State.setCoreAt { s with mem := { s.mem with notices := s.mem.notices.erase (core, line) } } core
    { s.coreAt core with shadows := shadows }
  obtain ⟨hmem, hshadows⟩ := foldl_keeps (p := fun u : State => u.mem = t.mem ∧ (u.coreAt core).shadows = (t.coreAt core).shadows)
    (f := fun u (e : Nat × L1Line) => u.cleanShadow core line e.2)
    (fun u e ⟨hm, hs⟩ => ⟨(u.cleanShadow_keeps core line e.2).1.trans hm, (u.cleanShadow_keeps core line e.2).2.trans hs⟩) clean ⟨rfl, rfl⟩
  refine ⟨clean.foldl (fun u e => u.cleanShadow core line e.2) t, ?_, hmem, fun g hg e he => ?_⟩
  · change execReplicaNotice core line s = _
    simp only [execReplicaNotice]
    rw [if_pos (by simpa using h)]
  · rw [hshadows, State.setCoreAt_coreAt] at hg
    obtain ⟨m, -, rfl⟩ := List.mem_map.mp hg
    simpa [imp_iff_not_or] using List.of_mem_filter he

theorem exec_periodEnd {s : State} {group : Nat} (hr : (s.at_ group 0).groupRuns = true) (hp : (s.at_ group 0).periodOver = true) :
    exec (.periodEnd group) s = .next s := by
  change execPeriodEnd group s = _
  simp [execPeriodEnd, hr, hp]

end Sys2Proof.Machine

/-! PROOFS. The homes serve their lines without the wick (R356 to R368): no step of theirs changes an entry of it. -/

namespace Sys2Proof.Machine

section Homes
variable (s : State) (line a x die : Nat) (mask : BitVec 128) (data : BitVec 1024) (r : Request) (m : Msg)

@[simp] theorem State.touch_wicks : (s.touch line).mem.wicks = s.mem.wicks := by rw [State.touch]; split <;> rfl
@[simp] theorem State.shareSwitch_wicks : (s.shareSwitch line).mem.wicks = s.mem.wicks := by rw [State.shareSwitch]; split <;> rfl
@[simp] theorem State.leaves_wicks : (s.leaves line a).mem.wicks = s.mem.wicks := by rw [State.leaves]; split <;> rfl
@[simp] theorem State.unpoison_wicks (c : Bool) : (s.unpoison line mask c).mem.wicks = s.mem.wicks := by rw [State.unpoison]; split <;> rfl
@[simp] theorem State.dropPeer_wicks : (s.dropPeer line).mem.wicks = s.mem.wicks := by rw [State.dropPeer]; split <;> rfl

/-- A fold of operations that leave the wicks alone. -/
theorem State.foldl_wicks {α : Type} {f : State → α → State} (h : ∀ t b, (f t b).mem.wicks = t.mem.wicks) (l : List α) (s : State) :
    (l.foldl f s).mem.wicks = s.mem.wicks :=
  foldl_keeps (p := fun t : State => t.mem.wicks = s.mem.wicks) (fun t b ht => (h t b).trans ht) l rfl

@[simp] theorem State.beginService_wicks (l : List Msg) : (s.beginService line r l).mem.wicks = s.mem.wicks :=
  (State.foldl_wicks State.send_wicks l _).trans rfl
@[simp] theorem State.merge_wicks : (s.merge line).mem.wicks = s.mem.wicks :=
  State.foldl_wicks (fun t b => State.putHome_wicks t line _ _) (s.dirEntry line).holders s
@[simp] theorem State.performHome_wicks (c : Bool) : (s.performHome line mask data c).mem.wicks = s.mem.wicks := by simp [State.performHome]
@[simp] theorem State.sendBack_wicks : (s.sendBack line x).mem.wicks = s.mem.wicks := by
  rw [State.sendBack]
  split
  · simp
  · dsimp only; split <;> rfl
@[simp] theorem State.handBack_wicks : (s.handBack line x).mem.wicks = s.mem.wicks := by
  rw [State.handBack]
  split <;> simp
@[simp] theorem State.trimL2_wicks : (s.trimL2 die line).mem.wicks = s.mem.wicks := by
  rw [State.trimL2]
  split
  · rfl
  · dsimp only; split
    · rfl
    · split <;> simp
@[simp] theorem State.grantRead_wicks : (s.grantRead line a).mem.wicks = s.mem.wicks := by simp [State.grantRead]
@[simp] theorem State.grantOwn_wicks : (s.grantOwn line a mask data).mem.wicks = s.mem.wicks := by simp [State.grantOwn]
@[simp] theorem State.claimRead_wicks : (s.claimRead line a mask).mem.wicks = s.mem.wicks := by
  unfold State.claimRead
  dsimp only
  split
  · rfl
  · split <;> simp
@[simp] theorem State.claimOwn_wicks : (s.claimOwn line a mask data).mem.wicks = s.mem.wicks := by
  unfold State.claimOwn
  dsimp only
  split <;> simp
@[simp] theorem State.privatise_wicks : (s.privatise line x a mask data).mem.wicks = s.mem.wicks := rfl
@[simp] theorem State.serveHeld_wicks : (s.serveHeld line r).mem.wicks = s.mem.wicks := by
  unfold State.serveHeld
  rw [State.touch_wicks]
  cases r <;> dsimp only <;> (repeat' split) <;> simp
@[simp] theorem State.serve_wicks : (s.serve line r).mem.wicks = s.mem.wicks := by
  unfold State.serve
  dsimp only
  (repeat' split) <;> simp
@[simp] theorem State.wake_wicks : (s.wake line).mem.wicks = s.mem.wicks := by
  rw [State.wake]
  split
  · rfl
  · exact (State.foldl_wicks (fun t (e : Nat × Request) => State.serve_wicks t e.1 e.2) _ _).trans rfl
theorem State.serves_wicks (l : List Request) : (l.foldl (fun s r => s.serve line r) s).mem.wicks = s.mem.wicks :=
  State.foldl_wicks (fun t r => State.serve_wicks t line r) l s
@[simp] theorem State.endService_wicks : (s.endService line).mem.wicks = s.mem.wicks := by
  simp [State.endService, State.serves_wicks]
@[simp] theorem State.proceed_wicks : (s.proceed line).mem.wicks = s.mem.wicks := by
  unfold State.proceed
  dsimp only
  split <;> simp [State.serves_wicks]
@[simp] theorem State.onFwd_wicks : (s.onFwd line x).mem.wicks = s.mem.wicks := by
  unfold State.onFwd
  dsimp only
  (repeat' split) <;> simp
@[simp] theorem State.onFwdData_wicks (own : Bool) : (s.onFwdData line a data mask own).mem.wicks = s.mem.wicks := by
  unfold State.onFwdData
  dsimp only
  split <;> simp
@[simp] theorem State.gaveBack_wicks : (s.gaveBack line x).mem.wicks = s.mem.wicks := by
  unfold State.gaveBack
  dsimp only
  (repeat' split) <;> simp
@[simp] theorem State.onWbData_wicks (keep : Bool) : (s.onWbData line x data mask keep).mem.wicks = s.mem.wicks := by
  unfold State.onWbData
  dsimp only
  (repeat' split) <;> simp
@[simp] theorem State.onInv_wicks : (s.onInv line a).mem.wicks = s.mem.wicks := by
  unfold State.onInv
  dsimp only
  (repeat' split) <;> simp
@[simp] theorem State.onData_wicks : (s.onData line a).mem.wicks = s.mem.wicks := by
  simp only [State.onData]; split <;> rfl
@[simp] theorem State.onMsg_wicks : (s.onMsg m).mem.wicks = s.mem.wicks := by
  cases m <;> simp [State.onMsg]
theorem State.takeMsg_wicks {t : State} {p : Msg → Bool} (ht : s.takeMsg p = some (m, t)) : t.mem.wicks = s.mem.wicks := by
  unfold State.takeMsg at ht
  split at ht
  · cases ht; rfl
  · cases ht
@[simp] theorem State.settle_wicks (n : Nat) : (State.settle n line s).mem.wicks = s.mem.wicks := by
  induction n generalizing s with
  | zero => rfl
  | succ n ih =>
    rw [State.settle]
    split
    · next h => rw [ih, State.onMsg_wicks, State.takeMsg_wicks _ _ h]
    · rfl
@[simp] theorem State.request_wicks : (s.request line r).mem.wicks = s.mem.wicks := by simp [State.request]
@[simp] theorem State.physWrite_wicks (pa n : Nat) : (s.physWrite pa n x).mem.wicks = s.mem.wicks := State.request_wicks ..

end Homes

theorem State.physWriteRun_wicks (s : State) (pa : Nat) (l : List Byte) : (s.physWriteRun pa l).mem.wicks = s.mem.wicks := by
  unfold State.physWriteRun
  dsimp only
  split
  · rfl
  · exact State.foldl_wicks (fun t i => State.request_wicks t _ _) _ s

end Sys2Proof.Machine

/-! PROOFS. Serial phases, failures, service and firmware (R392 to R396, R448 to R451, R462 to R468). -/

namespace Sys2Proof.Machine

/-! The serial phase (R392 to R396). -/

theorem State.recallGrid_works (s : State) (grid line : Nat) : s.Works (s.recallGrid grid line) :=
  State.Works.foldl (fun t c => State.Works.purge ..) _ s

/-- A buffer that is empty in every team of the list. -/
theorem State.clearBuffers_wbuf (l : List Nat) (s : State) :
    ∀ t ∈ l, ((l.foldl (fun s t => s.setTeamAt t { s.teamAt t with wbuf := [] }) s).teamAt t).wbuf = [] := by
  refine (foldl_each (f := fun s t => s.setTeamAt t { s.teamAt t with wbuf := [] }) (need := fun _ _ => True)
    (got := fun u t => (u.teamAt t).wbuf = []) (fun _ _ _ _ h => h) (fun u a b _ hu => ?_) (fun u a _ => ?_) l s fun _ _ => trivial).2
  all_goals rw [State.teamAt_setTeamAt]
  · split
    · rfl
    · exact hu
  · rw [if_pos rfl]

theorem State.commitBuffers_keeps (s : State) (grid : Nat) :
    (s.commitBuffers grid).grids = s.grids ∧ ∀ t ∈ s.gridTeams grid, ((s.commitBuffers grid).teamAt t).wbuf = [] := by
  have hw := s.performBuffers_works grid
  refine ⟨?_, fun t ht => State.clearBuffers_wbuf _ (s.performBuffers grid) t ?_⟩
  · exact (foldl_keeps (p := fun u : State => u.grids = (s.performBuffers grid).grids) (fun _ _ h => by exact h)
      ((s.performBuffers grid).gridTeams grid) rfl).trans (hw.of_frame (·.grids))
  · change t ∈ (s.performBuffers grid).gridTeams grid
    rw [hw.of_frame fun u => u.gridTeams grid]
    exact ht

theorem exec_serialPhase {s : State} {grid : Nat} (hl : (s.gridAt grid).live = true) (hd : (s.gridAt grid).launch.det = true)
    (hn : s.gridGroups grid ≠ []) (hr : (s.gridGroups grid).all s.rests = true) (he : ∀ t ∈ s.gridTeams grid, s.enginesDone t = true)
    (ho : ∀ o ∈ s.host.atomics, o.gid ∉ s.gridGroups grid) :
    ∃ t, exec (.serialPhase grid) s = .next t ∧ (t.gridAt grid).det.period = (s.gridAt grid).det.period + 1 ∧
      (t.gridAt grid).det.released = [] ∧ (t.gridAt grid).det.arrived = [] ∧ ∀ k ∈ s.gridTeams grid, (t.teamAt k).wbuf = [] := by
  have hempty : (s.gridGroups grid).isEmpty = false := by simpa using hn
  have hengines : (s.gridTeams grid).all s.enginesDone = true := List.all_eq_true.mpr he
  have hatomics : (s.host.atomics.any fun o => (s.gridGroups grid).contains o.gid) = false := by simpa using ho
  let u := (((s.askedLines grid).filter fun l => !s.unverified l) ++ (s.bufferedBy grid).map Prod.fst).eraseDups.foldl
    (fun s l => s.recallGrid grid l) s
  have hu : s.Works u := State.Works.foldl (fun t l => State.recallGrid_works ..) _ s
  obtain ⟨hgrids, hbufs⟩ := u.commitBuffers_keeps grid
  have hgrid : (u.commitBuffers grid).gridAt grid = s.gridAt grid := by
    rw [State.gridAt, hgrids, hu.of_frame (·.grids)]
    rfl
  change ∃ t, execSerialPhase grid s = .next t ∧ _
  simp only [execSerialPhase, hl, hd, hempty, hr, hengines, hatomics]
  refine ⟨_, rfl, ?_, ?_, ?_, fun k hk => hbufs k ?_⟩
  · exact (congrArg (fun g : Grid => g.det.period) (AMap.get_set_same ..)).trans (congrArg (fun g : Grid => g.det.period + 1) hgrid)
  · exact congrArg (fun g : Grid => g.det.released) (AMap.get_set_same ..)
  · exact congrArg (fun g : Grid => g.det.arrived) (AMap.get_set_same ..)
  · rw [hu.of_frame fun v => v.gridTeams grid]
    exact hk


/-! A die fails (R462 to R464). -/

/-- One line loses the copy of a die (R462). -/
def State.loseLine (die : Nat) (s : State) (e : Nat × DirEntry) : State :=
  let s := State.settle 64 e.1 s
  let d := s.dirEntry e.1
  if !d.ag.getLsbD die then s
  else if d.st == 1 then s.setDir e.1 (d.revoke die)
  else
    let s := s.setDir e.1 (d.revoke die)
    let s := if d.st == 4 then s.merge e.1 else s
    { s with mem := { s.mem with poison := e.1 :: s.mem.poison.erase e.1 } }

theorem State.loseHolder_eq (s : State) (die : Nat) : s.loseHolder die =
    (s.mem.dir.filter fun e => e.2.ag.getLsbD die && homeDie e.1 != some die).foldl (State.loseLine die) s := rfl

theorem State.loseLine_keeps (die : Nat) (s : State) (e : Nat × DirEntry) :
    (s.loseLine die e).frame = s.frame ∧ (s.loseLine die e).mem.wicks = s.mem.wicks := by
  have hs := State.settle_frame s e.1 64
  have hw := State.settle_wicks s e.1 64
  unfold State.loseLine
  dsimp only
  split
  · exact ⟨hs, hw⟩
  · split
    · exact ⟨(State.setDir_frame ..).trans hs, hw⟩
    · split
      · exact ⟨(State.merge_frame ..).trans ((State.setDir_frame ..).trans hs), (State.merge_wicks ..).trans hw⟩
      · exact ⟨hs, hw⟩

theorem State.loseHolder_wicks (s : State) (die : Nat) : (s.loseHolder die).mem.wicks = s.mem.wicks := by
  rw [State.loseHolder_eq]
  exact State.foldl_wicks (f := State.loseLine die) (fun t e => (t.loseLine_keeps die e).2) _ s

/-- A record that a salvage writes (R464). -/
def State.writeOrphan (base : Nat) (s : State) (e : Orphan × Nat) : State := s.physWriteRun (base + 160 * e.2) (salvageRecord e.1)

theorem State.salvage_wicks (s : State) (die : Nat) : (s.salvage die).mem.wicks = s.mem.wicks := by
  have hwrite : ∀ (base : Nat) (l : List (Orphan × Nat)) (t : State), (l.foldl (State.writeOrphan base) t).mem.wicks = t.mem.wicks :=
    fun base l t => State.foldl_wicks (fun x e => State.physWriteRun_wicks ..) l t
  unfold State.salvage
  extract_lets l mem t n
  split
  · split <;> rfl
  · split <;> exact hwrite _ _ t

/-- What the log's growth leaves: the host's registers. -/
structure State.Notes (s t : State) : Prop where
  host : t.host = s.host
  log : ∀ r ∈ s.lamp.log, r ∈ t.lamp.log

namespace State.Notes
variable {s t u : State}

theorem refl (s : State) : s.Notes s := ⟨rfl, fun _ h => h⟩
theorem trans (h : s.Notes t) (k : t.Notes u) : s.Notes u := ⟨k.host.trans h.host, fun r hr => k.log r (h.log r hr)⟩
theorem of_frame (h : t.frame = s.frame) : s.Notes t :=
  ⟨(congrArg (·.host) h : t.frame.host = _), fun r hr => by
    have hl : t.lamp = s.lamp := (congrArg (·.lamp) h : t.frame.lamp = _)
    rwa [hl]⟩
theorem foldl {α : Type} {f : State → α → State} (hf : ∀ (t : State) (a : α), t.Notes (f t a)) (l : List α) (s : State) :
    s.Notes (l.foldl f s) := foldl_keeps (p := fun t : State => s.Notes t) (fun t a h => h.trans (hf t a)) l (refl s)
theorem logAt (s : State) (kind : BitVec 16) (die core : BitVec 8) (detail : Word) (value : DWord) :
    s.Notes (s.logAt kind die core detail value) := ⟨rfl, fun _ hr => .tail _ hr⟩
theorem logDevice (s : State) (kind : BitVec 16) (detail : Word) (value : DWord) : s.Notes (s.logDevice kind detail value) :=
  ⟨rfl, fun _ hr => .tail _ hr⟩
theorem then_logDevice (h : s.Notes t) (kind : BitVec 16) (detail : Word) (value : DWord) : s.Notes (t.logDevice kind detail value) :=
  h.trans (logDevice ..)
theorem endGrid (s : State) (grid detail : Nat) : s.Notes (s.endGrid grid detail) := by
  have hhost : ∀ (u : State) (g st d c : Nat) (pc : Addr) (n : Word) (a : Addr), (u.failGridWith g st d c pc n a).host = u.host :=
    fun u g st d c pc n a => by
      have hd : ∀ (v : State) (k : Nat), (v.discardCommands k).host = v.host := fun v k => by rw [State.discardCommands_keeps]
      unfold State.failGridWith
      dsimp only
      split
      · rfl
      · split <;> exact hd ..
  refine ⟨hhost .., fun r hr => ?_⟩
  exact State.failGridWith_log (s := s.at_ ((s.gridGroups grid).headD 0) 0) grid hr

theorem loseHolder (s : State) (die : Nat) : s.Notes (s.loseHolder die) := by
  rw [State.loseHolder_eq]
  exact foldl (f := State.loseLine die) (fun t e => of_frame (t.loseLine_keeps die e).1) _ s
theorem salvage (s : State) (die : Nat) : s.Notes (s.salvage die) := by
  unfold State.salvage
  extract_lets l mem t n
  have ht : s.Notes t := of_frame rfl
  have hwrite : ∀ (base : Nat) (l : List (Orphan × Nat)), t.Notes (l.foldl (State.writeOrphan base) t) :=
    fun base l => foldl (fun x e => of_frame (State.Works.physWriteRun ..).frame) l t
  refine ht.trans ?_
  split
  · split
    · exact refl t
    · exact logDevice ..
  · split
    · exact ((hwrite _ _).then_logDevice ..).then_logDevice ..
    · exact (hwrite _ _).then_logDevice ..

end State.Notes


/-! The service level and the dies in service (R459). -/

theorem level_svcOf {level dies : Nat} (hl : level < 8) (hd : dies < 16) : (svcOf level dies).toNat % 8 = level := by
  rw [svcOf, BitVec.toNat_ofNat]
  omega

theorem svcOf_getLsbD {level dies d : Nat} (hl : level < 8) (hd : d < 4) : (svcOf level dies).getLsbD (12 + d) = dies.testBit d := by
  have hbit : (2 ^ 12 * dies + level).testBit (12 + d) = dies.testBit d := by
    rw [Nat.testBit_two_pow_mul_add dies (by omega), if_neg (by omega)]
    simp
  rw [svcOf, BitVec.getLsbD_ofNat, show level + 4096 * dies = 2 ^ 12 * dies + level by omega, hbit]
  simp
  omega

theorem State.setService_level (s : State) {level dies : Nat} (hl : level < 8) (hd : dies < 16) : (s.setService level dies).level = level :=
  level_svcOf hl hd

theorem State.setService_inService (s : State) {level dies d : Nat} (hl : level < 8) (hd : d < 4) :
    (s.setService level dies).inService d = dies.testBit d := by
  rw [State.inService, decide_eq_true hd, Bool.true_and]
  exact svcOf_getLsbD hl hd

theorem testBit_sub_two_pow : ∀ b < 16, ∀ d < 4, b.testBit d = true → (b - 2 ^ d).testBit d = false := by decide

theorem State.dieBits_lt (s : State) : s.dieBits < 16 := (s.host.svc.extractLsb' 12 4).isLt

theorem State.dieBits_testBit {s : State} {die : Nat} (h : s.inService die = true) : die < 4 ∧ s.dieBits.testBit die = true := by
  obtain ⟨hd, hb⟩ := Bool.and_eq_true_iff.mp h
  have hlt : die < 4 := of_decide_eq_true hd
  refine ⟨hlt, ?_⟩
  rw [State.dieBits, BitVec.testBit_toNat, BitVec.getLsbD_extractLsb', decide_eq_true hlt, Bool.true_and]
  exact hb

/-- What the failure of a die does before its lines are salvaged: its grids end, and its part of the wick is marked (R462). -/
def State.cutDie (die : Nat) (s : State) : State :=
  { s with
    mem := { s.mem with
      wicks := AMap.mapVals (fun _ w => if w.die.toNat == die then { w with dr := true } else w) s.mem.wicks
      demands := s.mem.demands.filter fun d => d.die != die
      notices := s.mem.notices.filter fun e => e.1 / 72 != die }
    cores := AMap.mapVals (fun k c => if k / 72 == die then { c with l1 := [], shadows := [], headers := [] } else c) s.cores }

theorem State.cutDie_wick (die : Nat) (s : State) (n : Nat) (h : ((s.cutDie die).wick n).die.toNat = die)
    (hv : ((s.cutDie die).wick n).v = true) : ((s.cutDie die).wick n).dr = true := by
  revert h hv
  refine AMap.get_mapVals_all (p := fun w : Wick => w.die.toNat = die → w.v = true → w.dr = true) (d := {}) (by simp)
    (f := fun _ w => if w.die.toNat == die then { w with dr := true } else w) (fun w => ?_) s.mem.wicks
  split
  · exact fun _ _ => rfl
  · next hne => exact fun h _ => absurd (beq_iff_eq.mpr h) hne

theorem exec_dieFailure {s : State} {die : Nat} (hs : s.inService die = true) :
    ∃ t, exec (.dieFailure die) s = .next t ∧ die ∈ t.lamp.failed ∧ t.inService die = false ∧
      t.level = (if s.level = 2 then 3 else s.level) ∧ (∃ r ∈ t.lamp.log, r.kind = 0x0006) ∧
      ∀ n, (t.wick n).die.toNat = die → (t.wick n).v = true → (t.wick n).dr = true := by
  obtain ⟨hd, hbit⟩ := State.dieBits_testBit hs
  let a := s.logAt 0x0006 (BitVec.ofNat 8 die) 0xFF 0 0
  let hit := a.runningGrids.filter fun g => (a.clustersOf g).any fun c =>
    ((a.clusterAt c).act == .active || (a.clusterAt c).act == .parked) && (a.teamsOf c).any fun t => (a.teamAt t).core / 72 == die
  let b := hit.foldl (fun s g => s.endGrid g 0x09) a
  let c := ((b.cutDie die).loseHolder die).salvage die
  have hb : a.Notes b := .foldl (fun t g => .endGrid t g 0x09) hit a
  have hcut : b.Notes (b.cutDie die) := .of_frame rfl
  have hn : a.Notes c := (hb.trans hcut).trans ((State.Notes.loseHolder _ die).trans (.salvage _ die))
  have hhost : c.host = s.host := hn.host
  have hwick : ∀ n, c.wick n = (b.cutDie die).wick n := fun n => by
    rw [State.wick, State.salvage_wicks, State.loseHolder_wicks]
    rfl
  let d : State := { c with lamp := { c.lamp with failed := die :: c.lamp.failed } }
  have hlevel : d.level = s.level := congrArg (fun h : HostLink => h.svc.toNat % 8) hhost
  have hbits : d.dieBits = s.dieBits := congrArg (fun h : HostLink => (h.svc.extractLsb' 12 4).toNat) hhost
  have hstay : s.level < 8 := Nat.mod_lt _ (by decide)
  have hnew : (if s.level = 2 then 3 else s.level) < 8 := by split <;> omega
  have hless : s.dieBits - 2 ^ die < 16 := Nat.lt_of_le_of_lt (Nat.sub_le ..) s.dieBits_lt
  refine ⟨d.setService (if s.level = 2 then 3 else s.level) (s.dieBits - 2 ^ die), ?_, List.mem_cons_self, ?_,
    State.setService_level d hnew hless, ⟨_, List.mem_cons_of_mem _ (hn.log _ List.mem_cons_self), rfl⟩, fun n => ?_⟩
  · have hexec : exec (.dieFailure die) s = .next (d.setService (if d.level == 2 then 3 else d.level) (d.dieBits - 2 ^ die)) := by
      change execDieFailure die s = _
      rw [execDieFailure, if_neg (by simp [hd, hs])]
      rfl
    rw [hexec, hlevel, hbits]
    simp only [beq_iff_eq]
  · rw [State.setService_inService d hnew hd]
    exact testBit_sub_two_pow _ s.dieBits_lt _ hd hbit
  · have hwn : (d.setService (if s.level = 2 then 3 else s.level) (s.dieBits - 2 ^ die)).wick n = (b.cutDie die).wick n := hwick n
    rw [hwn]
    exact State.cutDie_wick die b n


/-! A module that no path reaches, and a page that is retired (R465, R466). -/

theorem State.failGridWith_unreachable (s : State) (g st d c : Nat) (pc : Addr) (n : Word) (a : Addr) :
    (s.failGridWith g st d c pc n a).lamp.unreachable = s.lamp.unreachable := by
  have hd : ∀ (u : State) (k : Nat), (u.discardCommands k).lamp.unreachable = u.lamp.unreachable :=
    fun u k => congrArg Lamp.unreachable (State.discardCommands_lamp u k)
  unfold State.failGridWith
  dsimp only
  split
  · rfl
  · split
    · exact hd ..
    · exact hd ..

theorem State.engineArrival_unreachable (s : State) (num : Nat) : (s.engineArrival num).lamp.unreachable = s.lamp.unreachable := by
  unfold State.engineArrival
  dsimp only
  split
  · exact congrArg Lamp.unreachable ((State.testBarrier_lamp ..).trans (State.setBarrier_lamp ..))
  · exact State.failGridWith_unreachable ..

theorem State.commandArrival_unreachable (s : State) (c : Cmd) : (s.commandArrival c).lamp.unreachable = s.lamp.unreachable := by
  unfold State.commandArrival
  split
  · dsimp only
    split
    · split
      · exact State.engineArrival_unreachable ..
      · rfl
    · rfl
  · split
    · exact State.engineArrival_unreachable ..
    · rfl

theorem State.completeCmd_unreachable (s : State) (ctx : Nat) {c : Cmd} (hp : c.pend = []) :
    (s.completeCmd ctx c).lamp.unreachable = s.lamp.unreachable := by
  unfold State.completeCmd
  extract_lets s1 s2 bar repl s3 team s4 s5 x y s6 s7
  have h2 : s2.lamp = s.lamp := by unfold s2; rw [hp]; rfl
  have h3 : s3.lamp = s.lamp := by unfold s3; split <;> exact h2
  have h4 : s4.lamp = s.lamp := by unfold s4; split <;> exact h3
  have h6 : s6.lamp = s.lamp := (State.foldl_lamp (fun t d => State.releaseClocks_lamp ..) _ s5).trans h4
  exact (State.commandArrival_unreachable ..).trans (congrArg Lamp.unreachable h6)

theorem exec_peerUnreachable {s : State} {peer : Nat} (hp : peer < 1024) (hu : peer ∉ s.lamp.unreachable)
    (hm : peer ≠ s.host.modnum.toNat % 1024) :
    ∃ t, exec (.peerUnreachable peer) s = .next t ∧ t.lamp.unreachable = peer :: s.lamp.unreachable := by
  have hfault : ∀ (u : State) (e : Nat × Cmd),
      (((u.at_ e.2.gid e.2.slot).engineFault 3 e.2 0x09 (e.2.ops.getD 2 0)).at_ u.gid u.slot).lamp.unreachable = u.lamp.unreachable :=
    fun u e => (State.completeCmd_unreachable _ 3 rfl).trans (State.failGridWith_unreachable ..)
  change ∃ t, execPeerUnreachable peer s = .next t ∧ _
  rw [execPeerUnreachable, if_neg (by simp [hp, hu, hm])]
  refine ⟨_, rfl, ?_⟩
  exact foldl_keeps (p := fun u : State => u.lamp.unreachable = peer :: s.lamp.unreachable) (fun u e h => (hfault u e).trans h) _ rfl

theorem exec_pageRetire {s : State} {pa errors : Nat} (hp : pa < Config.hbmBytes) (hr : pa / 65536 * 65536 ∉ s.lamp.retired) :
    ∃ t, exec (.pageRetire pa errors) s = .next t ∧ t.lamp.retired = pa / 65536 * 65536 :: s.lamp.retired ∧ t.mem = s.mem ∧
      t.groups = s.groups := by
  change ∃ t, execPageRetire pa errors s = .next t ∧ _
  have hr' : s.lamp.retired.contains (pa / 65536 * 65536) = false := by simpa using hr
  rw [execPageRetire]
  simp only [hr', Nat.not_le.mpr hp]
  exact ⟨_, rfl, rfl, rfl, rfl⟩

/-! Sensors and the coolant (R467). -/

theorem State.setClocks_keeps (s : State) (new : List Nat) :
    (s.setClocks new).mem = s.mem ∧ (s.setClocks new).groups = s.groups ∧ (s.setClocks new).lamp.clocks = new ∧
      (s.setClocks new).lamp.halved = s.lamp.halved := ⟨rfl, rfl, rfl, rfl⟩

theorem State.clockStep_down {s : State} {sensor die : Nat} (hl : s.lamp.clocks.length = 4) (hd : die < 4) (hi : s.inService die = true) :
    let t := s.clockStep sensor die false
    t.lamp.clocks.getD die 0 = max 1200 (s.lamp.clocks.getD die 0 - 100) ∧ t.mem = s.mem ∧ t.groups = s.groups ∧ t.lamp.halved = s.lamp.halved := by
  intro t
  unfold t State.clockStep
  dsimp only
  simp only [Bool.false_eq_true, if_false]
  split
  · next h =>
    have hold : max clockFloor (s.lamp.clocks.getD die 0 - 100) = s.lamp.clocks.getD die 0 := by simpa [hi] using h
    exact ⟨hold.symm, rfl, rfl, rfl⟩
  · refine ⟨?_, rfl, rfl, rfl⟩
    change (s.lamp.clocks.set die _).getD die 0 = _
    rw [List.getD_eq_getElem?_getD, List.getElem?_set_self (by omega)]
    rfl

theorem State.shutdown_down (s : State) : s.shutdown.level = 0 ∧ s.shutdown.lamp.down = true :=
  ⟨level_svcOf (dies := 0) (by decide) (by decide), rfl⟩

theorem exec_sensorLimit_clock {s : State} {sensor die : Nat} (hd : die < 4) (hl : s.level ≠ 0) (hc : s.lamp.clocks.length = 4)
    (hi : s.inService die = true) (hs : sensor ∈ [1, 3, 5]) :
    ∃ t, exec (.sensorLimit sensor die) s = .next t ∧ t.lamp.clocks.getD die 0 = max 1200 (s.lamp.clocks.getD die 0 - 100) ∧
      t.mem = s.mem ∧ t.groups = s.groups ∧ (sensor = 3 → 2 * die ∈ t.lamp.halved) ∧ (sensor = 5 → 2 * die + 1 ∈ t.lamp.halved) := by
  have hgo : (decide (4 ≤ die) || s.level == 0) = false := by simp [hl, hd]
  have hstep : ∀ (u : State) (n : Nat), u.lamp.clocks = s.lamp.clocks → u.inService die = s.inService die → u.mem = s.mem → u.groups = s.groups →
      let t := u.clockStep n die false
      t.lamp.clocks.getD die 0 = max 1200 (s.lamp.clocks.getD die 0 - 100) ∧ t.mem = s.mem ∧ t.groups = s.groups ∧ t.lamp.halved = u.lamp.halved :=
    fun u n huc hui hum hug => by
      obtain ⟨hclock, hmem, hgroups, hhalved⟩ := State.clockStep_down (s := u) (sensor := n) (by rw [huc]; exact hc) hd (by rw [hui]; exact hi)
      exact ⟨by rw [hclock, huc], hmem.trans hum, hgroups.trans hug, hhalved⟩
  have hexec : exec (.sensorLimit sensor die) s = execSensorLimit sensor die s := rfl
  rw [hexec]
  simp only [List.mem_cons, List.not_mem_nil, or_false] at hs
  rcases hs with rfl | rfl | rfl
  · obtain ⟨hclock, hmem, hgroups, -⟩ := hstep s 1 rfl rfl rfl rfl
    exact ⟨_, by simp only [execSensorLimit, hgo]; rfl, hclock, hmem, hgroups, by simp, by simp⟩
  · obtain ⟨hclock, hmem, hgroups, hhalved⟩ := hstep (s.halve (2 * die) true) 3 rfl rfl rfl rfl
    exact ⟨_, by simp only [execSensorLimit, hgo]; rfl, hclock, hmem, hgroups, fun _ => hhalved ▸ List.mem_cons_self, by simp⟩
  · obtain ⟨hclock, hmem, hgroups, hhalved⟩ := hstep (s.halve (2 * die + 1) true) 5 rfl rfl rfl rfl
    exact ⟨_, by simp only [execSensorLimit, hgo]; rfl, hclock, hmem, hgroups, by simp, fun _ => hhalved ▸ List.mem_cons_self⟩

theorem exec_sensorLimit_shutdown {s : State} {sensor die : Nat} (hd : die < 4) (hl : s.level ≠ 0) (hs : sensor ∈ [2, 4]) :
    exec (.sensorLimit sensor die) s = .next s.shutdown := by
  have hgo : (decide (4 ≤ die) || s.level == 0) = false := by simp [hl, hd]
  change execSensorLimit sensor die s = _
  simp only [List.mem_cons, List.not_mem_nil, or_false] at hs
  rcases hs with rfl | rfl <;> simp only [execSensorLimit, hgo] <;> rfl

theorem exec_coolantFlowTimeout {s : State} (hl : s.level ≠ 0) : exec .coolantFlowTimeout s = .next s.shutdown := by
  change execCoolantFlowTimeout s = _
  simp [execCoolantFlowTimeout, hl]

/-! Reset, training and firmware (R459 to R461, R468). -/

section Reset
variable {s : State} (hn : ((s.lamp.kept s.time.cycle).slot (1 - s.lamp.active)).valid = true)
  (hp : ((s.lamp.kept s.time.cycle).slot (1 - s.lamp.active)).pending = true)

theorem exec_reset_plain (h : ¬(((s.lamp.kept s.time.cycle).slot (1 - s.lamp.active)).valid = true ∧
    ((s.lamp.kept s.time.cycle).slot (1 - s.lamp.active)).pending = true)) :
    exec .reset s = .next { State.reset with lamp := s.lamp.kept s.time.cycle } := by
  change execReset s = _
  exact if_neg fun hc => h (Bool.and_eq_true_iff.mp hc)

include hn hp in
theorem exec_reset_pending :
    ∃ t, exec .reset s = .next t ∧ t.lamp.active = 1 - s.lamp.active ∧ t.lamp.trial = true ∧ { t with lamp := State.reset.lamp } = State.reset := by
  refine ⟨_, if_pos ?_, rfl, rfl, rfl⟩
  exact Bool.and_eq_true_iff.mpr ⟨hn, hp⟩

end Reset

theorem exec_firmwareFallback {s : State} (ht : s.lamp.trial = true) (hl : s.level = 0) :
    ∃ t, exec .firmwareFallback s = .next t ∧ t.lamp.active = 1 - s.lamp.active ∧ { t with lamp := State.reset.lamp } = State.reset := by
  refine ⟨_, if_neg ?_, rfl, rfl⟩
  simp [ht, hl]

section Training
variable {s : State} {trained : BitVec 4} (hd : s.lamp.down = false)
include hd

theorem exec_dieTrainingComplete_first (hl : s.level = 0) (ht : trained.getLsbD 0 = true) :
    ∃ t, exec (.dieTrainingComplete trained) s = .next t ∧ t.level = 1 ∧ t.lamp.trial = false ∧
      t.host.link = (if Config.cxlPersonality then 1 else 0) ∧ t.mem = s.mem := by
  change ∃ t, execDieTrainingComplete trained s = .next t ∧ _
  simp only [execDieTrainingComplete, hd, hl, ht]
  exact ⟨_, rfl, level_svcOf (dies := 1) (by decide) (by decide), rfl, rfl, rfl⟩

theorem exec_dieTrainingComplete_untrained (hl : s.level = 0) (ht : trained.getLsbD 0 = false) :
    exec (.dieTrainingComplete trained) s = .next s.fixLink := by
  change execDieTrainingComplete trained s = _
  simp only [execDieTrainingComplete, hd, hl, ht]
  rfl

theorem exec_dieTrainingComplete_all (hl : s.level = 1) (ht : trained = 15) :
    ∃ t, exec (.dieTrainingComplete trained) s = .next t ∧ t.level = 2 ∧ ∀ d, d < 4 → t.inService d = true := by
  change ∃ t, execDieTrainingComplete trained s = .next t ∧ _
  simp only [execDieTrainingComplete, hd, hl, ht]
  refine ⟨_, rfl, level_svcOf (dies := 15) (by decide) (by decide), fun d hlt => ?_⟩
  rw [State.setService_inService _ (by decide) hlt]
  exact (by decide : ∀ d < 4, (15 : Nat).testBit d = true) d hlt

theorem exec_dieTrainingComplete_some (hl : s.level = 1) (ht : trained ≠ 15) : exec (.dieTrainingComplete trained) s = .next s := by
  have ht' : (trained == 0xF) = false := beq_false_of_ne ht
  change execDieTrainingComplete trained s = _
  simp only [execDieTrainingComplete, hd, hl, ht']
  rfl

end Training

/-- Settles O60: the compares and rendezvous of replicas, the ends of periods, the failures that Lamplighter meets, and the ways into
and out of service, one event after the other. -/
theorem replicaAndDeviceEvents : Obligations.ReplicaAndDeviceEvents := by
  unfold Obligations.ReplicaAndDeviceEvents
  intro s group core line grid die peer pa errors version trained signed l lead repl u late full other kept next
  refine ⟨?sig, ?_, ?_, ?_, State.mismatch_retries, ?meet, exec_replicaNotice, fun _ _ => exec_replicaResult_result,
    fun _ _ _ => exec_replicaResult_value, exec_periodEnd, exec_serialPhase, fun _ => exec_dieFailure, exec_peerUnreachable, exec_pageRetire,
    fun hd hl => ⟨fun _ hs hc hi => exec_sensorLimit_clock hd hl hc hi hs,
      fun _ hs => ⟨_, exec_sensorLimit_shutdown hd hl hs, s.shutdown_down⟩⟩,
    fun hl => ⟨_, exec_coolantFlowTimeout hl, s.shutdown_down⟩, exec_reset_plain, exec_reset_pending,
    fun hd => ⟨exec_dieTrainingComplete_first hd, exec_dieTrainingComplete_untrained hd, exec_dieTrainingComplete_all hd,
      exec_dieTrainingComplete_some hd⟩, rfl, exec_firmwareFallback⟩
  case sig =>
    intro sig hfull hsent
    obtain ⟨hg, hl, ha⟩ := hfull
    obtain ⟨t, he, hgid, hslot, hrel⟩ := exec_replicaSig hg hl ha hsent
    exact ⟨t, he, hgid, hslot, fun g hm => ⟨(hrel g hm).sent, (hrel g hm).sig, (hrel g hm).writes⟩⟩
  case meet =>
    intro x hfull hs
    obtain ⟨hg, hl, ha⟩ := hfull
    exact exec_rendezvousOperands hg hl ha hs
  · exact fun hlate hw hr ha => exec_compareTimeout hlate.1 hlate.2 hw hr ha
  · exact fun hlate hw hr ha => exec_rendezvousTimeout hlate.1 hlate.2 hw hr ha
  · exact fun hlate hw hr hf => exec_ldaForwardTimeout hlate.1 hlate.2 hw hr hf

end Sys2Proof.Machine

/-! PROOFS. Memory in canonical form under the events of the coherence protocol, of the wick, and of the host (R356 to R368, R472, R473). -/

namespace Sys2Proof.Machine

/-- Where an outcome goes on, memory in canonical form is so still. -/
structure State.Leads (s : State) (o : Out) : Prop where
  keeps : ∀ t, o = .next t → s.Keeps t

namespace State.Leads
variable {s t : State} {o q : Out}

theorem next (h : s.Keeps t) : s.Leads (.next t) := ⟨fun u hu => by cases hu; exact h⟩
theorem fault (f : Fault) : s.Leads (.fault f) := ⟨fun _ hu => by cases hu⟩
theorem of_runs (h : s.Runs o) : s.Leads o := by
  obtain ⟨t, rfl, hk⟩ := h
  exact next hk
theorem after (h : s.Keeps t) (k : t.Leads o) : s.Leads o := ⟨fun u hu => h.trans (k.keeps u hu)⟩
theorem ite {c : Prop} [Decidable c] (h : c → s.Leads o) (k : ¬c → s.Leads q) : s.Leads (if c then o else q) := by
  split
  · next hc => exact h hc
  · next hc => exact k hc
/-- An event that a condition does not enable leads nowhere. -/
theorem blocked {c : Prop} [Decidable c] {f : Fault} (k : s.Leads q) : s.Leads (if c then .fault f else q) := ite (fun _ => fault f) fun _ => k
theorem enabled {c : Prop} [Decidable c] {f : Fault} (h : s.Leads o) : s.Leads (if c then o else .fault f) := ite (fun _ => h) fun _ => fault f
theorem ofOption {x : Option State} (h : ∀ t, x = some t → s.Keeps t) : s.Leads (Out.ofOption x) := by
  cases x with
  | none => exact fault _
  | some t => exact next (h t rfl)

end State.Leads

namespace State.Keeps
variable {s t : State}

theorem serve (s : State) (line : Nat) (r : Request) : s.Keeps (s.serve line r) := ⟨fun h => State.serve_wf h ..⟩
theorem request (s : State) (line : Nat) (r : Request) : s.Keeps (s.request line r) := of_works (.request ..)
theorem settle (s : State) (n line : Nat) : s.Keeps (State.settle n line s) := of_works (.settle ..)
theorem sendBack (s : State) (line x : Nat) : s.Keeps (s.sendBack line x) := ⟨fun h => State.sendBack_wf h ..⟩
theorem putHome (s : State) (line : Nat) (mask : BitVec 128) (data : BitVec 1024) : s.Keeps (s.putHome line mask data) :=
  ⟨fun h => State.putHome_wf h ..⟩
theorem onMsg (s : State) (m : Msg) : s.Keeps (s.onMsg m) := ⟨fun h => State.onMsg_wf h m⟩
theorem switchRoom (s : State) (line : Nat) : s.Keeps (s.switchRoom line) := by
  unfold State.switchRoom
  extract_lets rivals
  split
  · exact refl s
  · split
    · exact ((settle ..).trans (sendBack ..)).trans (settle ..)
    · exact refl s
theorem setSwitch (s : State) (line : Nat) (st : BitVec 3) (l : List Nat) : s.Keeps (s.setSwitch line st l) := of_bytes rfl rfl
theorem hostWrite (s : State) (line : Nat) (mask : BitVec 128) (bytes : BitVec 1024) : s.Keeps (s.hostWrite line mask bytes) :=
  (of_works (.foldl State.Works.plainTile _ s)).trans (request ..)
theorem setHostState (s : State) (line : Nat) (st : BitVec 3) : s.Keeps (s.setHostState line st) := by
  unfold State.setHostState
  split
  · exact of_bytes rfl rfl
  · exact refl s
theorem answer (s : State) (data : BitVec 1024) (poison : Bool) : s.Keeps (s.answer data poison) := of_mem rfl
theorem answerEmpty (s : State) : s.Keeps s.answerEmpty := of_mem rfl
theorem sendOwn (s : State) (core line : Nat) : s.Keeps (s.sendOwn core line) := by
  unfold State.sendOwn
  extract_lets x a b
  have ha : s.Keeps a := (of_works (.foldl State.Works.plainTile _ s)).trans (serve ..)
  have hb : a.Keeps b := of_works (.setL1 ..)
  exact (ha.trans hb).trans (of_bytes rfl rfl)
theorem clearLines (s : State) (first n : Nat) : s.Keeps (s.clearLines first n) := by
  unfold State.clearLines
  extract_lets inRun a
  have ha : s.Keeps a := foldl (fun t c => foldl (fun u e => of_works (.purge ..)) _ t) s.cores s
  exact ha.trans (foldl (fun t e => request ..) _ a)
theorem setLeafValid (s : State) (l : LeafAt) (valid : Bool) : s.Keeps (s.setLeafValid l valid) := of_works (.physWrite ..)
theorem dropTlb (s : State) (p : TlbEntry → Bool) : s.Keeps (s.dropTlb p) := of_bytes rfl rfl
theorem unlease (s : State) (pa : Nat) : s.Keeps (s.unlease pa) := of_mem rfl
theorem setHostPages (s : State) (asid page : Nat) (large valid : Bool) : s.Keeps (s.setHostPages asid page large valid) :=
  of_mem (State.setHostPages_mem ..)
theorem hostRmw (op n : Nat) (l : List (Nat × Nat × Nat)) (s : State) : s.Keeps (s.hostRmw op n l).1 := by
  induction l generalizing s with
  | nil => exact refl s
  | cons e l ih =>
    unfold State.hostRmw
    exact (iteProp (refl s) (of_works (.physWrite ..))).trans (ih _)

end State.Keeps

namespace State.Leads

theorem fabricRead (s : State) (m line : Nat) : s.Leads (Out.ofOption (s.fabricRead m line)) := by
  refine ofOption fun t ht => ?_
  unfold State.fabricRead at ht
  extract_lets e u d at ht
  split at ht
  · cases ht
  · split at ht
    · cases ht; exact .setSwitch ..
    · split at ht
      · cases ht; exact (Keeps.of_works (.homeDieRead ..)).trans (.setSwitch ..)
      · split at ht
        · cases ht; exact ((Keeps.switchRoom ..).trans (.request ..)).trans (.setSwitch ..)
        · cases ht

theorem fabricOwn (s : State) (m line : Nat) (mask : BitVec 128) (bytes : BitVec 1024) :
    s.Leads (Out.ofOption (s.fabricOwn m line mask bytes)) := by
  refine ofOption fun t ht => ?_
  unfold State.fabricOwn at ht
  extract_lets u at ht
  split at ht
  · cases ht
    exact (((Keeps.switchRoom ..).trans (.of_works (.plainLine ..))).trans (.request ..)).trans (.setSwitch ..)
  · cases ht

theorem execRead (agent line : Nat) (s : State) : s.Leads (execRead agent line s) :=
  ite (fun _ => enabled (fabricRead ..)) fun _ => enabled (next (.serve ..))

theorem execOwn (agent line : Nat) (mask : BitVec 128) (bytes : BitVec 1024) (s : State) : s.Leads (execOwn agent line mask bytes s) := by
  refine ite (fun _ => enabled (fabricOwn ..)) fun _ => blocked (ite (fun _ => enabled (next ?_)) fun _ => ?_)
  · exact (Keeps.of_works (.plainLine ..)).trans (.serve ..)
  · split
    · exact blocked (next (.sendOwn ..))
    · exact fault _

theorem execHomeWrite (line : Nat) (mask : BitVec 128) (bytes : BitVec 1024) (s : State) : s.Leads (execHomeWrite line mask bytes s) := by
  unfold Machine.execHomeWrite
  split
  · exact next (.of_works (.writeBack ..))
  · exact enabled (next (.putHome ..))

theorem execClaimAccess (agent line : Nat) (mask : BitVec 128) (s : State) : s.Leads (execClaimAccess agent line mask s) :=
  enabled (next ⟨fun h => (State.touch_wf ..).trans (State.claimRead_wf h ..)⟩)

theorem deliverOr (s : State) (p : Msg → Bool) {other : Out} (h : s.Leads other) : s.Leads (s.deliverOr p other) := by
  unfold State.deliverOr
  split
  · next m t hm => exact next ((⟨fun hs => State.takeMsg_wf hs hm⟩ : s.Keeps t).trans (.onMsg ..))
  · exact h

theorem deliverMsg (s : State) (p : Msg → Bool) : s.Leads (s.deliverMsg p) := deliverOr s p (fault _)

theorem peerRecall (s : State) (line : Nat) (p : BitVec 3 → Bool) (left : Option (BitVec 3)) : s.Leads (s.peerRecall line p left) := by
  refine enabled (next ?_)
  cases left
  · exact .of_bytes rfl rfl
  · exact .of_bytes rfl rfl

theorem givesBack (s : State) (line : Nat) (p : Nat → Copy → Bool) : s.Leads (s.givesBack line p) := by
  unfold State.givesBack
  dsimp only
  split
  · exact next (.sendBack ..)
  · exact fault _

theorem execFwd (line : Nat) (s : State) : s.Leads (execFwd line s) := deliverOr _ _ (peerRecall ..)
theorem execFwdData (line : Nat) (s : State) : s.Leads (execFwdData line s) := deliverMsg ..
theorem execWbData (line : Nat) (s : State) : s.Leads (execWbData line s) := deliverOr _ _ (givesBack ..)
theorem execInv (agent line : Nat) (s : State) : s.Leads (execInv agent line s) := deliverOr _ _ (enabled (peerRecall ..))
theorem execInvAck (agent line : Nat) (s : State) : s.Leads (execInvAck agent line s) := deliverOr _ _ (givesBack ..)
theorem execData (agent line : Nat) (s : State) : s.Leads (execData agent line s) := deliverMsg ..
theorem execBinv (agent line : Nat) (s : State) : s.Leads (execBinv agent line s) := deliverOr _ _ (enabled (peerRecall ..))

theorem execDemand (line : Nat) (s : State) : s.Leads (execDemand line s) :=
  enabled (next ((Keeps.of_works (.writeBackAll ..)).trans (.of_bytes rfl rfl)))

theorem execDemandAck (line : Nat) (s : State) : s.Leads (execDemandAck line s) := by
  unfold Machine.execDemandAck
  split
  · exact fault _
  · refine next ?_
    split
    · exact .of_bytes rfl rfl
    · exact .of_bytes rfl rfl

theorem execEpochWriteback (core : Nat) (s : State) : s.Leads (execEpochWriteback core s) :=
  enabled (next ((Keeps.of_works (.writeBackAll ..)).trans (.of_bytes rfl rfl)))

theorem execTiledLineDrop (core line : Nat) (s : State) : s.Leads (execTiledLineDrop core line s) :=
  enabled (next ((Keeps.of_works (.purge ..)).trans (.of_works (.setCoreAt ..))))

theorem execPageFlipToHost (asid va : Nat) (s : State) : s.Leads (execPageFlipToHost asid va s) := by
  unfold Machine.execPageFlipToHost
  split
  · exact fault _
  · split
    · exact fault _
    · refine blocked (next ?_)
      refine Keeps.trans ?_ ((Keeps.clearLines ..).trans (.setHostPages ..))
      refine Keeps.trans (((Keeps.setLeafValid ..).trans (.unlease ..)).trans (.dropTlb ..)) (.iteProp ?_ (.refl _))
      exact Keeps.foldl (fun t i => .of_works (.plainTile ..)) _ _

end State.Leads

end Sys2Proof.Machine

/-! PROOFS. Memory in canonical form under the issue of an instruction (R104 to R109) and under what the host does (R367, R368, R458, R472,
R473, R479). -/

namespace Sys2Proof.Machine

namespace State.Keeps

theorem acquireResumed (s : State) : s.Keeps s.acquireResumed := by
  unfold State.acquireResumed
  exact ite ((of_mem (State.setGrp_mem ..)).trans (selfInvalidate ..)) (refl s)

theorem beginIssue (s : State) (stall : Nat) : s.Keeps (s.beginIssue stall) := by
  have h : s.Keeps (s.acquireResumed.leaveHolds (slotBit s.acquireResumed.slot)).atIssue :=
    (acquireResumed s).trans (of_mem (by simp))
  unfold State.beginIssue
  dsimp only
  split
  · exact h.trans (of_mem (by simp))
  · exact h.trans (of_mem (by simp))

end State.Keeps

namespace State.Leads
variable {s t : State} {o : Out}

theorem raise (s : State) (cls : Nat) (a b : Addr) : s.Leads (s.raise cls a b) := of_runs (.raise ..)

theorem execIllegalInstruction (w : Word) (s : State) : s.Leads (Machine.execIllegalInstruction w s) := enabled (raise ..)

/-- What comes after a change that leaves memory alone. -/
theorem mem (h : t.mem = s.mem) (k : t.Leads o) : s.Leads o := after (.of_mem h) k

/-- A state from which a part of the machine has acted, the executing split put back. -/
theorem atNext (h : s.Keeps t) (g k : Nat) : s.Leads (.next (t.at_ g k)) := next (h.trans (.at_ ..))

variable {run : Instr → State → Out} (hrun : ∀ (i : Instr) (t : State), t.Leads (run i t))
include hrun

theorem tested (s : State) (i : Instr) : s.Leads (s.tested i run) := by
  unfold State.tested
  split
  · exact of_runs (.compareForced s)
  · split
    · exact raise ..
    · split
      · exact raise ..
      · split
        · exact raise ..
        · exact hrun i s

theorem issue (s : State) : s.Leads (s.issue run) := by
  unfold State.issue
  split
  · refine after (.beginIssue s 0) ?_
    split
    · exact next (.of_mem (by simp))
    · exact raise ..
  · next w _ =>
    split
    · refine after (.beginIssue s (stallOf w)) ?_
      exact execIllegalInstruction ..
    · exact after (.beginIssue s (stallOf w)) (mem (State.noteSolid_mem ..) (tested hrun ..))

end State.Leads

namespace State.Leads

theorem runTorn (i : Instr) (s : State) : s.Leads (runTorn i s) := by
  unfold Machine.runTorn
  split
  · exact of_runs (.paired ..)
  · exact fault _

theorem execPairTorn (group va vb : Nat) (s : State) : s.Leads (execPairTorn group va vb s) := by
  unfold Machine.execPairTorn
  split
  · exact fault _
  · next k _ =>
    have h := issue runTorn (s.at_ group k)
    split
    · next t ht => exact atNext ((Keeps.at_ ..).trans ((h.keeps t ht).trans (.of_mem (by simp)))) ..
    · exact after (.at_ s group k) h

/-! The host. -/

theorem execMemRd (pa : Nat) (s : State) : s.Leads (execMemRd pa s) := by
  refine blocked (ite (fun _ => next (.answer ..)) fun _ => ite (fun _ => next ?_) fun _ => next ?_)
  · exact ((Keeps.of_works (.homeDieRead ..)).trans (.setHostState ..)).trans (.answer ..)
  · exact ((Keeps.settle ..).trans (.ite (.refl _) (.request ..))).trans (.answer ..)

theorem execMemWr (pa : Nat) (mask : BitVec 128) (bytes : BitVec 1024) (s : State) : s.Leads (execMemWr pa mask bytes s) :=
  blocked (ite (fun _ => next (.answer ..)) fun _ => next (.hostWrite ..))

theorem execSnpData (line : Nat) (s : State) : s.Leads (execSnpData line s) :=
  enabled (next (((Keeps.of_works (.homeDieRead ..)).trans (.setHostState ..)).trans (.answer ..)))

theorem execSnpInv (line : Nat) (s : State) : s.Leads (execSnpInv line s) :=
  enabled (next (((Keeps.settle ..).trans (.request ..)).trans (.ite (.answer ..) (.answerEmpty _))))

theorem execSnpCur (line : Nat) (s : State) : s.Leads (execSnpCur line s) := enabled (next (.answer ..))

theorem execHostBar2Access (isWrite : Bool) (pa bytes x : Nat) (s : State) : s.Leads (execHostBar2Access isWrite pa bytes x s) := by
  refine blocked (ite (fun _ => ite (fun _ => next (.answer ..)) fun _ => next (.hostWrite ..)) fun _ =>
    ite (fun _ => next (.answer ..)) fun _ => next ?_)
  exact (Keeps.of_works (.homeDieRead ..)).trans (.answer ..)

theorem execHostAtomicop (op pa bytes x y : Nat) (s : State) : s.Leads (execHostAtomicop op pa bytes x y s) := by
  unfold Machine.execHostAtomicop
  refine blocked (ite (fun _ => next (.answer ..)) fun _ => ?_)
  extract_lets m a b old operand c
  have ha : s.Keeps a := .ite (.of_works (.demand ..)) (.refl s)
  have hb : a.Keeps b := .of_works (.homeDieRead ..)
  have hc : b.Keeps c := .ite (.refl b) (.hostWrite ..)
  exact next (((ha.trans hb).trans hc).trans (.answer ..))

end State.Leads

end Sys2Proof.Machine

/-! PROOFS. Memory in canonical form under the engines: what starts and completes their commands, and what these write (R239 to R243, R247,
R254 to R261, R288 to R290, R320 to R333). -/

namespace Sys2Proof.Machine

namespace State.Keeps

theorem completeCmd (s : State) (ctx : Nat) (c : Cmd) : s.Keeps (s.completeCmd ctx c) := of_mem (State.completeCmd_mem ..)
theorem engineFault (s : State) (ctx : Nat) (c : Cmd) (detail : Nat) (a : DWord) : s.Keeps (s.engineFault ctx c detail a) :=
  of_mem (State.engineFault_mem ..)
theorem editCmd (s : State) (ctx num : Nat) (f : Cmd → Cmd) : s.Keeps (s.editCmd ctx num f) := of_mem (State.editCmd_mem ..)
theorem noteElement (s : State) (ctx num : Nat) (a : DWord) (n x : Nat) : s.Keeps (s.noteElement ctx num a n x) :=
  of_mem (State.noteElement_mem ..)
theorem writeBack (s : State) (core line : Nat) : s.Keeps (s.writeBack core line) := of_works (.writeBack ..)

theorem flushSource (s : State) (e : DWord × Nat) : s.Keeps (s.flushSource e) := by
  unfold State.flushSource
  split
  · extract_lets lines t
    have ht : s.Keeps t := (refill ..).trans (foldl (fun u l => writeBack u u.coreId l) _ _)
    exact ht.trans (ite (homeReads ..) (refl t))
  · exact refl s

theorem noting (s : State) (ctx num : Nat) (t : Target) (n x : Nat) {write : State → State} (h : ∀ u : State, u.Keeps (write u)) :
    s.Keeps (s.noting ctx num t n x write) := (h s).trans (of_mem (State.setTeam_mem ..))

theorem byEngine {act : State → State} (s : State) (h : s.Keeps (act s)) : s.Keeps (s.byEngine act) := by
  unfold State.byEngine
  dsimp only
  split
  · exact h
  · exact h.trans (of_mem (State.setRepl_mem ..))

theorem engineWrite (s : State) (ctx num : Nat) (a : DWord) (n x : Nat) : s.Keeps (s.engineWrite ctx num a n x) := by
  unfold State.engineWrite
  extract_lets u t
  have hu : s.Keeps u := noteElement ..
  clear_value t
  cases t with
  | scratch team off => exact hu.trans (noting _ _ _ _ _ _ fun v => storePlain ..)
  | memory leaf va pa =>
    dsimp only
    split
    · exact hu.trans (editCmd ..)
    · split
      · exact hu.trans (byEngine _ (noting _ _ _ _ _ _ fun v => storePlain ..))
      · exact hu.trans (noting _ _ _ _ _ _ fun v => writeHome ..)

theorem move (seen : State) (ctx num : Nat) (s : State) (m : Move) : s.Keeps (State.move seen ctx num s m) := by
  unfold State.move
  split
  · exact engineWrite ..
  · exact engineWrite ..

theorem clearing (s : State) (l : List Nat) : s.Keeps (s.clearing l) := of_bytes rfl rfl
theorem cleared (s : State) (l : List Nat) : s.Keeps (s.cleared l) := of_works (State.cleared_works ..)

theorem putOnce (s : State) (ctx num : Nat) (a : DWord) (n x : Nat) : s.Keeps (s.putOnce ctx num a n x) := by
  unfold State.putOnce
  extract_lets t
  refine noting _ _ _ _ _ _ fun u => ?_
  clear_value t
  cases t with
  | scratch team off => exact ite (foldl (fun v c => scratchWrite ..) _ u) (scratchWrite ..)
  | memory leaf va pa => exact writeHome ..

theorem combineMove (seen : State) (ctx num op : Nat) (s : State) (m : Move) : s.Keeps (State.combineMove seen ctx num op s m) := by
  unfold State.combineMove
  split
  · exact refl s
  · exact ((readHome ..).trans (noteElement ..)).trans (putOnce ..)

theorem sendElement (s : State) (c : Cmd) (a : DWord) (n x : Nat) : s.Keeps (s.sendElement c a n x) := by
  unfold State.sendElement
  extract_lets key u stays
  exact (noteElement ..).trans (ite (putOnce ..) (foldl (fun v k => putOnce ..) _ u))

theorem sendChunk (s : State) (c : Cmd) : s.Keeps (s.sendChunk c) := by
  unfold State.sendChunk
  extract_lets r n part dst w t
  have ht : s.Keeps t := ite (foldl (fun u k => (readHome ..).trans (sendElement ..)) _ s) (foldl (fun u e => sendElement ..) _ s)
  exact ht.trans (editCmd ..)

theorem meetCollective (s : State) (table : List Nat) : s.Keeps (s.meetCollective table) := of_mem (State.meetCollective_mem ..)

theorem takeLocks (s : State) (l : List (Nat × RangeLock)) : s.Keeps (s.takeLocks l) := of_mem (State.takeLocks_mem ..)

/-! A command that may have to wait (R239): where it starts, memory stays in canonical form. -/

theorem enter {s t : State} {ctx : Nat} {c : Cmd} {spans : List Span} (h : s.enter ctx c spans = some t) : s.Keeps t := by
  unfold State.enter at h
  extract_lets teams l at h
  split at h
  · cases h
    exact takeLocks ..
  · cases h

theorem startCollective {s t : State} {c : Cmd} (h : s.startCollective c = some t) : s.Keeps t := by
  unfold State.startCollective at h
  split at h
  · cases h
    exact engineFault ..
  · obtain ⟨u, hu, rfl⟩ := Option.map_eq_some_iff.mp h
    exact (((enter hu).trans (foldl flushSource _ u)).trans (editCmd ..)).trans (meetCollective ..)

theorem startMoves {s t : State} {ctx : Nat} {c : Cmd} (h : s.startMoves ctx c = some t) : s.Keeps t := by
  unfold State.startMoves at h
  extract_lets seen at h
  split at h
  · cases h
    exact (of_mem (State.noteRefused_mem ..)).trans (engineFault ..)
  · extract_lets reads plain at h
    split at h
    · cases h
      exact engineFault ..
    · split at h
      · cases h
        exact completeCmd ..
      · split at h
        · cases h
        · obtain ⟨u, hu, rfl⟩ := Option.map_eq_some_iff.mp h
          extract_lets whole v
          have hv : s.Keeps v := (((enter hu).trans (clearing ..)).trans (foldl flushSource _ _)).trans (editCmd ..)
          split
          · exact hv.trans (foldl (fun w m => combineMove ..) _ v)
          · exact (hv.trans (foldl (fun w m => move ..) _ v)).trans (ite (refl _) (cleared ..))

theorem startShade {s t : State} {c : Cmd} (h : s.startShade c = some t) : s.Keeps t := by
  unfold State.startShade at h
  extract_lets n cls tiles at h
  split at h
  · cases h
    exact completeCmd ..
  · split at h
    · cases h
    · split at h
      · split at h
        · split at h
          · cases h
            exact ((editCmd ..).trans (foldl (fun u t => foldl (fun v l => writeBack ..) _ u) _ _)).trans (engineFault ..)
          · cases h
            exact (((editCmd ..).trans (foldl (fun u t => foldl (fun v l => writeBack ..) _ u) _ _)).trans (editCmd ..)).trans
              (of_mem (State.setRepl_mem ..))
      · cases h
        exact (editCmd ..).trans (foldl (fun u t => of_works (.dropTile ..)) _ _)

theorem startOnce {s t : State} {ctx : Nat} {c : Cmd} {go : State → Option State} (hgo : ∀ u, go s = some u → s.Keeps u)
    (h : s.startOnce ctx c go = some t) : s.Keeps t := by
  unfold State.startOnce at h
  split at h
  · exact hgo t h
  · split at h
    · split at h
      · split at h
        · cases h
          exact completeCmd ..
        · cases h
      · split at h
        · cases h
        · cases h
          exact completeCmd ..
    · extract_lets l at h
      split at h
      · obtain ⟨u, hu, rfl⟩ := Option.map_eq_some_iff.mp h
        exact (hgo u hu).trans (foldl (fun v k => (((at_ ..).trans (editCmd ..)).trans (at_ ..))) _ u)
      · cases h

end State.Keeps

end Sys2Proof.Machine

/-! PROOFS. Memory in canonical form under the start and the completion of commands, under the arrival of results, and under what the units of
a core do (R71, R89, R112, R128, R220, R239, R253 to R260, R288, R439). -/

namespace Sys2Proof.Machine

namespace State.Keeps

/-- Acts that may each find no place, one after the other. -/
theorem foldl_bind {α : Type} {l : List α} {f : α → State → Option State} (hf : ∀ k u v, f k u = some v → u.Keeps v) {s t : State} :
    ∀ {r : Option State}, (∀ u, r = some u → s.Keeps u) → l.foldl (fun r k => r.bind (f k)) r = some t → s.Keeps t := by
  induction l with
  | nil => exact fun hr h => hr t h
  | cons k l ih =>
    refine fun hr h => ih (fun v hv => ?_) h
    obtain ⟨u, hu, hk⟩ := Option.bind_eq_some_iff.mp hv
    exact (hr u hu).trans (hf k u v hk)

theorem startTogether {s t : State} {c : Cmd} (h : s.startTogether c = some t) : s.Keeps t := by
  unfold State.startTogether at h
  split at h
  · exact startShade h
  · split at h
    · split at h
      · split at h
        · exact startShade h
        · cases h
      · split at h
        · cases h
        · exact startShade h
    · extract_lets l next at h
      split at h
      · refine foldl_bind (fun k u v hk => ?_) (fun u hu => startShade hu) h
        split at hk
        · obtain ⟨w, hw, rfl⟩ := Option.map_eq_some_iff.mp hk
          exact ((at_ ..).trans (startShade hw)).trans (at_ ..)
        · cases hk
          exact refl u
      · cases h

theorem startCommand {s t : State} {ctx : Nat} {c : Cmd} (h : s.startCommand ctx c = some t) : s.Keeps t := by
  unfold State.startCommand at h
  split at h
  · cases h
  · split at h
    · exact startTogether h
    · split at h
      · cases h
        exact of_mem (State.startPeer_mem ..)
      · exact startOnce (fun u hu => startMoves hu) h
      · exact startOnce (fun u hu => startCollective hu) h
      · exact startOnce (fun u hu => startCollective hu) h
      · exact startOnce (fun u hu => startCollective hu) h
      · exact startOnce (fun u hu => startCollective hu) h
      · exact startMoves h

theorem shadeStep {s t : State} {c : Cmd} (h : s.shadeStep c = some t) : s.Keeps t := by
  unfold State.shadeStep at h
  split at h
  · cases h
  · extract_lets a at h
    split at h
    · cases h
      exact engineFault ..
    · cases h
      exact completeCmd ..
    · split at h
      · cases h
      · extract_lets u at h
        have hu : s.Keeps u := (of_works (.shadeTile ..)).trans (editCmd ..)
        cases h
        exact hu.trans (iteProp (refl u) (completeCmd ..))

end State.Keeps

namespace State.Leads

/-! The engines. -/

theorem execEngineCommandStart (team ctx : Nat) (s : State) : s.Leads (execEngineCommandStart team ctx s) := by
  unfold Machine.execEngineCommandStart
  split
  · exact fault _
  · next c _ =>
    dsimp only
    split
    · next u hu =>
      refine atNext ((Keeps.at_ s c.gid c.slot).trans ?_) ..
      split at hu
      · cases hu
      · cases hu
        exact .completeCmd ..
      · split at hu
        · cases hu
        · split at hu
          · cases hu
            exact .completeCmd ..
          · exact .startCommand hu
    · exact fault _

theorem execEngineCommandComplete (team ctx num : Nat) (s : State) : s.Leads (execEngineCommandComplete team ctx num s) := by
  unfold Machine.execEngineCommandComplete
  split
  · exact fault _
  · next c _ =>
    extract_lets t
    have ht : s.Keeps t := .at_ ..
    split
    · split
      · next u hu => exact atNext (ht.trans (.shadeStep hu)) ..
      · exact fault _
    · refine blocked (atNext (ht.trans ((Keeps.completeCmd t ctx c).trans (.ite (.foldl (fun u k => ?_) _ _) (.refl _)))) ..)
      split
      · exact (Keeps.at_ ..).trans (.completeCmd ..)
      · exact .refl u

theorem execCollectiveChunkBoundary (die : Nat) (s : State) : s.Leads (execCollectiveChunkBoundary die s) := by
  unfold Machine.execCollectiveChunkBoundary
  split
  · exact fault _
  · exact atNext ((Keeps.at_ ..).trans (.sendChunk ..)) ..

theorem execGuardResolve (team ctx : Nat) (s : State) : s.Leads (execGuardResolve team ctx s) := by
  unfold Machine.execGuardResolve
  dsimp only
  split
  · exact fault _
  · exact enabled (atNext (.of_mem (by simp)) ..)

theorem execPeerAdd (idx : Nat) (s : State) : s.Leads (execPeerAdd idx s) := by
  unfold Machine.execPeerAdd
  split
  · exact fault _
  · exact blocked (ite (fun _ => atNext (.of_mem (by simp)) ..) fun _ => atNext (.of_mem (by simp)) ..)

theorem execMatrixEngineAccept (core : Nat) (s : State) : s.Leads (execMatrixEngineAccept core s) := by
  unfold Machine.execMatrixEngineAccept
  split
  · exact fault _
  · exact atNext (.of_mem (by simp)) ..

/-! Bins (R69 to R71). -/

theorem execBinTimerExpiry (core bin : Nat) (s : State) : s.Leads (execBinTimerExpiry core bin s) := enabled (next (.startOrWait ..))
theorem execBinGroupStart (core bin : Nat) (s : State) : s.Leads (execBinGroupStart core bin s) := enabled (next (.startBin ..))

theorem execSpawnResume (group slot : Nat) (s : State) : s.Leads (execSpawnResume group slot s) := by
  unfold Machine.execSpawnResume
  dsimp only
  split
  · next left entry g _ =>
    refine enabled (atNext ?_ ..)
    exact ((Keeps.at_ s group slot).trans (.placeThreads entry g left _)).trans (.ite (.of_mem (by simp)) (.of_mem (by simp)))
  · exact fault _

/-! Results, faults and the fetch (R89, R109, R112, R220, R439, R443). -/

theorem execVariableLatencyResult (group : Nat) (tseq : Word) (s : State) : s.Leads (execVariableLatencyResult group tseq s) := by
  unfold Machine.execVariableLatencyResult
  dsimp only
  split
  · exact fault _
  · refine blocked (atNext (.of_mem ?_) ..)
    split
    · simp
    · simp

theorem execDeferredFault (group slot : Nat) (tseq : Word) (cls : Nat) (a b : Addr) (s : State) :
    s.Leads (execDeferredFault group slot tseq cls a b s) := by
  unfold Machine.execDeferredFault
  dsimp only
  split
  · exact fault _
  · refine blocked (atNext (.of_mem ?_) ..)
    split
    · simp
    · simp

theorem execLostResult (group : Nat) (tseq : Word) (s : State) : s.Leads (execLostResult group tseq s) := by
  unfold Machine.execLostResult
  split
  · exact execDeferredFault ..
  · exact fault _

theorem execSafePointDistance (group slot : Nat) (s : State) : s.Leads (execSafePointDistance group slot s) := by
  unfold Machine.execSafePointDistance
  dsimp only
  split
  · exact fault _
  · next w _ =>
    split
    · exact fault _
    · refine enabled ?_
      exact atNext (((Keeps.at_ s group slot).trans (.beginIssue _ (stallOf w))).trans (.of_mem (State.fault_mem ..))) ..

theorem execSplitUrgent (group slot : Nat) (s : State) : s.Leads (execSplitUrgent group slot s) :=
  enabled (atNext (.of_mem (by simp)) ..)

theorem execInstructionFetch (group slot : Nat) (s : State) : s.Leads (execInstructionFetch group slot s) := by
  unfold Machine.execInstructionFetch
  refine blocked ?_
  split
  · exact atNext (.of_mem (by simp)) ..
  · exact fault _

theorem execMshrRetry (core idx : Nat) (s : State) : s.Leads (execMshrRetry core idx s) := by
  unfold Machine.execMshrRetry
  dsimp only
  split
  · exact fault _
  · exact blocked (ite (fun _ => next (.of_mem (State.setMiss_mem ..))) fun _ => next (.of_mem (State.setMiss_mem ..)))

theorem execMshrAged (core idx : Nat) (s : State) : s.Leads (execMshrAged core idx s) := by
  unfold Machine.execMshrAged
  dsimp only
  split
  · exact fault _
  · exact enabled (next (.of_mem (State.setMiss_mem ..)))

theorem execAtomicopCompletion (group : Nat) (tseq : Word) (ok : Bool) (s : State) : s.Leads (execAtomicopCompletion group tseq ok s) := by
  unfold Machine.execAtomicopCompletion
  split
  · exact fault _
  · next o _ =>
    extract_lets host a t
    have ht : s.Keeps t := .of_mem rfl
    split
    · exact atNext (ht.trans (.of_mem (State.failGrid_mem ..))) ..
    · have hr := Keeps.hostRmw o.op o.bytes o.lanes t
      split
      next u olds hu =>
      rw [hu] at hr
      extract_lets back b c regs failed d
      have hb : u.Keeps b := by
        simp only [b]
        split
        · exact .of_mem (State.endEntry_mem ..)
        · exact .refl u
      have hc : b.Keeps c := by
        simp only [c]
        split
        · exact .iteProp (.selfInvalidate ..) (.refl b)
        · exact .refl b
      have h : s.Keeps c := ((ht.trans hr).trans hb).trans hc
      exact ite (fun _ => atNext h ..) fun _ =>
        atNext (h.trans ((Keeps.of_mem (State.setRegs_mem ..)).trans (.ite (.of_mem (State.markDemotes_mem ..)) (.refl d)))) ..

end State.Leads

end Sys2Proof.Machine

/-! PROOFS. Memory in canonical form under the life of launches and clusters (R28, R42 to R60, R65, R415, R444 to R449, R455, R456). -/

namespace Sys2Proof.Machine

namespace State.Leads

/-! The host's registers and the queues (R42 to R44, R459). -/

theorem execQctlWrite (q : Nat) (v : Word) (s : State) : s.Leads (execQctlWrite q v s) := by
  refine blocked ?_
  extract_lets x v cfg
  refine ite (fun _ => ite (fun _ => next (.of_mem rfl)) fun _ => next (.of_mem rfl)) fun _ =>
    ite (fun _ => next (.of_mem rfl)) fun _ => ite (fun _ => next (.of_mem rfl)) fun _ => next (.of_mem rfl)

theorem execQbaseWrite (q : Nat) (v : DWord) (s : State) : s.Leads (execQbaseWrite q v s) :=
  blocked (ite (fun _ => next (.of_mem rfl)) fun _ => ite (fun _ => next (.refl s)) fun _ => next (.of_mem rfl))

theorem execQtailDoorbell (q : Nat) (v : Word) (s : State) : s.Leads (execQtailDoorbell q v s) :=
  blocked (ite (fun _ => next (.of_mem rfl)) fun _ => ite (fun _ => next (.of_mem rfl)) fun _ => next (.of_mem rfl))

theorem execQstatClear (q : Nat) (v : Word) (s : State) : s.Leads (execQstatClear q v s) := blocked (next (.of_mem rfl))

theorem execRegisterWrite (off : Nat) (v : DWord) (s : State) : s.Leads (execRegisterWrite off v s) := by
  unfold Machine.execRegisterWrite
  refine ite (fun _ => next (.of_mem rfl)) fun _ => ite (fun _ => ?_) fun _ =>
    ite (fun _ => next (.refl s)) fun _ => enabled (next (.of_mem rfl))
  dsimp only
  split
  · exact execQbaseWrite ..
  · exact execQctlWrite ..
  · exact execQtailDoorbell ..
  · exact execQstatClear ..
  · exact next (.refl s)

theorem execImageLoad (asid place : Nat) (s : State) : s.Leads (execImageLoad asid place s) := next (.of_mem rfl)

theorem execRecordRead (s : State) : s.Leads (execRecordRead s) := by
  unfold Machine.execRecordRead
  split
  · exact fault _
  · dsimp only
    split
    · exact next (.of_mem rfl)
    · refine next (Keeps.trans ?_ (.submit ..))
      exact .of_mem rfl

theorem execLaunchArbitration (s : State) : s.Leads (execLaunchArbitration s) := by
  unfold Machine.execLaunchArbitration
  extract_lets t ready
  refine blocked ?_
  split
  · exact fault _
  · exact blocked (next (.of_mem rfl))

theorem execLaunchAgeRise (grid : Nat) (s : State) : s.Leads (execLaunchAgeRise grid s) := enabled (next (.of_mem rfl))

end State.Leads

namespace State.Keeps

theorem setGridAt (s : State) (k : Nat) (g : Grid) : s.Keeps (s.setGridAt k g) := of_mem rfl
theorem setClusterAt (s : State) (k : Nat) (c : Cluster) : s.Keeps (s.setClusterAt k c) := of_mem rfl
theorem setTeamAt (s : State) (k : Nat) (t : Team) : s.Keeps (s.setTeamAt k t) := of_mem rfl
theorem setCoreAt (s : State) (k : Nat) (c : CoreState) : s.Keeps (s.setCoreAt k c) := of_mem rfl
theorem putTlb (s : State) (g : Nat) (l : List TlbEntry) : s.Keeps (s.putTlb g l) := of_works (.putTlb ..)

theorem rejectGrid (s : State) (g code : Nat) : s.Keeps (s.rejectGrid g code) := (setGridAt ..).trans (finishRecord ..)

theorem startTeam (c : Nat) (g : Grid) (s : State) (e : Nat × Nat) : s.Keeps (s.startTeam c g e) := by
  unfold State.startTeam
  extract_lets team t u v
  exact ((selfInvalidate s e.1).trans (of_mem (t := v) rfl)).trans (of_works (.keepFirst ..))

theorem startCluster (s : State) (grid replica origin : Nat) (act : Activity) (cores : List Nat) :
    s.Keeps (s.startCluster grid replica origin act cores) := by
  have h : ∀ t : State, t.mem = s.mem → s.Keeps ((cores.zipIdx).foldl (State.startTeam s.cp.nextCluster (s.gridAt grid)) t) :=
    fun t ht => (of_mem ht).trans (foldl (startTeam _ _) _ t)
  exact h _ rfl

theorem reap (s : State) (g : Nat) : s.Keeps (s.reap g) := by
  unfold State.reap
  exact ite (((at_ s g 0).trans (endGroup _)).trans (at_ ..)) (refl s)

theorem reapGrid (s : State) (grid : Nat) : s.Keeps (s.reapGrid grid) := foldl reap _ s

theorem cancel (s : State) (grid status detail : Nat) : s.Keeps (s.cancel grid status detail) := by
  unfold State.cancel
  dsimp only
  split
  · exact refl s
  · split
    · exact ((setGridAt ..).trans (dropTlb ..)).trans (finishRecord ..)
    · exact ((setGridAt ..).trans (of_mem (State.discardCommands_mem ..))).trans (reapGrid ..)

theorem cancelToken (s : State) (token : Word) : s.Keeps (s.cancelToken token) :=
  ite (refl s) (foldl (fun t e => cancel ..) _ s)

theorem commitBuffers (s : State) (grid : Nat) : s.Keeps (s.commitBuffers grid) :=
  (of_works (State.performBuffers_works s grid)).trans (foldl (fun t k => setTeamAt ..) _ _)

theorem writeBackDirty (s : State) (core : Nat) : s.Keeps (s.writeBackDirty core) := of_works (.writeBackDirty ..)

theorem saveCluster (s : State) (c area : Nat) : s.Keeps (s.saveCluster c area) := by
  unfold State.saveCluster
  extract_lets teams a b d e f
  have ha : s.Keeps a := foldl (fun t k => writeBackDirty ..) _ s
  have hd : a.Keeps d := (of_mem (State.dropShadows_mem ..)).trans (foldl (fun t k => of_mem (State.holdTeam_mem ..)) _ b)
  have he : d.Keeps e := physWriteRun ..
  exact ((ha.trans hd).trans he).trans (of_mem (by simp [f]))

theorem parkCluster (s : State) (c area : Nat) : s.Keeps (s.parkCluster c area) :=
  (physWriteRun ..).trans ((of_mem (State.settleCluster_mem ..)).trans (setClusterAt ..))

theorem admitCluster {s t : State} {grid : Nat} {act : Activity} {places : List Nat} (h : s.admitCluster grid act places = some t) :
    s.Keeps t := by
  unfold State.admitCluster at h
  extract_lets g at h
  split at h
  · obtain ⟨u, hu, rfl⟩ := Option.map_eq_some_iff.mp h
    refine Keeps.trans (foldl_bind (fun e v w hw => ?_) (fun v hv => ?_) hu) (setGridAt ..)
    · obtain ⟨cores, -, rfl⟩ := Option.map_eq_some_iff.mp hw
      exact startCluster ..
    · cases hv
      exact refl s
  · cases h

theorem admitClusters {n copies grid : Nat} {places : List Nat} {s t : State} (h : State.admitClusters n copies grid places s = some t) :
    s.Keeps t := by
  induction n generalizing places s with
  | zero => cases h; exact refl _
  | succ n ih =>
    unfold State.admitClusters at h
    split at h
    · next u hu => exact (admitCluster hu).trans (ih h)
    · cases h

theorem resumeCluster {s t : State} {c origin : Nat} (h : s.resumeCluster c origin = some t) : s.Keeps t := by
  unfold State.resumeCluster at h
  dsimp only at h
  split at h
  · cases h
  · split at h
    · cases h
    · cases h
      exact of_mem ((State.reactivate_mem ..).trans (State.foldl_mem (fun _ _ => by rfl) _ s))

theorem placeBins {c : Nat} {l : List (Nat × Nat × Bin)} {s t : State} (h : s.placeBins c l = some t) : s.Keeps t := by
  induction l generalizing s with
  | nil => cases h; exact refl _
  | cons e l ih =>
    obtain ⟨pos, k, b⟩ := e
    unfold State.placeBins at h
    dsimp only at h
    split at h
    · exact (of_mem (State.setBin_mem ..)).trans (ih h)
    · cases h

end State.Keeps

namespace State.Leads

theorem execLeaseInstall (grid : Nat) (s : State) : s.Leads (execLeaseInstall grid s) := by
  unfold Machine.execLeaseInstall
  extract_lets u g
  have hu : s.Keeps u := .of_mem rfl
  refine blocked ?_
  split
  · exact next (hu.trans (.rejectGrid ..))
  · split
    · exact next (hu.trans (.rejectGrid ..))
    · exact fault _
    · refine next (hu.trans ?_)
      refine ((Keeps.foldl (fun v e => ?_) _ u).trans (.foldl (fun v d => .foldl (fun w k => .putTlb ..) _ v) _ _)).trans (.setGridAt ..)
      exact .ite (.refl v) ((Keeps.setHostPages ..).trans (.ite (.setLeafValid ..) (.refl _)))

theorem execClusterAdmit (grid : Nat) (places : List Nat) (s : State) : s.Leads (execClusterAdmit grid places s) := by
  unfold Machine.execClusterAdmit
  refine blocked ?_
  split
  · next t ht => exact next (.admitClusters ht)
  · split
    · next t ht =>
      split at ht
      · cases ht
      · exact next (.admitCluster ht)
    · exact fault _

theorem execPreemptRequest (cluster : Nat) (park : Bool) (s : State) : s.Leads (execPreemptRequest cluster park s) :=
  blocked (next (.foldl (fun t c => .setClusterAt ..) _ s))

theorem execPreemptWithdraw (cluster : Nat) (s : State) : s.Leads (execPreemptWithdraw cluster s) := by
  unfold Machine.execPreemptWithdraw
  dsimp only
  split
  · exact fault _
  · exact blocked (next (.foldl (fun t k => (Keeps.setClusterAt ..).trans (.of_mem (State.goOn_mem ..))) _ s))

theorem execClusterPreempt (cluster area : Nat) (s : State) : s.Leads (execClusterPreempt cluster area s) := by
  unfold Machine.execClusterPreempt
  refine blocked (next ?_)
  exact Keeps.foldl_pair (f := fun a c => (a.1.saveCluster c a.2, a.2 + (a.1.clusterBytes c).length))
    (fun x c => .saveCluster x.1 c x.2) _ (s, area)

theorem execClusterPark (cluster area : Nat) (s : State) : s.Leads (execClusterPark cluster area s) := by
  unfold Machine.execClusterPark
  refine blocked (next ?_)
  exact Keeps.foldl_pair (f := fun a c => (a.1.parkCluster c a.2, a.2 + (a.1.parkBytes c).length))
    (fun x c => .parkCluster x.1 c x.2) _ (s, area)

theorem execClusterUnpark (cluster : Nat) (s : State) : s.Leads (execClusterUnpark cluster s) := by
  unfold Machine.execClusterUnpark
  refine blocked ?_
  split
  · next t ht =>
    refine next (.foldl_bind (fun c u v hv => ?_) (fun u hu => ?_) ht)
    · split at hv
      · cases hv
        exact .of_mem (State.reactivate_mem ..)
      · cases hv
    · cases hu
      exact .refl s
  · exact fault _

theorem execClusterResume (cluster place : Nat) (s : State) : s.Leads (execClusterResume cluster place s) := by
  unfold Machine.execClusterResume
  refine blocked ?_
  split
  · next t ht =>
    refine next (.foldl_bind (fun e u v hv => ?_) (fun u hu => ?_) ht)
    · obtain ⟨w, hw, hb⟩ := Option.bind_eq_some_iff.mp hv
      exact (Keeps.resumeCluster hw).trans (.placeBins hb)
    · cases hu
      exact .refl s
  · exact fault _

theorem execClusterEnd (cluster : Nat) (s : State) : s.Leads (execClusterEnd cluster s) := by
  unfold Machine.execClusterEnd
  extract_lets x g teams mine a b c d
  have ha : s.Keeps a := .of_mem (State.discardUnverified_mem ..)
  have hb : a.Keeps b := .foldl (fun t k => .of_works (.writeBackAll ..)) _ a
  have hc : b.Keeps c := .of_mem (State.dropShadows_mem ..)
  exact blocked (next (((ha.trans hb).trans hc).trans (.of_mem rfl)))

theorem execGridRetire (grid : Nat) (s : State) : s.Leads (execGridRetire grid s) := by
  unfold Machine.execGridRetire
  extract_lets g l a h det b
  have ha : s.Keeps a := .ite (.commitBuffers ..) (.refl s)
  have hb : a.Keeps b := .setGridAt ..
  exact blocked (next ((ha.trans hb).trans ((Keeps.dropTlb ..).trans (.finishRecord ..))))

theorem execSnuffCancel (token : Word) (s : State) : s.Leads (execSnuffCancel token s) := by
  refine enabled (next (Keeps.trans ?_ (.cancelToken ..)))
  exact .of_mem rfl

theorem execNonFiniteTrap (group : Nat) (s : State) : s.Leads (execNonFiniteTrap group s) := by
  unfold Machine.execNonFiniteTrap
  extract_lets t grid g token ends n cp a d
  have ht : s.Keeps t := .at_ ..
  split
  · exact fault _
  · refine blocked ?_
    extract_lets b c e f h i
    have hends (u : State) : u.Keeps (ends u) := by
      refine .foldl (fun v k => ?_) _ u
      exact (Keeps.at_ v k 0).trans (.ite ((Keeps.of_mem (State.setGrp_mem ..)).trans (.endGroup _)) (.refl _))
    have ha : t.Keeps (a.logGroup 0x000F token (BitVec.ofNat 64 n)) := .of_mem (State.logGroup_mem ..)
    have hf : t.Keeps f := .of_mem (by simp [f, e, c, b])
    exact ite (fun _ => atNext ((ht.trans ha).trans (hends _)) ..) fun _ =>
      atNext (((ht.trans hf).trans (hends f)).trans ((Keeps.cancel ..).trans (.cancelToken ..))) ..

end State.Leads

end Sys2Proof.Machine

/-! PROOFS. Memory in canonical form under compares and rendezvous of replicas, the serial phase, and what Lamplighter does (R369 to R371,
R377 to R388, R393, R462 to R468). -/

namespace Sys2Proof.Machine

namespace State.Keeps

theorem checkpoint (s : State) (c : Context) (skip : Bool) : s.Keeps (s.checkpoint c skip) :=
  (of_mem (State.setRepl_mem ..)).trans (keepCheckpoint _)

theorem matched (s : State) (g : Nat) : s.Keeps (s.matched g) := by
  unfold State.matched
  extract_lets a r before b grp c spl d after
  have hd : s.Keeps d := by
    have hc : s.Keeps c := by
      simp only [c]
      split
      · exact of_mem (by simp [b, a])
      · exact of_mem (by simp [b, a])
    exact hc.trans (of_mem (State.setSpl_mem ..))
  have hafter {o : Out} (h : d.Runs o) : d.Keeps (after o) := by
    obtain ⟨t, rfl, ht⟩ := h
    exact (ht.trans (of_mem (State.settleGroup_mem t))).trans (ite (checkpoint ..) (refl _))
  refine hd.trans ?_
  split
  · exact hafter (Runs.execExit ..)
  · exact hafter (Runs.execSafe ..)
  · exact hafter (.compareFirst rfl _ (.done (refl d)))
  · exact checkpoint ..

theorem shadeAll (op : Instr) (ops : List DWord) (cls : Nat) (tseq : Word) (l : List Nat) (s : State) :
    s.Keeps (s.shadeAll op ops cls tseq l) := by
  induction l generalizing s with
  | nil => exact refl s
  | cons i l ih =>
    unfold State.shadeAll
    dsimp only
    split
    · split
      · exact (of_works (.shadeTile ..)).trans (ih _)
      · exact refl s
    · exact of_mem (State.failGrid_mem ..)
    · exact refl s

theorem performHeld (s : State) (w : HeldWrite) : s.Keeps (s.performHeld w) := by
  unfold State.performHeld
  extract_lets a
  have ha : s.Keeps a := foldl (fun t x => of_works (.dropTile ..)) _ s
  refine ha.trans ?_
  split
  · exact shadeAll ..
  · split
    · exact foldl (fun t e => (of_works (.purge ..)).trans (of_works (.physWrite ..))) _ a
    · exact foldl (fun t e => of_works (.tileWrite ..)) _ a
    · exact ite (pairTorn ..) (pairCommit ..)

theorem performWrites (s : State) (lead : Nat) (l : List Nat) : s.Keeps (s.performWrites lead l) := by
  unfold State.performWrites
  extract_lets old held lines a
  have ha : s.Keeps a := ((of_mem (State.atReplica_mem ..)).trans (foldl performHeld _ _)).trans (cleared ..)
  refine (ha.trans (foldl (fun t g => ?_) _ a)).trans (at_ ..)
  exact (of_mem (State.setReplAt_mem ..)).trans (of_mem (State.forgetShadows_mem ..))

theorem passLead (s : State) (l : List Nat) (old new : Nat) : s.Keeps (s.passLead l old new) := by
  unfold State.passLead
  extract_lets a core c kept b n x d e
  have hb : s.Keeps b := (writeBackDirty ..).trans (setCoreAt ..)
  have hd : b.Keeps d := of_mem rfl
  have he : d.Keeps e := foldl (fun t g => of_mem (State.setReplAt_mem ..)) _ d
  exact ((hb.trans hd).trans he).trans (of_mem (State.promote_mem ..))

theorem reseed (s : State) (l : List Nat) (out from_ : Nat) (sig : DWord) : s.Keeps (s.reseed l out from_ sig) := by
  unfold State.reseed
  extract_lets old a b c d e r
  have ha : s.Keeps a := of_mem (by simp [a])
  have hb : a.Keeps b := ite (passLead ..) (refl a)
  have hc : b.Keeps c := of_mem (by simp [c])
  have he : c.Keeps e := (selfInvalidate ..).trans (writeBackDirty ..)
  refine ((ha.trans hb).trans (hc.trans he)).trans (ite (((at_ ..).trans (endGroup _)).trans (at_ ..)) ?_)
  split
  · exact refl e
  · exact of_mem (by simp)

theorem decideCompare (s : State) (l : List Nat) (sigs : List (Nat × DWord)) : s.Keeps (s.decideCompare l sigs) := by
  unfold State.decideCompare
  split
  · exact of_mem (State.mismatch_mem ..)
  · extract_lets out a b
    have ha : s.Keeps a := foldl (fun t g => (matched t g).trans (at_ ..)) _ s
    have hb : a.Keeps b := foldl (fun t g => reseed ..) _ a
    exact (ha.trans hb).trans (performWrites ..)

theorem recallGrid (s : State) (grid line : Nat) : s.Keeps (s.recallGrid grid line) := of_works (State.recallGrid_works ..)

/-! Lamplighter. -/

theorem endGrid (s : State) (grid detail : Nat) : s.Keeps (s.endGrid grid detail) := of_mem (State.endGrid_mem ..)
theorem logDevice (s : State) (kind : Nat) (a : Word) (b : DWord) : s.Keeps (s.logDevice kind a b) := of_mem (State.logDevice_mem ..)

theorem loseHolder (s : State) (die : Nat) : s.Keeps (s.loseHolder die) := by
  refine foldl (f := State.loseLine die) (fun t e => ?_) _ s
  have ht : t.Keeps (State.settle 64 e.1 t) := settle ..
  unfold State.loseLine
  extract_lets u d v w
  refine ht.trans (ite (refl u) (ite (of_bytes rfl rfl) ?_))
  have hv : u.Keeps v := of_bytes rfl rfl
  have hw : v.Keeps w := ite ⟨fun h => State.merge_wf h ..⟩ (refl v)
  exact (hv.trans hw).trans (of_bytes rfl rfl)

theorem salvage (s : State) (die : Nat) : s.Keeps (s.salvage die) := by
  have hwrite (base : Nat) (l : List (Orphan × Nat)) (t : State) : t.Keeps (l.foldl (State.writeOrphan base) t) :=
    foldl (fun u e => physWriteRun ..) l t
  unfold State.salvage
  extract_lets l mem t n
  have ht : s.Keeps t := of_bytes rfl rfl
  refine ht.trans ?_
  split
  · exact ite (refl t) (logDevice ..)
  · split
    · exact trans (trans (hwrite ..) (logDevice ..)) (logDevice ..)
    · exact trans (hwrite ..) (logDevice ..)

/-- The state after a reset has its memory in canonical form. -/
theorem reset {s t : State} (h : t.mem = State.reset.mem) : s.Keeps t :=
  ⟨fun _ => (State.memoryWf_of_mem (s := State.reset) (congrArg _ h) (congrArg _ h)).trans rfl⟩
theorem shutdown (s : State) : s.Keeps s.shutdown := of_mem (State.shutdown_mem s)

end State.Keeps

namespace State.Leads

theorem execReplicaSig (group : Nat) (s : State) : s.Leads (execReplicaSig group s) := enabled (atNext (.decideCompare ..) ..)

theorem execCompareTimeout (group : Nat) (s : State) : s.Leads (execCompareTimeout group s) := enabled (next (.of_mem (State.mismatch_mem ..)))
theorem execRendezvousTimeout (group : Nat) (s : State) : s.Leads (execRendezvousTimeout group s) :=
  enabled (next (.of_mem (State.mismatch_mem ..)))
theorem execLdaForwardTimeout (group : Nat) (s : State) : s.Leads (execLdaForwardTimeout group s) :=
  enabled (next (.of_mem (State.mismatch_mem ..)))

theorem execRendezvousOperands (group : Nat) (s : State) : s.Leads (execRendezvousOperands group s) := by
  unfold Machine.execRendezvousOperands
  refine blocked ?_
  split
  · exact next (.of_mem (State.mismatch_mem ..))
  · exact next ((Keeps.foldl (fun t g => .reseed ..) _ s).trans (.of_mem (State.setReplAt_mem ..)))

theorem execReplicaNotice (core line : Nat) (s : State) : s.Leads (execReplicaNotice core line s) := by
  unfold Machine.execReplicaNotice
  extract_lets c clean mem t u
  have hu : s.Keeps u := .of_bytes rfl rfl
  refine enabled (next (hu.trans (.foldl (fun v e => ?_) _ u)))
  unfold State.cleanShadow
  exact .ite (.refl v) (.of_works (.setL1 ..))

theorem execReplicaResult (group : Nat) (s : State) : s.Leads (execReplicaResult group s) := by
  unfold Machine.execReplicaResult
  dsimp only
  split
  · exact fault _
  · exact next (.of_mem (State.setReplAt_mem ..))
  · exact next (.of_mem (State.setReplAt_mem ..))

theorem execPeriodEnd (group : Nat) (s : State) : s.Leads (execPeriodEnd group s) := enabled (next (.refl s))

theorem execSerialPhase (grid : Nat) (s : State) : s.Leads (execSerialPhase grid s) := by
  unfold Machine.execSerialPhase
  extract_lets g live by_ asked a b
  have ha : s.Keeps a := .foldl (fun t l => .recallGrid ..) _ s
  have hb : a.Keeps b := .commitBuffers ..
  refine blocked (next ((ha.trans hb).trans ?_))
  exact .of_mem rfl

theorem execDieFailure (die : Nat) (s : State) : s.Leads (execDieFailure die s) := by
  unfold Machine.execDieFailure
  refine blocked ?_
  extract_lets a hit b mem c d e lamp f
  have ha : s.Keeps a := .of_mem (State.logAt_mem ..)
  have hb : a.Keeps b := .foldl (fun t g => .endGrid ..) _ a
  have hc : b.Keeps c := .of_bytes rfl rfl
  have he : c.Keeps e := (Keeps.loseHolder ..).trans (.salvage ..)
  have hf : e.Keeps f := .of_mem rfl
  exact next ((((ha.trans hb).trans hc).trans (he.trans hf)).trans (.of_mem (State.setService_mem ..)))

theorem execPeerUnreachable (peer : Nat) (s : State) : s.Leads (execPeerUnreachable peer s) := by
  unfold Machine.execPeerUnreachable
  extract_lets a lamp b
  have hb : s.Keeps b := .of_mem rfl
  exact blocked (next (hb.trans (.foldl (fun t e => ((Keeps.at_ ..).trans (.engineFault ..)).trans (.at_ ..)) _ b)))

theorem execPageRetire (pa errors : Nat) (s : State) : s.Leads (execPageRetire pa errors s) := blocked (next (.of_mem rfl))

theorem execSensorLimit (sensor die : Nat) (s : State) : s.Leads (execSensorLimit sensor die s) := by
  unfold Machine.execSensorLimit
  extract_lets all
  have hall (up : Bool) : s.Keeps (all up) := .foldl (fun t d => .of_mem (State.clockStep_mem ..)) _ s
  have hstep (t : State) (k : Nat) (up : Bool) (h : s.Keeps t) : s.Leads (.next (t.clockStep k die up)) :=
    next (h.trans (.of_mem (State.clockStep_mem ..)))
  have hhalve (k : Nat) (hot : Bool) : s.Keeps (s.halve k hot) := .of_mem (State.halve_mem ..)
  refine blocked ?_
  split
  · exact next (hall _)
  · exact hstep _ _ _ (.refl s)
  · exact next (.shutdown s)
  · exact hstep _ _ _ (hhalve ..)
  · exact hstep _ _ _ (hhalve ..)
  · exact next (.shutdown s)
  · exact next (hall _)
  · exact hstep _ _ _ (.refl s)
  · exact hstep _ _ _ (hhalve ..)
  · exact hstep _ _ _ (hhalve ..)
  · exact fault _

theorem execCoolantFlowTimeout (s : State) : s.Leads (execCoolantFlowTimeout s) := blocked (next (.shutdown s))

theorem execReset (s : State) : s.Leads (execReset s) := by
  unfold Machine.execReset
  dsimp only
  split
  · exact next (.reset rfl)
  · exact next (.reset rfl)

theorem execFirmwareFallback (s : State) : s.Leads (execFirmwareFallback s) := blocked (next (.reset rfl))

theorem execFirmwareUpdate (signed : Bool) (version : Nat) (s : State) : s.Leads (execFirmwareUpdate signed version s) := next (.of_mem rfl)

theorem execDieTrainingComplete (trained : BitVec 4) (s : State) : s.Leads (execDieTrainingComplete trained s) := by
  refine blocked (ite (fun _ => ?_) fun _ => ?_)
  · exact ite (fun _ => next (.of_mem rfl)) fun _ => next (.of_mem rfl)
  · exact enabled (ite (fun _ => next (.of_mem rfl)) fun _ => next (.refl s))

end State.Leads

end Sys2Proof.Machine

/-! PROOFS. Every step keeps memory in canonical form: the invariant of log 2. -/

namespace Sys2Proof.Machine

namespace State.Keeps

/-- What the device does by itself where it can. -/
theorem attempt {s : State} {f : State → Out} (h : s.Leads (f s)) : s.Keeps (attempt f s) := by
  unfold Machine.attempt
  split
  · next t ht => exact h.keeps t ht
  · exact refl s

theorem attemptAll {α : Type} (l : List α) {f : α → State → Out} (hf : ∀ a t, State.Leads t (f a t)) (s : State) :
    s.Keeps (attemptAll l f s) := foldl (fun t a => attempt (hf a t)) l s

theorem purge (s : State) (core line : Nat) : s.Keeps (s.purge core line) := of_works (.purge ..)

theorem withTime (s : State) (c : Clockwork) : s.Keeps { s with time := c } := of_mem rfl

theorem dropAged (s : State) : s.Keeps s.dropAged := foldl (fun t e => (purge ..).trans (setCoreAt ..)) _ s

end State.Keeps

namespace State.Leads

theorem admitNext (s : State) (grid : Nat) : s.Leads (s.admitNext grid) := by
  unfold State.admitNext
  dsimp only
  split
  · exact execClusterAdmit ..
  · exact fault _

theorem resumeNext (c : Nat) (s : State) : s.Leads (State.resumeNext c s) := by
  unfold State.resumeNext
  refine blocked ?_
  split
  · exact execClusterResume ..
  · exact fault _

theorem preemptNext (s : State) : s.Leads s.preemptNext := by
  unfold State.preemptNext
  refine blocked ?_
  split
  · next t ht =>
    obtain ⟨c, -, hc⟩ := List.exists_of_findSome?_eq_some ht
    split at hc
    · next u hu =>
      cases hc
      exact next ((execPreemptRequest c.1 false s).keeps _ hu)
    · cases hc
  · exact fault _

end State.Leads

namespace State.Keeps

theorem unitsAct (s : State) : s.Keeps s.unitsAct := by
  unfold State.unitsAct
  extract_lets a b c d e f g h i j k l
  have ha : s.Keeps a := attemptAll _ (fun _ _ => .execInstructionFetch ..) s
  have hb : a.Keeps b := attemptAll _ (fun _ _ => .execVariableLatencyResult ..) a
  have hc : b.Keeps c := attemptAll _ (fun _ _ => .execMatrixEngineAccept ..) b
  have hd : c.Keeps d := attemptAll _ (fun _ _ => .execGuardResolve ..) c
  have he : d.Keeps e := attemptAll _ (fun _ _ => .execEngineCommandComplete ..) d
  have hf : e.Keeps f := attemptAll _ (fun _ _ => .execEngineCommandStart ..) e
  have hg : f.Keeps g := attemptAll _ (fun _ _ => .execCollectiveChunkBoundary ..) f
  have hh : g.Keeps h := attemptAll _ (fun _ _ => .execPeerAdd ..) g
  have hi : h.Keeps i := attemptAll _ (fun _ _ => .execMshrAged ..) h
  have hj : i.Keeps j := attemptAll _ (fun _ _ => .execMshrRetry ..) i
  have hk : j.Keeps k := attemptAll _ (fun _ _ => .execBinTimerExpiry ..) j
  have hl : k.Keeps l := attemptAll _ (fun _ _ => .execBinGroupStart ..) k
  have hfront : s.Keeps f := ((ha.trans hb).trans (hc.trans hd)).trans (he.trans hf)
  have hback : f.Keeps l := ((hg.trans hh).trans (hi.trans hj)).trans (hk.trans hl)
  exact (hfront.trans hback).trans (attemptAll _ (fun _ _ => .execSpawnResume ..) l)

theorem wiresAct (s : State) : s.Keeps s.wiresAct := by
  unfold State.wiresAct
  extract_lets a b c d e f g h i j
  have ha : s.Keeps a := attemptAll _ (fun _ _ => .execReplicaSig ..) s
  have hb : a.Keeps b := attemptAll _ (fun _ _ => .execRendezvousOperands ..) a
  have hc : b.Keeps c := attemptAll _ (fun _ _ => .execReplicaResult ..) b
  have hd : c.Keeps d := attemptAll _ (fun _ _ => .execReplicaNotice ..) c
  have he : d.Keeps e := attemptAll _ (fun _ _ => .execCompareTimeout ..) d
  have hf : e.Keeps f := attemptAll _ (fun _ _ => .execRendezvousTimeout ..) e
  have hg : f.Keeps g := attemptAll _ (fun _ _ => .execLdaForwardTimeout ..) f
  have hh : g.Keeps h := attemptAll _ (fun _ _ => .execEpochWriteback ..) g
  have hi : h.Keeps i := attemptAll _ (fun _ _ => .execDemand ..) h
  have hj : i.Keeps j := attemptAll _ (fun _ _ => .execDemandAck ..) i
  have hfront : s.Keeps e := ((ha.trans hb).trans (hc.trans hd)).trans he
  have hback : e.Keeps j := ((hf.trans hg).trans (hh.trans hi)).trans hj
  exact (hfront.trans hback).trans (attemptAll _ (fun _ _ => .next (settle ..)) j)

theorem processorsAct (s : State) : s.Keeps s.processorsAct := by
  unfold State.processorsAct
  extract_lets grids clusters a b c d e f g h i j k l m n
  have ha : s.Keeps a := attemptAll _ (fun _ _ => .execNonFiniteTrap ..) s
  have hb : a.Keeps b := attemptAll _ (fun _ _ => .execSnuffCancel ..) a
  have hc : b.Keeps c := foldl (fun t x => ite (reapGrid ..) (refl t)) _ b
  have hd : c.Keeps d := attemptAll _ (fun _ _ => .execClusterEnd ..) c
  have he : d.Keeps e := attemptAll _ (fun _ _ => .enabled (.execClusterPreempt ..)) d
  have hf : e.Keeps f := attemptAll _ (fun _ _ => .execGridRetire ..) e
  have hg : f.Keeps g := attemptAll _ (fun _ _ => .execSerialPhase ..) f
  have hh : g.Keeps h := attempt (.execRecordRead g)
  have hi : h.Keeps i := attemptAll _ (fun _ _ => .execLaunchAgeRise ..) h
  have hj : i.Keeps j := attempt (.execLaunchArbitration i)
  have hk : j.Keeps k := attemptAll _ (fun _ _ => .execLeaseInstall ..) j
  have hl : k.Keeps l := attemptAll _ (fun _ _ => .admitNext ..) k
  have hm : l.Keeps m := attempt (.preemptNext l)
  have hn : m.Keeps n := attemptAll _ (fun _ _ => .resumeNext ..) m
  have hfront : s.Keeps g := ((ha.trans hb).trans (hc.trans hd)).trans ((he.trans hf).trans hg)
  have hback : g.Keeps n := ((hh.trans hi).trans (hj.trans hk)).trans ((hl.trans hm).trans hn)
  exact (hfront.trans hback).trans (attemptAll _ (fun _ _ => .execPreemptWithdraw ..) n)

theorem endCycle (s : State) : s.Keeps s.endCycle := by
  unfold State.endCycle
  extract_lets a b c time d
  have ha : s.Keeps a.deliverFaults := of_mem (by simp [a])
  have hb : a.deliverFaults.Keeps b := ((unitsAct _).trans (wiresAct _)).trans (processorsAct _)
  have hc : b.Keeps c := (of_mem (by simp)).trans (dropAged _)
  have hd : c.Keeps d := withTime ..
  exact (((ha.trans hb).trans hc).trans hd).trans (attemptAll _ (fun _ _ => .execLostResult ..) d)

theorem afterIssue (s : State) : s.Keeps s.afterIssue :=
  (of_mem (by simp)).trans (reap ..)

end State.Keeps

namespace State.Leads

theorem issueAt {run : Instr → State → Out} (hrun : ∀ (i : Instr) (t : State), t.Leads (run i t)) (s : State) (k gid slot : Nat) :
    s.Leads (s.issueAt run k gid slot) := by
  unfold State.issueAt
  extract_lets a b time c
  have hc : s.Keeps (c.at_ gid slot) := .of_mem (by simp [c, b, a])
  have h := issue hrun (c.at_ gid slot)
  split
  · next t ht => exact next ((hc.trans (h.keeps t ht)).trans (.afterIssue t))
  · exact after hc h

theorem advance {run : Instr → State → Out} (hrun : ∀ (i : Instr) (t : State), t.Leads (run i t)) (s : State) : s.Leads (s.advance run) := by
  unfold State.advance
  split
  · exact issueAt hrun ..
  · exact next (.endCycle s)

/-- Whatever an instruction or an event does, memory in canonical form is so still. -/
theorem exec (i : Instr) (s : State) : s.Leads (exec i s) := by
  by_cases h : i.coded = true
  · exact of_runs (.exec i s h)
  · cases i with
    | qctlWrite => exact execQctlWrite ..
    | qbaseWrite => exact execQbaseWrite ..
    | qtailDoorbell => exact execQtailDoorbell ..
    | qstatClear => exact execQstatClear ..
    | registerWrite => exact execRegisterWrite ..
    | imageLoad => exact execImageLoad ..
    | recordRead => exact execRecordRead ..
    | launchArbitration => exact execLaunchArbitration ..
    | launchAgeRise => exact execLaunchAgeRise ..
    | leaseInstall => exact execLeaseInstall ..
    | clusterAdmit => exact execClusterAdmit ..
    | preemptRequest => exact execPreemptRequest ..
    | preemptWithdraw => exact execPreemptWithdraw ..
    | clusterPreempt => exact execClusterPreempt ..
    | clusterPark => exact execClusterPark ..
    | clusterUnpark => exact execClusterUnpark ..
    | clusterResume => exact execClusterResume ..
    | binTimerExpiry => exact execBinTimerExpiry ..
    | binGroupStart => exact execBinGroupStart ..
    | spawnResume => exact execSpawnResume ..
    | clusterEnd => exact execClusterEnd ..
    | gridRetire => exact execGridRetire ..
    | deferredFault => exact execDeferredFault ..
    | nonFiniteTrap => exact execNonFiniteTrap ..
    | safePointDistance => exact execSafePointDistance ..
    | splitUrgent => exact execSplitUrgent ..
    | variableLatencyResult => exact execVariableLatencyResult ..
    | mshrRetry => exact execMshrRetry ..
    | mshrAged => exact execMshrAged ..
    | matrixEngineAccept => exact execMatrixEngineAccept ..
    | guardResolve => exact execGuardResolve ..
    | engineCommandStart => exact execEngineCommandStart ..
    | engineCommandComplete => exact execEngineCommandComplete ..
    | collectiveChunkBoundary => exact execCollectiveChunkBoundary ..
    | peerAdd => exact execPeerAdd ..
    | read => exact execRead ..
    | own => exact execOwn ..
    | homeWrite => exact execHomeWrite ..
    | claimAccess => exact execClaimAccess ..
    | fwd => exact execFwd ..
    | fwdData => exact execFwdData ..
    | wbData => exact execWbData ..
    | inv => exact execInv ..
    | invAck => exact execInvAck ..
    | binv => exact execBinv ..
    | demand => exact execDemand ..
    | demandAck => exact execDemandAck ..
    | epochWriteback => exact execEpochWriteback ..
    | tiledLineDrop => exact execTiledLineDrop ..
    | pageFlipToHost => exact execPageFlipToHost ..
    | pairTorn => exact execPairTorn ..
    | snpData => exact execSnpData ..
    | snpInv => exact execSnpInv ..
    | snpCur => exact execSnpCur ..
    | memRd => exact execMemRd ..
    | memWr => exact execMemWr ..
    | hostAtomicop => exact execHostAtomicop ..
    | hostBar2Access => exact execHostBar2Access ..
    | atomicopCompletion => exact execAtomicopCompletion ..
    | replicaSig => exact execReplicaSig ..
    | compareTimeout => exact execCompareTimeout ..
    | rendezvousOperands => exact execRendezvousOperands ..
    | rendezvousTimeout => exact execRendezvousTimeout ..
    | ldaForwardTimeout => exact execLdaForwardTimeout ..
    | replicaNotice => exact execReplicaNotice ..
    | periodEnd => exact execPeriodEnd ..
    | serialPhase => exact execSerialPhase ..
    | snuffCancel => exact execSnuffCancel ..
    | dieFailure => exact execDieFailure ..
    | peerUnreachable => exact execPeerUnreachable ..
    | pageRetire => exact execPageRetire ..
    | sensorLimit => exact execSensorLimit ..
    | coolantFlowTimeout => exact execCoolantFlowTimeout ..
    | reset => exact execReset ..
    | dieTrainingComplete => exact execDieTrainingComplete ..
    | firmwareUpdate => exact execFirmwareUpdate ..
    | firmwareFallback => exact execFirmwareFallback ..
    | illegalInstruction => exact execIllegalInstruction ..
    | instructionFetch => exact execInstructionFetch ..
    | data => exact execData ..
    | replicaResult => exact execReplicaResult ..
    | _ => exact absurd rfl h

theorem step (s : State) : s.Leads (step s) := by
  unfold Machine.step
  split
  · next e rest _ => exact mem (t := { s with events := rest }) rfl (exec ..)
  · exact advance exec s

end State.Leads

/-- Settles O6: of the machine's parts each keeps memory in canonical form, and so does the step that they make up. -/
theorem stepKeepsMemory : Obligations.StepKeepsMemory := by
  unfold Obligations.StepKeepsMemory
  exact fun s t h ht => ((State.Leads.step s).keeps t ht).wf h

end Sys2Proof.Machine

/-! PROOFS. The magnitudes of a format's codes (R160, R161): they rise, by the unit of their binade from one to the next. -/

namespace Sys2Proof.Machine

/-- What the five formats share: the largest finite code lies inside a binade of normal ones, below the sign. -/
structure Fmt.Sound (f : Fmt) : Prop where
  frac_pos : 0 < f.frac
  frac_le : f.frac ≤ 23
  top : f.maxCode < 2 ^ (f.width - 1)
  normal : 2 ^ f.frac ≤ f.maxCode
  inside : f.maxCode % 2 ^ f.frac ≠ 0

theorem Fmt.sound_of_mem {f : Fmt} (h : f ∈ [Fmt.f32, Fmt.bf16, Fmt.f16, Fmt.e4m3, Fmt.e5m2]) : f.Sound := by
  simp only [List.mem_cons, List.not_mem_nil, or_false] at h
  obtain rfl | rfl | rfl | rfl | rfl := h
  all_goals exact ⟨by decide, by decide, by decide, by decide, by decide⟩

/-- The magnitude of a code, as if every exponent were a finite one. -/
noncomputable def Fmt.point (f : Fmt) (n : Nat) : Real :=
  if n < 2 ^ f.frac then n * 2 ^ f.emin else ((n % 2 ^ f.frac + 2 ^ f.frac : Nat) : Real) * 2 ^ (f.emin + ((n / 2 ^ f.frac : Nat) - 1 : Int))

namespace Fmt
variable {f : Fmt}

/-- The magnitude t units above the start of a binade; the end of one binade is the start of the next. -/
theorem point_add {U t : Nat} (ht : t ≤ 2 ^ (f.frac + 1)) (hU : U = 0 ∨ 2 ^ f.frac ≤ t) :
    f.point (U * 2 ^ f.frac + t) = t * 2 ^ (f.emin + U) := by
  have hp : 0 < 2 ^ f.frac := Nat.two_pow_pos _
  rw [pow_succ] at ht
  rcases Nat.lt_or_ge t (2 ^ f.frac) with hlow | hhigh
  · obtain rfl : U = 0 := hU.resolve_right (by omega)
    simp [point, hlow]
  · have hnot : ¬U * 2 ^ f.frac + t < 2 ^ f.frac := by
      have := Nat.zero_le (U * 2 ^ f.frac)
      omega
    rw [point, if_neg hnot]
    rcases Nat.lt_or_ge t (2 * 2 ^ f.frac) with hin | hend
    · have hmod : (U * 2 ^ f.frac + t) % 2 ^ f.frac = t - 2 ^ f.frac := by
        rw [Nat.mul_add_mod_self_right, Nat.mod_eq_sub_mod hhigh, Nat.mod_eq_of_lt (by omega)]
      have hdiv : (U * 2 ^ f.frac + t) / 2 ^ f.frac = U + 1 := by
        rw [Nat.div_eq_iff hp]
        constructor
        · rw [Nat.add_mul]; omega
        · rw [Nat.add_mul]; omega
      rw [hmod, hdiv, Nat.sub_add_cancel hhigh]
      push_cast
      ring_nf
    · obtain rfl : t = 2 * 2 ^ f.frac := by omega
      have hmod : (U * 2 ^ f.frac + 2 * 2 ^ f.frac) % 2 ^ f.frac = 0 := by
        rw [← Nat.add_mul]
        exact Nat.mul_mod_left ..
      have hdiv : (U * 2 ^ f.frac + 2 * 2 ^ f.frac) / 2 ^ f.frac = U + 2 := by
        rw [← Nat.add_mul]
        exact Nat.mul_div_cancel _ hp
      rw [hmod, hdiv]
      push_cast
      rw [show f.emin + ((U : Int) + 2 - 1) = f.emin + U + 1 by ring, zpow_add_one₀ two_ne_zero]
      ring

/-- Every code stands in a binade. -/
theorem exists_binade (f : Fmt) (n : Nat) : ∃ U t, n = U * 2 ^ f.frac + t ∧ t < 2 ^ (f.frac + 1) ∧ (U = 0 ∨ 2 ^ f.frac ≤ t) := by
  have hp : 0 < 2 ^ f.frac := Nat.two_pow_pos _
  have hmod := Nat.mod_lt n hp
  have hdiv := Nat.div_add_mod' n (2 ^ f.frac)
  rw [pow_succ]
  rcases Nat.eq_zero_or_pos (n / 2 ^ f.frac) with h0 | hpos
  · exact ⟨0, n % 2 ^ f.frac, by rw [h0] at hdiv; omega, by omega, .inl rfl⟩
  · obtain ⟨U, hU⟩ := Nat.exists_eq_succ_of_ne_zero hpos.ne'
    refine ⟨U, 2 ^ f.frac + n % 2 ^ f.frac, ?_, by omega, .inr (by omega)⟩
    rw [hU, Nat.succ_mul] at hdiv
    omega

theorem point_strictMono (f : Fmt) : StrictMono f.point := by
  refine strictMono_nat_of_lt_succ fun n => ?_
  obtain ⟨U, t, rfl, ht, hU⟩ := f.exists_binade n
  rw [Nat.add_assoc, point_add ht.le hU, point_add ht (hU.imp id (by omega))]
  push_cast
  have := zpow_pos (two_pos (α := Real)) (f.emin + U)
  nlinarith

/-- A code up to the largest finite one stands for its magnitude. -/
theorem value_point (hf : f.Sound) {n : Nat} (hn : n ≤ f.maxCode) : (((f.value n).rat : Rat) : Real) = f.point n := by
  have hlt : n < 2 ^ (f.width - 1) := Nat.lt_of_le_of_lt hn hf.top
  have hsign : n.testBit (f.width - 1) = false := Nat.testBit_lt_two_pow hlt
  have hp : 0 < 2 ^ f.frac := Nat.two_pow_pos _
  unfold value point
  simp only [Nat.mod_eq_of_lt hlt, hsign, if_neg (Nat.not_lt.mpr hn)]
  split
  · next he =>
    have hl : n < 2 ^ f.frac := (Nat.div_eq_zero_iff_lt hp).mp he
    rw [if_pos hl, Nat.mod_eq_of_lt hl]
    simp [Fl.rat]
  · next he =>
    rw [if_neg fun hl => he (Nat.div_eq_of_lt hl)]
    simp [Fl.rat]

/-- One unit in the last place after the largest finite magnitude. -/
theorem point_beyond (hf : f.Sound) : 2 * f.point f.maxCode - f.point (f.maxCode - 1) = f.point (f.maxCode + 1) := by
  have hp : 0 < 2 ^ f.frac := Nat.two_pow_pos _
  have hmod := Nat.mod_lt f.maxCode hp
  have hdiv := Nat.div_add_mod' f.maxCode (2 ^ f.frac)
  have hpos : 0 < f.maxCode / 2 ^ f.frac := Nat.div_pos hf.normal hp
  obtain ⟨U, hU⟩ := Nat.exists_eq_succ_of_ne_zero hpos.ne'
  obtain ⟨t, ht⟩ := Nat.exists_eq_succ_of_ne_zero hf.inside
  rw [hU, ht, Nat.succ_mul] at hdiv
  have hcode : f.maxCode = U * 2 ^ f.frac + (2 ^ f.frac + t + 1) := by omega
  have hbound : 2 ^ f.frac + t + 2 ≤ 2 ^ (f.frac + 1) := by rw [pow_succ]; omega
  rw [hcode, show U * 2 ^ f.frac + (2 ^ f.frac + t + 1) - 1 = U * 2 ^ f.frac + (2 ^ f.frac + t) by omega,
    show U * 2 ^ f.frac + (2 ^ f.frac + t + 1) + 1 = U * 2 ^ f.frac + (2 ^ f.frac + t + 2) by omega,
    point_add (by omega) (.inr (by omega)), point_add (by omega) (.inr (by omega)), point_add hbound (.inr (by omega))]
  push_cast
  ring

end Fmt

end Sys2Proof.Machine

/-! PROOFS. The rounding of a magnitude (R164 to R166, R169): what `roundMag` makes of some units and a part of one is the neighbour that the
mode chooses. -/

namespace Sys2Proof.Machine

/-- Does a magnitude x between its lower neighbour, which is the n-th, and its upper one go to the upper one (R164, R165)? -/
def Rounding.goesUp (r : Rounding) (neg : Bool) (n : Nat) (lower upper x : Real) : Prop :=
  (r.rnd = 0 ∧ (upper - x < x - lower ∨ (upper - x = x - lower ∧ n % 2 = 1))) ∨
    (r.rnd = 2 ∧ neg = true ∧ lower < x) ∨ (r.rnd = 3 ∧ neg = false ∧ lower < x) ∨
    (r.rnd = 4 ∧ upper - x ≤ x - lower) ∨
    (5 ≤ r.rnd ∧ r.draw < Nat.floor (2 ^ 32 * (x - lower) / (upper - lower)))

namespace Rounding
variable (r : Rounding) (neg : Bool)

/-- A magnitude that is its lower neighbour stays there. -/
theorem not_goesUp_lower (n : Nat) : ¬r.goesUp neg n 0 1 0 := by simp [goesUp]

/-- The choice looks at the part of a unit alone, and at the last bit of the lower neighbour. -/
theorem goesUp_scale {n k : Nat} (h : n % 2 = k % 2) {u : Real} (hu : 0 < u) (t x : Real) :
    r.goesUp neg n (t * u) ((t + 1) * u) ((t + x) * u) ↔ r.goesUp neg k 0 1 x := by
  have hlower : (t + x) * u - t * u = x * u := by ring
  have hupper : (t + 1) * u - (t + x) * u = (1 - x) * u := by ring
  have hunit : (t + 1) * u - t * u = 1 * u := by ring
  have hpos : t * u < (t + x) * u ↔ 0 < x := by rw [← sub_pos, hlower, mul_pos_iff_of_pos_right hu]
  simp only [goesUp, hlower, hupper, hunit, hpos, h, sub_zero, ← mul_assoc, mul_div_mul_right _ _ hu.ne', mul_lt_mul_iff_left₀ hu,
    mul_le_mul_iff_left₀ hu, mul_left_inj' hu.ne']

end Rounding

namespace Fmt
variable {f : Fmt} {r : Rounding} {neg : Bool}

/-- What stands for a magnitude that overflows (R166). -/
def beyond (f : Fmt) (r : Rounding) (neg : Bool) : Nat :=
  if r.sat = true ∨ r.rnd = 1 ∨ (r.rnd = 2 ∧ neg = false) ∨ (r.rnd = 3 ∧ neg = true) then f.signed neg f.maxCode
  else match f.infCode with
    | some i => f.signed neg i
    | none => f.nanCode

theorem finish_beyond {n : Nat} (h : f.maxCode < n) : f.finish r neg n = f.beyond r neg := by
  have hcond : (r.sat || r.rnd == 1 || (r.rnd == 2 && !neg) || (r.rnd == 3 && neg)) =
      decide (r.sat = true ∨ r.rnd = 1 ∨ (r.rnd = 2 ∧ neg = false) ∨ (r.rnd = 3 ∧ neg = true)) := by
    rw [Bool.eq_iff_iff]
    simp [or_assoc]
  simp only [finish, if_pos h, hcond, decide_eq_true_eq]
  rfl

theorem subnormal_iff (hf : f.Sound) {n : Nat} (h : n ≤ f.maxCode) : f.subnormal n = true ↔ 0 < n ∧ n < 2 ^ f.frac := by
  simp [subnormal, Nat.mod_eq_of_lt (Nat.lt_of_le_of_lt h hf.top)]

theorem finish_within (hf : f.Sound) {n : Nat} (h : n ≤ f.maxCode) :
    f.finish r neg n = if r.ftz = true ∧ n < 2 ^ f.frac then f.signed neg 0 else f.signed neg n := by
  have hs := subnormal_iff hf h
  rw [finish, if_neg (Nat.not_lt.mpr h)]
  rcases Nat.eq_zero_or_pos n with rfl | hpos
  · simp
  · simp only [Bool.and_eq_true, hs, hpos, true_and]

/-- The magnitude of a code up to one after the largest finite one, as the statement has it. -/
noncomputable def magnitude (f : Fmt) (n : Nat) : Real :=
  (((if n ≤ f.maxCode then (f.value n).rat else 2 * (f.value f.maxCode).rat - (f.value (f.maxCode - 1)).rat) : Rat) : Real)

theorem magnitude_eq (hf : f.Sound) {n : Nat} (h : n ≤ f.maxCode + 1) : f.magnitude n = f.point n := by
  unfold magnitude
  split
  · next hn => exact value_point hf hn
  · next hn =>
    obtain rfl : n = f.maxCode + 1 := by omega
    push_cast
    rw [value_point hf le_rfl, value_point hf (Nat.sub_le ..), point_beyond hf]

/-- What stands for a neighbour. -/
def put (f : Fmt) (r : Rounding) (neg : Bool) (n : Nat) : Nat :=
  if f.maxCode < n then f.beyond r neg else if r.ftz = true ∧ n < 2 ^ f.frac then f.signed neg 0 else f.signed neg n

theorem finish_eq (hf : f.Sound) (n : Nat) : f.finish r neg n = f.put r neg n := by
  unfold put
  split
  · next h => exact finish_beyond h
  · next h => exact finish_within hf (Nat.not_lt.mp h)

theorem roundsTo_iff {x : Real} {c : Nat} : f.roundsTo r neg x c ↔
    (f.magnitude (f.maxCode + 1) ≤ x → c = f.beyond r neg) ∧
    ∀ n, n ≤ f.maxCode → f.magnitude n ≤ x → x < f.magnitude (n + 1) →
      (r.goesUp neg n (f.magnitude n) (f.magnitude (n + 1)) x → c = f.put r neg (n + 1)) ∧
      (¬r.goesUp neg n (f.magnitude n) (f.magnitude (n + 1)) x → c = f.put r neg n) := Iff.rfl

/-- A magnitude in a binade, the part x of a unit above a neighbour, rounds to that neighbour or to the next. -/
theorem roundsTo_finish (hf : f.Sound) {U t : Nat} {x : Real} {up : Bool} (ht : t < 2 ^ (f.frac + 1)) (hU : U = 0 ∨ 2 ^ f.frac ≤ t)
    (hx0 : 0 ≤ x) (hx1 : x < 1) (hup : up = true ↔ r.goesUp neg t 0 1 x) :
    f.roundsTo r neg ((t + x) * 2 ^ (f.emin + U)) (f.finish r neg (U * 2 ^ f.frac + if up then t + 1 else t)) := by
  have hunit := zpow_pos (two_pos (α := Real)) (f.emin + U)
  have hlow : f.point (U * 2 ^ f.frac + t) = t * 2 ^ (f.emin + U) := point_add ht.le hU
  have hhigh : f.point (U * 2 ^ f.frac + t + 1) = (t + 1) * 2 ^ (f.emin + U) := by
    rw [Nat.add_assoc, point_add ht (hU.imp id (by omega))]
    push_cast
    rfl
  have hbelow : f.point (U * 2 ^ f.frac + t) ≤ (t + x) * 2 ^ (f.emin + U) := by
    rw [hlow]
    exact mul_le_mul_of_nonneg_right (by linarith) hunit.le
  have habove : (t + x) * 2 ^ (f.emin + U) < f.point (U * 2 ^ f.frac + t + 1) := by
    rw [hhigh]
    exact mul_lt_mul_of_pos_right (by linarith) hunit
  refine roundsTo_iff.mpr ⟨fun hover => ?_, fun n hn hle hlt => ?_⟩
  · rw [magnitude_eq hf le_rfl] at hover
    have hcmp := f.point_strictMono.lt_iff_lt.mp (hover.trans_lt habove)
    exact finish_beyond (by split <;> omega)
  · rw [magnitude_eq hf (by omega)] at hle hlt ⊢
    rw [magnitude_eq hf (by omega)]
    have hn1 := f.point_strictMono.lt_iff_lt.mp (hle.trans_lt habove)
    have hn2 := f.point_strictMono.lt_iff_lt.mp (hbelow.trans_lt hlt)
    obtain rfl : n = U * 2 ^ f.frac + t := by omega
    have hparity : (U * 2 ^ f.frac + t) % 2 = t % 2 := by
      obtain ⟨k, hk⟩ := Nat.exists_eq_succ_of_ne_zero hf.frac_pos.ne'
      rw [hk, pow_succ, ← mul_assoc, Nat.mul_add_mod_self_right]
    rw [hlow, hhigh, r.goesUp_scale neg hparity hunit, ← hup, finish_eq hf]
    cases up
    · simp
    · simp [Nat.add_assoc]

end Fmt

/-! The part of a unit that is discarded: `rem` of `2^k`, and less than one of these pieces more (R164, R165). -/

section Discarded
variable {rem k : Nat} {x : Real} (hk : 0 < k) (hx0 : 0 ≤ x) (hx1 : x < 1)
include hk hx0 hx1

/-- Above one half, or at it with something following. -/
theorem above_half_iff : 1 - (rem + x) / 2 ^ k < (rem + x) / 2 ^ k ↔ 2 ^ k < 2 * rem ∨ (2 * rem = 2 ^ k ∧ 0 < x) := by
  obtain ⟨j, rfl⟩ := Nat.exists_eq_succ_of_ne_zero hk.ne'
  have hp : (0 : Real) < 2 ^ (j + 1) := by positivity
  have hpow : (2 : Real) ^ (j + 1) = 2 * ((2 ^ j : Nat) : Real) := by push_cast; ring
  rw [sub_lt_iff_lt_add, ← add_div, lt_div_iff₀ hp, one_mul, hpow, pow_succ]
  rcases Nat.lt_trichotomy rem (2 ^ j) with h | h | h
  · have hr : (rem : Real) + 1 ≤ ((2 ^ j : Nat) : Real) := by exact_mod_cast h
    constructor
    · intro hlt; linarith
    · intro hor; omega
  · rw [h]
    constructor
    · intro hlt; exact .inr ⟨by omega, by linarith⟩
    · intro hor
      have hx : 0 < x := (hor.resolve_left (by omega)).2
      linarith
  · have hr : ((2 ^ j : Nat) : Real) + 1 ≤ (rem : Real) := by exact_mod_cast h
    constructor
    · intro _; exact .inl (by omega)
    · intro _; linarith

/-- One half exactly. -/
theorem half_iff : 1 - (rem + x) / 2 ^ k = (rem + x) / 2 ^ k ↔ 2 * rem = 2 ^ k ∧ x = 0 := by
  obtain ⟨j, rfl⟩ := Nat.exists_eq_succ_of_ne_zero hk.ne'
  have hp : (0 : Real) < 2 ^ (j + 1) := by positivity
  have hpow : (2 : Real) ^ (j + 1) = 2 * ((2 ^ j : Nat) : Real) := by push_cast; ring
  rw [sub_eq_iff_eq_add, ← add_div, eq_div_iff hp.ne', one_mul, hpow, pow_succ]
  rcases Nat.lt_trichotomy rem (2 ^ j) with h | h | h
  · have hr : (rem : Real) + 1 ≤ ((2 ^ j : Nat) : Real) := by exact_mod_cast h
    constructor
    · intro heq; linarith
    · intro hand; omega
  · rw [h]
    constructor
    · intro heq; exact ⟨by omega, by linarith⟩
    · intro hand; rw [hand.2]; ring
  · have hr : ((2 ^ j : Nat) : Real) + 1 ≤ (rem : Real) := by exact_mod_cast h
    constructor
    · intro heq; linarith
    · intro hand; omega

/-- One half at least. -/
theorem half_le_iff : 1 - (rem + x) / 2 ^ k ≤ (rem + x) / 2 ^ k ↔ 2 ^ k ≤ 2 * rem := by
  rw [le_iff_lt_or_eq, above_half_iff hk hx0 hx1, half_iff hk hx0 hx1]
  constructor
  · rintro ((h | h) | h) <;> omega
  · intro h
    rcases Nat.eq_or_lt_of_le h with heq | hlt
    · rcases hx0.lt_or_eq with hpos | hzero
      · exact .inl (.inr ⟨heq.symm, hpos⟩)
      · exact .inr ⟨heq.symm, hzero.symm⟩
    · exact .inl (.inl hlt)

omit hk hx1 in
/-- Something is discarded. -/
theorem discarded_pos_iff : 0 < (rem + x) / 2 ^ k ↔ rem ≠ 0 ∨ 0 < x := by
  have hp : (0 : Real) < 2 ^ k := by positivity
  rw [div_pos_iff_of_pos_right hp]
  constructor
  · intro h
    by_contra hnot
    push Not at hnot
    obtain ⟨hr, hx⟩ := hnot
    rw [hr] at h
    simp only [Nat.cast_zero, zero_add] at h
    linarith
  · rintro (h | h)
    · have : (1 : Real) ≤ rem := by exact_mod_cast Nat.one_le_iff_ne_zero.mpr h
      linarith
    · have : (0 : Real) ≤ rem := Nat.cast_nonneg _
      linarith

/-- What the draw is compared with: 32 bits of the discarded part (R165). -/
theorem floor_discarded (h : x = 0 ∨ 32 ≤ k) : Nat.floor (2 ^ 32 * ((rem + x) / 2 ^ k)) = rem * 2 ^ 32 / 2 ^ k := by
  have hp : (0 : Real) < 2 ^ k := by positivity
  rcases h with rfl | h
  · rw [add_zero, mul_div_assoc', mul_comm, ← Nat.floor_div_eq_div (K := Real)]
    simp only [Nat.cast_mul, Nat.cast_pow, Nat.cast_ofNat]
  · obtain ⟨j, rfl⟩ := Nat.exists_eq_add_of_le h
    have hj : (0 : Real) < 2 ^ j := by positivity
    have hl : (2 : Real) ^ 32 * ((rem + x) / 2 ^ (32 + j)) = (rem + x) / 2 ^ j := by
      rw [pow_add]
      field_simp
    have hr : rem * 2 ^ 32 / 2 ^ (32 + j) = rem / 2 ^ j := by
      rw [pow_add, mul_comm rem, Nat.mul_div_mul_left _ _ (by positivity)]
    rw [hl, hr, Nat.floor_eq_iff (by positivity)]
    have h1 := Nat.div_mul_le_self rem (2 ^ j)
    have h2 := Nat.lt_div_mul_add (a := rem) (b := 2 ^ j) (by positivity)
    constructor
    · rw [le_div_iff₀ hj]
      have : ((rem / 2 ^ j : Nat) : Real) * 2 ^ j ≤ rem := by exact_mod_cast h1
      linarith
    · rw [div_lt_iff₀ hj]
      have : (rem : Real) + 1 ≤ ((rem / 2 ^ j : Nat) : Real) * 2 ^ j + 2 ^ j := by exact_mod_cast h2
      linarith

/-- The model's choice of the upper neighbour is that of the mode. -/
theorem roundsUp_iff (r : Rounding) (neg : Bool) (n : Nat) {sticky : Bool} (hs : sticky = true ↔ 0 < x) (h : x = 0 ∨ 32 ≤ k) :
    roundsUp r neg n rem k sticky = true ↔ r.goesUp neg n 0 1 ((rem + x) / 2 ^ k) := by
  have hx : sticky = false ↔ x = 0 := by
    rw [← Bool.not_eq_true, hs, not_lt]
    exact ⟨fun h => le_antisymm h hx0, fun h => h.le⟩
  simp only [Rounding.goesUp, sub_zero, div_one, above_half_iff hk hx0 hx1, half_iff hk hx0 hx1, half_le_iff hk hx0 hx1,
    discarded_pos_iff hx0, floor_discarded hk hx0 hx1 h]
  obtain ⟨rnd, sat, ftz, draw⟩ := r
  match rnd with
  | 0 =>
    cases sticky
    · simp [roundsUp, hx.mp rfl, and_or_left]
    · simp [roundsUp, hs.mp rfl, (hs.mp rfl).ne']
  | 1 => simp [roundsUp]
  | 2 => simp [roundsUp, hs]
  | 3 => simp [roundsUp, hs]
  | 4 => simp [roundsUp, hk]
  | n + 5 => simp [roundsUp]

end Discarded

namespace Fmt
variable {f : Fmt} {r : Rounding} {neg : Bool} {q : Nat} {e : Int}

/-- The lowest place of the binade in which a magnitude lies, as many places above the bottom one. -/
theorem exists_place (f : Fmt) (q : Nat) (e : Int) : ∃ U : Nat, max ((Nat.log2 q : Int) + e - f.frac) f.emin = f.emin + U :=
  ⟨(max ((Nat.log2 q : Int) + e - f.frac) f.emin - f.emin).toNat, by omega⟩

/-- A magnitude of whole units of its binade stays. -/
theorem roundsTo_whole (hf : f.Sound) {U j : Nat} (hq : q ≠ 0) (hj : e = f.emin + U + j) (hlow : Nat.log2 q + j ≤ f.frac)
    (hU : U = 0 ∨ Nat.log2 q + j = f.frac) : f.roundsTo r neg (q * 2 ^ e) (f.finish r neg (U * 2 ^ f.frac + q * 2 ^ j)) := by
  have hlt : q * 2 ^ j < 2 ^ (f.frac + 1) := by
    calc q * 2 ^ j < 2 ^ (Nat.log2 q + 1) * 2 ^ j := Nat.mul_lt_mul_of_pos_right Nat.lt_log2_self (Nat.two_pow_pos _)
      _ = 2 ^ (Nat.log2 q + 1 + j) := (pow_add ..).symm
      _ ≤ 2 ^ (f.frac + 1) := Nat.pow_le_pow_right (by decide) (by omega)
  have hge : U = 0 ∨ 2 ^ f.frac ≤ q * 2 ^ j := hU.imp id fun h => by
    rw [← h, pow_add]
    exact Nat.mul_le_mul_right _ (Nat.log2_self_le hq)
  have hvalue : (q : Real) * 2 ^ e = (((q * 2 ^ j : Nat) : Real) + 0) * 2 ^ (f.emin + U) := by
    rw [hj, zpow_add₀ two_ne_zero _ (j : Int), zpow_natCast]
    push_cast
    ring
  rw [hvalue]
  exact roundsTo_finish (up := false) hf hlt hge le_rfl one_pos (iff_of_false (by decide) (r.not_goesUp_lower neg _))

/-- A magnitude of which places are discarded goes to the neighbour that the mode chooses. -/
theorem roundsTo_cut (hf : f.Sound) {U k : Nat} {x : Real} {sticky : Bool} (hq : q ≠ 0) (hk : e + k = f.emin + U) (hpos : 0 < k)
    (hlow : Nat.log2 q ≤ f.frac + k) (hU : U = 0 ∨ Nat.log2 q = f.frac + k) (hx0 : 0 ≤ x) (hx1 : x < 1) (hs : sticky = true ↔ 0 < x)
    (h : x = 0 ∨ 32 ≤ k) :
    f.roundsTo r neg ((q + x) * 2 ^ e) (f.finish r neg (U * 2 ^ f.frac +
      if roundsUp r neg (q / 2 ^ k) (q % 2 ^ k) k sticky then q / 2 ^ k + 1 else q / 2 ^ k)) := by
  have hp : 0 < 2 ^ k := Nat.two_pow_pos _
  have hpr : (0 : Real) < 2 ^ k := by positivity
  have hmod := Nat.mod_lt q hp
  have hdiv := Nat.div_add_mod' q (2 ^ k)
  have hlt : q / 2 ^ k < 2 ^ (f.frac + 1) := by
    rw [Nat.div_lt_iff_lt_mul hp, ← pow_add]
    exact Nat.lt_log2_self.trans_le (Nat.pow_le_pow_right (by decide) (by omega))
  have hge : U = 0 ∨ 2 ^ f.frac ≤ q / 2 ^ k := hU.imp id fun h => by
    rw [Nat.le_div_iff_mul_le hp, ← pow_add, ← h]
    exact Nat.log2_self_le hq
  have hpart0 : 0 ≤ ((q % 2 ^ k : Nat) + x) / 2 ^ k := by positivity
  have hpart1 : ((q % 2 ^ k : Nat) + x) / 2 ^ k < 1 := by
    have hsucc : ((q % 2 ^ k : Nat) : Real) + 1 ≤ 2 ^ k := by exact_mod_cast hmod
    rw [div_lt_one hpr]
    linarith
  have hvalue : ((q : Real) + x) * 2 ^ e = ((q / 2 ^ k : Nat) + ((q % 2 ^ k : Nat) + x) / 2 ^ k) * 2 ^ (f.emin + U) := by
    have hq : (q : Real) = (q / 2 ^ k : Nat) * 2 ^ k + (q % 2 ^ k : Nat) := by exact_mod_cast hdiv.symm
    rw [← hk, zpow_add₀ two_ne_zero, zpow_natCast, hq]
    field_simp
    ring
  rw [hvalue]
  exact roundsTo_finish hf hlt hge hpart0 hpart1 (roundsUp_iff hpos hx0 hx1 r neg _ hs h)

/-- `roundMag` rounds units of `2^e`, and a part x of one that only its being there tells, to the neighbour of the mode. -/
theorem roundsTo_roundMag (hf : f.Sound) {x : Real} {sticky : Bool} (hq : q ≠ 0) (hx0 : 0 ≤ x) (hx1 : x < 1) (hs : sticky = true ↔ 0 < x)
    (h : x = 0 ∨ f.frac + 32 ≤ Nat.log2 q) : f.roundsTo r neg ((q + x) * 2 ^ e) (f.roundMag r neg q e sticky) := by
  obtain ⟨U, hU⟩ := f.exists_place q e
  have hplace : (f.emin + U - f.emin).toNat = U := by omega
  simp only [roundMag, hU, hplace, roundAt, Nat.shiftLeft_eq, Nat.shiftRight_eq_div_pow]
  split
  · next hle =>
    obtain rfl : x = 0 := h.resolve_right (by omega)
    rw [add_zero]
    exact roundsTo_whole hf hq (by omega) (by omega) (by omega)
  · next hgt =>
    exact roundsTo_cut hf hq (by omega) (by omega) (by omega) (by omega) hx0 hx1 hs (h.imp id fun h => by omega)

end Fmt

end Sys2Proof.Machine

/-! PROOFS. Quotients and roots are rounded once (R190): each is whole units and a part of one, of which the remainder tells whether it is there. -/

namespace Sys2Proof.Machine

/-! The integer square root. -/

theorem isqrtFrom_spec : ∀ (k n s : Nat), s * s ≤ n → n < (s + 2 ^ k) * (s + 2 ^ k) →
    isqrtFrom k n s * isqrtFrom k n s ≤ n ∧ n < (isqrtFrom k n s + 1) * (isqrtFrom k n s + 1)
  | 0, n, s, hle, hlt => ⟨hle, hlt⟩
  | k + 1, n, s, hle, hlt => by
    unfold isqrtFrom
    dsimp only
    split
    · next h =>
      refine isqrtFrom_spec k n _ h ?_
      rwa [Nat.add_assoc, ← Nat.two_mul, ← Nat.pow_succ']
    · next h => exact isqrtFrom_spec k n s hle (Nat.lt_of_not_le h)

theorem isqrt_spec (n : Nat) : isqrt n * isqrt n ≤ n ∧ n < (isqrt n + 1) * (isqrt n + 1) := by
  refine isqrtFrom_spec _ n 0 (Nat.zero_le _) ?_
  rw [zero_add, ← pow_add]
  exact Nat.lt_log2_self.trans_le (Nat.pow_le_pow_right (by decide) (by omega))

/-- The square root that the model computes is Mathlib's. -/
theorem isqrt_eq (n : Nat) : isqrt n = Nat.sqrt n := by
  obtain ⟨hle, hlt⟩ := isqrt_spec n
  exact Nat.eq_sqrt.mpr ⟨hle, hlt⟩

/-- A number at least a power of two has so many places. -/
theorem le_log2_of_pow_le {j n : Nat} (h : 2 ^ j ≤ n) : j ≤ Nat.log2 n :=
  (Nat.le_log2 ((Nat.two_pow_pos j).trans_le h).ne').mpr h

namespace Fmt
variable {f : Fmt} {r : Rounding} {neg : Bool} {e : Int}

/-- A magnitude y of units of `2^e` between q and q + 1 rounds as q and what follows it. -/
theorem roundsTo_floor (hf : f.Sound) {q j : Nat} {y : Real} {sticky : Bool} (hj : 2 ^ j ≤ q) (hfrac : f.frac + 32 ≤ j) (h0 : q ≤ y) (h1 : y < q + 1)
    (hs : sticky = true ↔ y ≠ q) : f.roundsTo r neg (y * 2 ^ e) (f.roundMag r neg q e sticky) := by
  have h := roundsTo_roundMag (r := r) (neg := neg) (e := e) (x := y - q) (sticky := sticky) hf
    ((Nat.two_pow_pos j).trans_le hj).ne' (by linarith) (by linarith) ?_ (.inr (hfrac.trans (le_log2_of_pow_le hj)))
  · rwa [add_sub_cancel] at h
  · rw [hs, sub_pos]
    exact ⟨fun hne => lt_of_le_of_ne h0 hne.symm, fun hlt => hlt.ne'⟩

/-- Division rounds the exact quotient once. -/
theorem roundsTo_div (hf : f.Sound) {s t : Bool} {m n : Nat} {g : Int} (hm : m ≠ 0) (hn : n ≠ 0) :
    f.roundsTo r (s != t) ((m : Real) * 2 ^ e / ((n : Real) * 2 ^ g)) (f.div r (.fin s m e) (.fin t n g)) := by
  have hfrac := hf.frac_le
  have hnr : (n : Real) ≠ 0 := Nat.cast_ne_zero.mpr hn
  simp only [div, if_neg hn, if_neg hm, Nat.shiftLeft_eq]
  generalize hk : 72 + Nat.log2 n = k
  have hfloor := Nat.floor_div_eq_div (K := Real) (m * 2 ^ k) n
  have hvalue : (m : Real) * 2 ^ e / ((n : Real) * 2 ^ g) = ((m * 2 ^ k : Nat) : Real) / n * 2 ^ (e - g - k) := by
    rw [zpow_sub₀ two_ne_zero, zpow_sub₀ two_ne_zero, zpow_natCast]
    push_cast
    field_simp
  rw [hvalue]
  refine roundsTo_floor (j := 71) hf ?_ (by omega) ?_ ?_ ?_
  · rw [Nat.le_div_iff_mul_le (Nat.pos_of_ne_zero hn)]
    calc 2 ^ 71 * n ≤ 2 ^ 71 * 2 ^ (Nat.log2 n + 1) := Nat.mul_le_mul_left _ Nat.lt_log2_self.le
      _ = 1 * 2 ^ k := by rw [← pow_add, one_mul, ← hk]; congr 1; omega
      _ ≤ m * 2 ^ k := Nat.mul_le_mul_right _ (Nat.one_le_iff_ne_zero.mpr hm)
  · rw [← hfloor]
    exact Nat.floor_le (by positivity)
  · rw [← hfloor]
    exact Nat.lt_floor_add_one _
  · have hmod := Nat.div_add_mod' (m * 2 ^ k) n
    rw [decide_eq_true_iff, ne_eq, ne_eq, not_iff_not, div_eq_iff hnr]
    norm_cast
    omega

/-- Half the exponent, and the place that is left over. -/
theorem exists_half (e : Int) : ∃ h : Int, ∃ o : Nat, (e % 2).toNat = o ∧ (e - e % 2) / 2 = h ∧ e = o + 2 * h :=
  ⟨_, _, rfl, rfl, by omega⟩

/-- The square root rounds the exact root once. -/
theorem roundsTo_sqrt (hf : f.Sound) {m : Nat} (hm : m ≠ 0) : f.roundsTo r false (Real.sqrt ((m : Real) * 2 ^ e)) (f.sqrt r (.fin false m e)) := by
  have hfrac := hf.frac_le
  obtain ⟨h, o, ho, hh, he⟩ := exists_half e
  simp only [sqrt, if_neg hm, Bool.false_eq_true, if_false, ho, hh, Nat.shiftLeft_eq, isqrt_eq]
  generalize hn : m * 2 ^ o * 2 ^ 160 = n
  have hvalue : Real.sqrt ((m : Real) * 2 ^ e) = Real.sqrt (n : Real) * 2 ^ (h - 80) := by
    have hsq : (m : Real) * 2 ^ e = n * (2 ^ (h - 80)) ^ 2 := by
      rw [he, two_mul, zpow_add₀ two_ne_zero, zpow_add₀ two_ne_zero, zpow_sub₀ two_ne_zero, zpow_natCast, ← hn,
        show (80 : Int) = (80 : Nat) from rfl, zpow_natCast]
      simp only [Nat.cast_mul, Nat.cast_pow, Nat.cast_ofNat]
      field_simp
    rw [hsq, Real.sqrt_mul (Nat.cast_nonneg n), Real.sqrt_sq (by positivity)]
  rw [hvalue]
  refine roundsTo_floor (j := 80) hf ?_ (by omega) Real.nat_sqrt_le_real_sqrt Real.real_sqrt_lt_nat_sqrt_succ ?_
  · rw [Nat.le_sqrt, ← hn]
    calc 2 ^ 80 * 2 ^ 80 = 1 * 2 ^ 160 := by rw [← pow_add, one_mul]
      _ ≤ m * 2 ^ o * 2 ^ 160 := Nat.mul_le_mul_right _ (Nat.one_le_iff_ne_zero.mpr (Nat.mul_ne_zero hm (Nat.two_pow_pos o).ne'))
  · rw [decide_eq_true_iff, ne_eq, ne_eq, not_iff_not, Real.sqrt_eq_iff_mul_self_eq (Nat.cast_nonneg n) (Nat.cast_nonneg _)]
    norm_cast
    exact eq_comm

/-- The reciprocal square root rounds the exact reciprocal root once. -/
theorem roundsTo_rsqrt (hf : f.Sound) {m : Nat} (hm : m ≠ 0) :
    f.roundsTo r false (1 / Real.sqrt ((m : Real) * 2 ^ e)) (f.rsqrt r (.fin false m e)) := by
  have hfrac := hf.frac_le
  obtain ⟨h, o, ho, hh, he⟩ := exists_half e
  simp only [rsqrt, if_neg hm, Bool.false_eq_true, if_false, ho, hh, Nat.shiftLeft_eq, isqrt_eq]
  generalize hn : m * 2 ^ o = n
  generalize hk : 100 + Nat.log2 n = k
  have hn0 : 0 < n := hn ▸ Nat.mul_pos (Nat.pos_of_ne_zero hm) (Nat.two_pow_pos o)
  have hnr : (0 : Real) < n := Nat.cast_pos.mpr hn0
  have hvalue : 1 / Real.sqrt ((m : Real) * 2 ^ e) = Real.sqrt (((2 ^ (2 * k) : Nat) : Real) / n) * 2 ^ (-h - k) := by
    have hsq : (m : Real) * 2 ^ e = n * (2 ^ h) ^ 2 := by
      rw [he, two_mul, zpow_add₀ two_ne_zero, zpow_add₀ two_ne_zero, zpow_natCast, ← hn]
      push_cast
      ring
    have hpow : ((2 ^ (2 * k) : Nat) : Real) = (2 ^ k) ^ 2 := by push_cast; ring
    rw [hsq, hpow, Real.sqrt_mul hnr.le, Real.sqrt_sq (by positivity), Real.sqrt_div (by positivity), Real.sqrt_sq (by positivity),
      zpow_sub₀ two_ne_zero, zpow_neg, zpow_natCast]
    field_simp
  rw [hvalue]
  generalize hq : Nat.sqrt (2 ^ (2 * k) / n) = q
  have hle : q * q * n ≤ 2 ^ (2 * k) := (Nat.le_div_iff_mul_le hn0).mp (Nat.le_sqrt.mp hq.ge)
  have hlt : 2 ^ (2 * k) < (q + 1) * (q + 1) * n := (Nat.div_lt_iff_lt_mul hn0).mp (Nat.sqrt_lt.mp (Nat.lt_succ_of_le hq.le))
  refine roundsTo_floor (j := 99) hf ?_ (by omega) ?_ ?_ ?_
  · rw [← hq, Nat.le_sqrt, Nat.le_div_iff_mul_le hn0]
    calc 2 ^ 99 * 2 ^ 99 * n ≤ 2 ^ 99 * 2 ^ 99 * 2 ^ (Nat.log2 n + 1) := Nat.mul_le_mul_left _ Nat.lt_log2_self.le
      _ ≤ 2 ^ (2 * k) := by rw [← pow_add, ← pow_add]; exact Nat.pow_le_pow_right (by decide) (by omega)
  · refine Real.le_sqrt_of_sq_le ?_
    rw [le_div_iff₀ hnr, pow_two]
    exact_mod_cast hle
  · rw [Real.sqrt_lt' (by positivity), div_lt_iff₀ hnr, pow_two]
    exact_mod_cast hlt
  · rw [decide_eq_true_iff, ne_eq, ne_eq, not_iff_not, Real.sqrt_eq_iff_mul_self_eq (by positivity) (Nat.cast_nonneg _), div_eq_iff hnr.ne']
    norm_cast
    exact eq_comm

end Fmt

/-- Settles O12: the magnitudes of the codes rise, a magnitude is whole units of its binade and a part of one, and the choice between the
neighbours looks at that part alone; quotients and roots have places enough that a remainder does not reach the draw. -/
theorem roundingNeighbour : Obligations.RoundingNeighbour := by
  unfold Obligations.RoundingNeighbour
  intro f r s t m n e g hmem
  have hf := Fmt.sound_of_mem hmem
  refine ⟨rfl, rfl, rfl, fun hm => ⟨?_, Fmt.roundsTo_sqrt hf hm, Fmt.roundsTo_rsqrt hf hm, Fmt.roundsTo_div hf hm⟩⟩
  have h := Fmt.roundsTo_roundMag (r := r) (neg := s) (e := e) (x := 0) (sticky := false) hf hm le_rfl one_pos (by simp) (.inl rfl)
  rw [add_zero] at h
  rw [Fmt.roundTo, if_neg hm]
  exact h

end Sys2Proof.Machine
